-- ==== Sys2Proof/Word.lean ====
section
/-!
DEFINITION. The tagged word (R46 of spec/02_tagged_word.md): its two parts.
-/
namespace Sys2Proof

/-- A 64-bit payload. -/
abbrev B64 := BitVec 64

/-- R46: a word is 72 bits, a tag byte and a 64-bit payload. -/
structure Word where
  /-- Word bits 71 to 64. -/
  tag : BitVec 8
  /-- Word bits 63 to 0. -/
  pay : BitVec 64
  deriving DecidableEq, Repr

/-- R48: `EMPTY`. -/
def Word.empty : Word := ⟨0, 0⟩

end Sys2Proof
end

