-- ==== Sys2Proof/Syntax.lean ====
section
/-!
DEFINITION. The commands of the block: one constructor per row of spec/opcode_table.json, in the table's order, with the
operands that the row's rule gives it. The table gives the rows no bits, so the operands are chosen from the rules' own
words (notes/assumptions/2.md). A trailing operand with a default names the plain case of the event.
-/
namespace Sys2Proof

/-- R71: a five-bit register field. -/
abbrev Reg := BitVec 5

/-- R11: who makes a register access. A core counts as the warden of its cell when it runs at level T or M (R219). -/
inductive Who where
  | host
  | shed
  | core (c : Nat)
  deriving DecidableEq, Repr

/-- R81: the relation of a generic comparison. -/
inductive Rel where
  | eq | ne | lt | le | gt | ge
  deriving DecidableEq, Repr

/-- R244: who asked a home for a line: an L2, a non-caching agent (R259) or, for a home atomic, a core. -/
inductive Asker where
  | clu (m : Nat)
  | agent (agent : BitVec 4)
  | core (c : Nat)
  deriving DecidableEq, Repr

/-- R293: what the SEC-DED groups of the first key slot that a command reads show. -/
inductive SlotEcc where
  | good
  | corrected
  | uncorrectable
  deriving DecidableEq, Repr

/-- R217: the kind of an access that is translated. -/
inductive Access where
  | fetch
  | load
  | store
  | readModify
  deriving DecidableEq, Repr

/-- R324: a host command, sixteen dwords, with the data lengths of the data descriptors of its SGL lists when it has
them (R325) and whether every descriptor is well formed. -/
structure HostCmd where
  dw : List (BitVec 32)
  /-- R325: address, length and type of each descriptor of the input list. -/
  inSgl : List (BitVec 64 × BitVec 32 × BitVec 32) := []
  /-- R325: the same of the output list. -/
  outSgl : List (BitVec 64 × BitVec 32 × BitVec 32) := []
  deriving DecidableEq, Repr

/-- R326 step 6: what the DMA reads of a fetch gave. -/
inductive DmaRes where
  /-- Every read completed. -/
  | ok
  /-- The read of the submission queue entry itself failed (R320). -/
  | sqError
  /-- The input or a segment of its list could not be read. -/
  | inError
  /-- A segment of the output list could not be read. -/
  | outError
  deriving DecidableEq, Repr

/-- What the devices around the part give a boot stage (R440): the bundle bytes read from the flash are in the state,
these are the rest. -/
structure BootIn where
  /-- Stage 1: ALM_DBGNONCE as the TRNG drew it. -/
  nonce : BitVec 32 := 0
  /-- Stage 3: MEM_CFG of each channel as the Shed read it from the SPDs. -/
  memCfg : List (BitVec 32) := []
  /-- Stage 3: the TRNG start-up test passed. -/
  trngOk : Bool := true
  /-- Stage 4: channels that failed training or break the population rules. -/
  trainFail : List Nat := []
  /-- Stage 5: what the two reads of the code-path check met beside the mask, by subchannel of the part (R277). -/
  pathErr : List (Nat × List (Nat × BitVec 8) × List (Nat × BitVec 8)) := []
  /-- Stage 5: coprocessors that failed a known-answer test (R304). -/
  katFail : List Nat := []
  deriving DecidableEq, Repr

/-- The commands, one constructor per row of spec/opcode_table.json. -/
inductive Instr where
  /-- TICK (R17): At each frame boundary the frame controller runs the eight ordered tick actions for frame F. -/
  | tick
  /-- PAIR_WAITMAX_EXPIRY (R41): A lone digest reaches first release frame plus WAITMAX and the pair mismatch is declared. -/
  | pairWaitmaxExpiry (p : Nat)
  /-- PREEMPTION_POINT (R19): A core reaches a preemption point after a tick and either continues its strand or starts a switch. -/
  | preemptionPoint (c cc : Nat)
  /-- CONTEXT_SWITCH (R199): The core drains, saves the outgoing strand, spills its windows and loads the incoming strand's context. -/
  | contextSwitch (c : Nat)
  /-- CONTEXT_PREFETCH (R255): From fc P − 64 a core whose strand will change reads and locks the incoming record lines in its L2. -/
  | contextPrefetch (c : Nat)
  /-- LOCKED_LINE_REREAD (R255): A locked context line invalidated by a snoop is read again at once. -/
  | lockedLineReread (c line : Nat)
  /-- SLACK_VIOLATION (R21): A core with no preemption point 256 cc after the tick increments FRM_SLACK.VIOL. -/
  | slackViolation (c : Nat)
  /-- PREEMPTION_LOCKUP (R21): A core with no preemption point by 512 cc is locked up and its strand lost. -/
  | preemptionLockup (c : Nat)
  /-- TICK_ACK (R37): A RUNNING cell acknowledges the tick once all its online cores have finished switching. -/
  | tickAck (n : Nat)
  /-- TICK_ACK_DEADLINE (R37): A cell that has not acknowledged by fc 192 is declared down. -/
  | tickAckDeadline (n : Nat)
  /-- INPUT_CUTOFF (R22): At fc P − 64 the arrival frame of commands still being fetched moves to F + 2. -/
  | inputCutoff
  /-- CALIBRATION_SLOT (R29): A channel opens its periodic calibration slot at fc 256 of a qualifying frame. -/
  | calibrationSlot (ch : Nat)
  /-- CALIBRATION_SLOT_END (R29): The calibration slot ends and the channel's waiting requests proceed. -/
  | calibrationSlotEnd (ch : Nat)
  /-- ROT_DATA_ACCESS (R24): An access to FRM_ROT_DATA reads or writes a rotation word and advances WORD and ROW when AINC is 1. -/
  | rotDataAccess (w : Who) (v : Option (BitVec 32))
  /-- SLACK_CLEAR (R21): Writing 1 to FRM_SLACK_CLR.CLR clears FRM_SLACK. -/
  | slackClear (w : Who) (v : BitVec 32)
  /-- REGISTER_WRITE (R11): A write to a register with no row of its own sets its fields or is rejected. -/
  | registerWrite (w : Who) (vf off : Nat) (v : BitVec 64) (bar : Nat := 0) (size : Nat := 4)
  /-- WADD (R76): Adds two word operands modulo 2^64. -/
  | wadd (c : Nat) (rd rs1 rs2 : Reg)
  /-- WSUB (R76): Subtracts two word operands modulo 2^64. -/
  | wsub (c : Nat) (rd rs1 rs2 : Reg)
  /-- WMUL (R76): Returns the low 64 bits of the product. -/
  | wmul (c : Nat) (rd rs1 rs2 : Reg)
  /-- WMULHU (R76): Returns the high 64 bits of the unsigned product. -/
  | wmulhu (c : Nat) (rd rs1 rs2 : Reg)
  /-- WMULHS (R76): Returns the high 64 bits of the signed product. -/
  | wmulhs (c : Nat) (rd rs1 rs2 : Reg)
  /-- DIVCT (R76): Constant-time unsigned division. -/
  | divct (c : Nat) (rd rs1 rs2 : Reg)
  /-- REMCT (R76): Constant-time unsigned remainder. -/
  | remct (c : Nat) (rd rs1 rs2 : Reg)
  /-- DIV (R76): Signed division with steering operands and operand-dependent time. -/
  | div (c : Nat) (rd rs1 rs2 : Reg)
  /-- REM (R76): Signed remainder with steering operands. -/
  | rem (c : Nat) (rd rs1 rs2 : Reg)
  /-- AND (R76): Bitwise AND of word operands. -/
  | and (c : Nat) (rd rs1 rs2 : Reg)
  /-- OR (R76): Bitwise OR of word operands. -/
  | or (c : Nat) (rd rs1 rs2 : Reg)
  /-- XOR (R76): Bitwise XOR of word operands. -/
  | xor (c : Nat) (rd rs1 rs2 : Reg)
  /-- ANDN (R76): a AND NOT b. -/
  | andn (c : Nat) (rd rs1 rs2 : Reg)
  /-- SHL (R76): Logical shift left by a steering register count. -/
  | shl (c : Nat) (rd rs1 rs2 : Reg)
  /-- SHR (R76): Logical shift right by a steering register count. -/
  | shr (c : Nat) (rd rs1 rs2 : Reg)
  /-- SAR (R76): Arithmetic shift right by a steering register count. -/
  | sar (c : Nat) (rd rs1 rs2 : Reg)
  /-- ROL (R76): Rotate left by b mod 64. -/
  | rol (c : Nat) (rd rs1 rs2 : Reg)
  /-- ROR (R76): Rotate right by b mod 64. -/
  | ror (c : Nat) (rd rs1 rs2 : Reg)
  /-- CLZ (R76): Counts leading zeros into a FIX. -/
  | clz (c : Nat) (rd rs1 : Reg)
  /-- CTZ (R76): Counts trailing zeros into a FIX. -/
  | ctz (c : Nat) (rd rs1 : Reg)
  /-- PERM (R76): Shuffles bytes of a by selectors in b. -/
  | perm (c : Nat) (rd rs1 rs2 : Reg)
  /-- WEQ (R76): FIX 1 if the payloads are equal. -/
  | weq (c : Nat) (rd rs1 rs2 : Reg)
  /-- WLTU (R76): FIX 1 if a < b unsigned. -/
  | wltu (c : Nat) (rd rs1 rs2 : Reg)
  /-- WLTS (R76): FIX 1 if a < b signed. -/
  | wlts (c : Nat) (rd rs1 rs2 : Reg)
  /-- SEL (R77): Constant-time choice of rs2 into rd when the condition is non-zero. -/
  | sel (c : Nat) (rd rs1 rs2 : Reg)
  /-- MOV (R76): Copies any word unchanged. -/
  | mov (c : Nat) (rd rs1 : Reg)
  /-- EQ (R76): FIX 1 if the two words are identical under R54. -/
  | eq (c : Nat) (rd rs1 rs2 : Reg)
  /-- WADDI (R78): WADD with a sign-extended imm13. -/
  | waddi (c : Nat) (rd rs1 : Reg) (imm : BitVec 13)
  /-- ANDI (R78): AND with a zero-extended imm13. -/
  | andi (c : Nat) (rd rs1 : Reg) (imm : BitVec 13)
  /-- ORI (R78): OR with a zero-extended imm13. -/
  | ori (c : Nat) (rd rs1 : Reg) (imm : BitVec 13)
  /-- XORI (R78): XOR with a zero-extended imm13. -/
  | xori (c : Nat) (rd rs1 : Reg) (imm : BitVec 13)
  /-- SHI (R78): Shift or rotate by an immediate count selected by imm13. -/
  | shi (c : Nat) (rd rs1 : Reg) (imm : BitVec 13)
  /-- LDI (R78): Loads a public FIX from a sign-extended imm18. -/
  | ldi (c : Nat) (rd : Reg) (imm : BitVec 18)
  /-- LDSH (R78): Shifts rd's payload left by 18 and ORs in imm18. -/
  | ldsh (c : Nat) (rd : Reg) (imm : BitVec 18)
  /-- BFX (R79): Extracts a zero-extended bit field. -/
  | bfx (c : Nat) (rd rs1 : Reg) (pos len1 : BitVec 6)
  /-- BFXS (R79): Extracts a sign-extended bit field. -/
  | bfxs (c : Nat) (rd rs1 : Reg) (pos len1 : BitVec 6)
  /-- BFI (R79): Inserts a bit field into rd. -/
  | bfi (c : Nat) (rd rs1 : Reg) (pos len1 : BitVec 6)
  /-- TAGOF (R80): Returns the tag byte of rs1 as a public FIX. -/
  | tagof (c : Nat) (rd rs1 : Reg)
  /-- TCHK (R80): Traps 0x03 unless the tag test against a register mask passes. -/
  | tchk (c : Nat) (rs1 rs2 : Reg)
  /-- TTST (R80): Returns FIX 1 if the tag test passes. -/
  | ttst (c : Nat) (rd rs1 rs2 : Reg)
  /-- RETAG (R80): At T or M, gives rs1's payload a new tag byte from rs2. -/
  | retag (c : Nat) (rd rs1 rs2 : Reg)
  /-- DECL (R135): Writes rs1 to rd with S = 0 where declassification is permitted. -/
  | decl (c : Nat) (rd rs1 : Reg)
  /-- TCHKI (R80): TCHK with an immediate mask. -/
  | tchki (c : Nat) (rs1 : Reg) (imm : BitVec 18)
  /-- TTSTI (R80): TTST with an immediate mask. -/
  | ttsti (c : Nat) (rd rs1 : Reg) (imm : BitVec 18)
  /-- RETAGI (R80): RETAG with an immediate tag byte. -/
  | retagi (c : Nat) (rd rs1 : Reg) (imm : BitVec 13)
  /-- ADD (R104): Generic addition by operand type pair, with promotion or the microcoded path. -/
  | add (c : Nat) (rd rs1 rs2 : Reg)
  /-- SUB (R104): Generic subtraction by operand type pair. -/
  | sub (c : Nat) (rd rs1 rs2 : Reg)
  /-- MUL (R104): Generic multiplication by operand type pair. -/
  | mul (c : Nat) (rd rs1 rs2 : Reg)
  /-- CMP (R108): Generic comparison with the selected relation, yielding FIX 0 or 1. -/
  | cmp (c : Nat) (rel : Rel) (rd rs1 rs2 : Reg)
  /-- ADDI (R81): Generic addition of a sign-extended FIX immediate. -/
  | addi (c : Nat) (rd rs1 : Reg) (imm : BitVec 13)
  /-- LD (R82): Loads a word through a CONS, headered or FIX base with the loaded-word checks. -/
  | ld (c : Nat) (rd rs1 : Reg) (imm : BitVec 13)
  /-- ST (R82): Stores a word through a base after the register and destination store checks. -/
  | st (c : Nat) (rv rs1 : Reg) (imm : BitVec 13)
  /-- LDR (R83): Raw 72-bit load at levels T and M. -/
  | ldr (c : Nat) (rd rs1 : Reg) (imm : BitVec 13)
  /-- STR (R83): Raw 72-bit store at levels T and M. -/
  | str (c : Nat) (rv rs1 : Reg) (imm : BitVec 13)
  /-- CAR (R84): Loads the car of a cons cell. -/
  | car (c : Nat) (rd rs1 : Reg)
  /-- CDR (R84): Loads the cdr of a cons cell. -/
  | cdr (c : Nat) (rd rs1 : Reg)
  /-- SETCAR (R84): Stores the car of a cons cell. -/
  | setcar (c : Nat) (rs1 rs2 : Reg)
  /-- SETCDR (R84): Stores the cdr of a cons cell. -/
  | setcdr (c : Nat) (rs1 rs2 : Reg)
  /-- CONS (R110): Allocates a cons cell from an allocation region. -/
  | cons (c : Nat) (region : BitVec 2) (rd rs1 rs2 : Reg)
  /-- VREF (R114): Loads body word i of a headered object. -/
  | vref (c : Nat) (rd rs1 rs2 : Reg)
  /-- VSET (R114): Stores body word i of a headered object. -/
  | vset (c : Nat) (rv rs1 rs2 : Reg)
  /-- ALLOC (R85): Allocates a headered object of the given KIND, length and region. -/
  | alloc (c : Nat) (rd rs1 : Reg) (imm : BitVec 13)
  /-- BARRIER_RETRY (R156): A waiting load retries when the Rake's progress crosses a line boundary. -/
  | barrierRetry (c : Nat)
  /-- MARK_BUFFER_FLUSH (R155): A core's mark buffer is flushed to the mark queue as two line writes. -/
  | markBufferFlush (c : Nat)
  /-- BR (R87): Unconditional branch by disp28. -/
  | br (c : Nat) (disp : BitVec 28)
  /-- CALL (R87): Branches, links out7 and advances CWP. -/
  | call (c : Nat) (disp : BitVec 28)
  /-- BEQZ (R86): Branches when the payload is zero. -/
  | beqz (c : Nat) (rs1 : Reg) (disp : BitVec 18)
  /-- BNEZ (R86): Branches when the payload is non-zero. -/
  | bnez (c : Nat) (rs1 : Reg) (disp : BitVec 18)
  /-- BLTZ (R86): Branches when the FIX is negative. -/
  | bltz (c : Nat) (rs1 : Reg) (disp : BitVec 18)
  /-- BGEZ (R86): Branches when the FIX is non-negative. -/
  | bgez (c : Nat) (rs1 : Reg) (disp : BitVec 18)
  /-- BGTZ (R86): Branches when the FIX is positive. -/
  | bgtz (c : Nat) (rs1 : Reg) (disp : BitVec 18)
  /-- BLEZ (R86): Branches when the FIX is not positive. -/
  | blez (c : Nat) (rs1 : Reg) (disp : BitVec 18)
  /-- BF (R86): Branches when rs1 is SPECIAL nil or false. -/
  | bf (c : Nat) (rs1 : Reg) (disp : BitVec 18)
  /-- BT (R86): Branches when BF would not. -/
  | bt (c : Nat) (rs1 : Reg) (disp : BitVec 18)
  /-- BTYPE (R86): Branches when the TYPE of rs1 equals the type field. -/
  | btype (c : Nat) (rs1 : Reg) (ty : BitVec 5) (disp : BitVec 18)
  /-- JMPR (R87): Jumps to the entry of a LINK, CODE or CLO. -/
  | jmpr (c : Nat) (rs1 : Reg)
  /-- CALLR (R87): Calls the entry of a LINK, CODE or CLO. -/
  | callr (c : Nat) (rs1 : Reg)
  /-- RET (R87): Returns to in7 and decrements CWP, filling the window if needed. -/
  | ret (c : Nat)
  /-- LOOP (R88): Starts a hardware loop with a steering count. -/
  | loop (c : Nat) (rs1 : Reg) (disp : BitVec 18)
  /-- BLKCOPY (R91): Resumable checked block copy. -/
  | blkcopy (c : Nat) (rd rs1 rs2 : Reg)
  /-- BLKCOPYR (R91): Resumable raw block copy at levels T and M. -/
  | blkcopyr (c : Nat) (rd rs1 rs2 : Reg)
  /-- SCANTAG (R91): Resumable scan for the first index whose tag matches a mask. -/
  | scantag (c : Nat) (rd rs1 rs2 : Reg)
  /-- ZRANGE (R91): Resumable write of EMPTY over a range. -/
  | zrange (c : Nat) (rs1 rs2 : Reg)
  /-- ZLINE (R241): Writes EMPTY to a line, taking ownership without a DRAM read. -/
  | zline (c : Nat) (rs1 : Reg) (imm : BitVec 13)
  /-- SAVEU (R197): Stores dirty upper groups to a save area and links it to SAVEHEAD. -/
  | saveu (c : Nat) (rs1 : Reg)
  /-- SAVEL (R197): Stores the dirty lower group to a save area and links it to SAVEHEAD. -/
  | savel (c : Nat) (rs1 : Reg)
  /-- RSTU (R197): Restores the upper groups from the area at SAVEHEAD. -/
  | rstu (c : Nat)
  /-- RSTL (R197): Restores the lower group from the area at SAVEHEAD. -/
  | rstl (c : Nat)
  /-- GATE (R190): Transfers through a checked gate descriptor to a higher level. -/
  | gate (c : Nat) (n : BitVec 18)
  /-- GRET (R192): Returns from a gate, clearing DCL. -/
  | gret (c : Nat)
  /-- TRET (R182): Returns from the trap taken at the current level. -/
  | tret (c : Nat)
  /-- FENCE (R247): Completes when every earlier load and store of the strand has been performed. -/
  | fence (c : Nat)
  /-- BRK (R93): Raises debug trap 0x38. -/
  | brk (c : Nat)
  /-- MFS (R94): Reads a special register into rd. -/
  | mfs (c : Nat) (rd : Reg) (n : BitVec 12)
  /-- MTS (R94): Writes a special register with no row of its own. -/
  | mts (c : Nat) (rs1 : Reg) (n : BitVec 12)
  /-- RQTAKE (R333): MFS of RQTAKE removes and returns the oldest delivered request, waiting if none. -/
  | rqtake (c : Nat) (rd : Reg)
  /-- RQPEEK (R333): MFS of RQPEEK returns the oldest delivered request without removing it. -/
  | rqpeek (c : Nat) (rd : Reg)
  /-- REQUEST_DELIVERED_WAKE (R39): A blocked RQTAKE resumes when a request is delivered. -/
  | requestDeliveredWake (c : Nat)
  /-- DIRTY_WRITE (R195): MTS to DIRTY at level T stores cleared groups into the base copy and sets written bits. -/
  | dirtyWrite (c : Nat) (rs1 : Reg)
  /-- ICLR (R202): MTS to ICLR clears software interrupt sources. -/
  | iclr (c : Nat) (rs1 : Reg)
  /-- ISET (R202): MTS to ISET sets software interrupt sources. -/
  | iset (c : Nat) (rs1 : Reg)
  /-- TLB_INVALIDATE_PAGE (R223): TLBREQ OP 1 queues removal of a page's leaves and the ASID's walk-cache entries. -/
  | tlbInvalidatePage (c : Nat) (rs1 : Reg)
  /-- TLB_INVALIDATE_ASID (R223): TLBREQ OP 2 queues removal of every entry of an ASID. -/
  | tlbInvalidateAsid (c : Nat) (rs1 : Reg)
  /-- TLB_INVALIDATE_ALL (R223): TLBREQ OP 3 queues removal of every entry. -/
  | tlbInvalidateAll (c : Nat) (rs1 : Reg)
  /-- MARK_FULL (R150): RKREQ OP 1 requests a full mark flip. -/
  | markFull (c : Nat) (rs1 : Reg)
  /-- MARK_YOUNG (R150): RKREQ OP 2 requests a young mark flip. -/
  | markYoung (c : Nat) (rs1 : Reg)
  /-- RELOCATE (R150): RKREQ OP 3 runs the relocation plan and requests a relocate flip. -/
  | relocate (c : Nat) (rs1 : Reg)
  /-- RKPIN (R165): MTS to RKPIN pins or unpins an object in phase IDLE. -/
  | rkpin (c : Nat) (rs1 : Reg)
  /-- RAKE_COUNTER_CLEAR (R173): A write of FIX 0 to a Rake result register clears it. -/
  | rakeCounterClear (c : Nat) (rs1 : Reg) (n : BitVec 12)
  /-- XPUT (R298): Writes any word into CXn. -/
  | xput (c : Nat) (n : BitVec 5) (rs1 : Reg)
  /-- XGET (R298): Reads CXn into rd, waiting for an inline operation that writes it. -/
  | xget (c : Nat) (rd : Reg) (n : BitVec 5)
  /-- AESENC (R300): Inline AES block encryption. -/
  | aesenc (c : Nat)
  /-- AESDEC (R300): Inline AES block decryption. -/
  | aesdec (c : Nat)
  /-- SHA256C (R300): Inline SHA-256 compression of one block. -/
  | sha256c (c : Nat)
  /-- GMUL (R300): Inline GF(2^128) multiplication in the GHASH convention. -/
  | gmul (c : Nat)
  /-- RNG (R300): Inline draw of eight secret RAW words from the partition DRBG. -/
  | rng (c : Nat)
  /-- XCLR (R300): Sets every CX register to EMPTY. -/
  | xclr (c : Nat)
  /-- XJOB (R301): Checks and queues a coprocessor job and returns a ticket. -/
  | xjob (c : Nat) (rd : Reg) (fn : BitVec 13) (ecc : SlotEcc := .good)
  /-- SHA2_JOB (R306): Job 0x01: SHA-256, -384 or -512. -/
  | sha2Job (m j : Nat)
  /-- SHA3_JOB (R306): Job 0x02: SHA-3 or SHAKE. -/
  | sha3Job (m j : Nat)
  /-- HMAC_JOB (R306): Job 0x03: HMAC with SHA-2. -/
  | hmacJob (m j : Nat)
  /-- BLAKE2B_JOB (R306): Job 0x04: BLAKE2b, optionally keyed. -/
  | blake2bJob (m j : Nat)
  /-- AES_GCM_SEAL (R306): Job 0x08: AES-GCM seal. -/
  | aesGcmSeal (m j : Nat)
  /-- AES_GCM_OPEN (R307): Job 0x09: AES-GCM open. -/
  | aesGcmOpen (m j : Nat)
  /-- AES_XTS (R306): Job 0x0A: AES-256-XTS encrypt or decrypt. -/
  | aesXts (m j : Nat)
  /-- KEY_WRAP_OUT (R295): Job 0x0B: wraps a key store key. -/
  | keyWrapOut (m j : Nat)
  /-- KEY_UNWRAP_IN (R295): Job 0x0C: unwraps a key into a new slot. -/
  | keyUnwrapIn (m j : Nat)
  /-- OBJECT_WRAP (R295): Job 0x0D: wraps a sealed RAWV body. -/
  | objectWrap (m j : Nat)
  /-- OBJECT_UNWRAP (R295): Job 0x0E: unwraps a sealed RAWV body. -/
  | objectUnwrap (m j : Nat)
  /-- ECDSA_SIGN (R306): Job 0x10: ECDSA sign. -/
  | ecdsaSign (m j : Nat)
  /-- ECDSA_VERIFY (R306): Job 0x11: ECDSA verify. -/
  | ecdsaVerify (m j : Nat)
  /-- ED25519_SIGN (R306): Job 0x12: Ed25519 sign. -/
  | ed25519Sign (m j : Nat)
  /-- ED25519_VERIFY (R306): Job 0x13: Ed25519 verify. -/
  | ed25519Verify (m j : Nat)
  /-- ECDH (R306): Job 0x14: ECDH or X25519. -/
  | ecdh (m j : Nat)
  /-- PUBLIC_KEY_DERIVATION (R306): Job 0x15: public-key derivation. -/
  | publicKeyDerivation (m j : Nat)
  /-- ML_DSA_SIGN (R307): Job 0x18: ML-DSA sign with rejection attempts. -/
  | mlDsaSign (m j : Nat)
  /-- ML_DSA_VERIFY (R306): Job 0x19: ML-DSA verify. -/
  | mlDsaVerify (m j : Nat)
  /-- ML_DSA_KEY_GENERATION (R306): Job 0x1A: ML-DSA key generation. -/
  | mlDsaKeyGeneration (m j : Nat)
  /-- ML_KEM_ENCAPSULATION (R306): Job 0x1C: ML-KEM encapsulation. -/
  | mlKemEncapsulation (m j : Nat)
  /-- ML_KEM_DECAPSULATION (R306): Job 0x1D: ML-KEM decapsulation. -/
  | mlKemDecapsulation (m j : Nat)
  /-- ML_KEM_KEY_GENERATION (R306): Job 0x1E: ML-KEM key generation. -/
  | mlKemKeyGeneration (m j : Nat)
  /-- MODULAR_EXPONENTIATION (R306): Job 0x20: modular exponentiation. -/
  | modularExponentiation (m j : Nat)
  /-- ARGON2ID (R311): Job 0x28: Argon2id in a bank-isolated region. -/
  | argon2id (m j : Nat)
  /-- DRBG_FILL (R306): Job 0x30: fills a sealed output with DRBG bytes. -/
  | drbgFill (m j : Nat)
  /-- JOB_START (R302): A unit takes the next queued job from the coprocessor queue. -/
  | jobStart (m u : Nat)
  /-- JOB_COMPLETION (R302): A job finishes and its result becomes visible, setting interrupt source 1. `fc` is
  the time it took, which no rule turns into a value (notes/assumptions/43.md). -/
  | jobCompletion (m j fc : Nat)
  /-- MHF_SLOT (R282): At each cadence slot the engine issues one real or dummy access per subchannel. -/
  | mhfSlot (n region : Nat) (real : Bool) (line : Nat := 0)
  /-- XWAIT (R303): Collects a finished job's result or trap and frees its ticket. -/
  | xwait (c : Nat) (rd rs1 : Reg)
  /-- KOPEN (R299): Makes a HANDLE from a key name. -/
  | kopen (c : Nat) (rd rs1 : Reg)
  /-- KATT (R299): Narrows a handle's rights by a mask. -/
  | katt (c : Nat) (rd rs1 rs2 : Reg)
  /-- KINFO (R299): Returns a key's public policy bits. -/
  | kinfo (c : Nat) (rd rs1 : Reg)
  /-- KGEN (R299): Generates a key into the lowest free slot. -/
  | kgen (c : Nat) (rd rs1 : Reg)
  /-- KDEL (R299): Destroys a key and advances its GEN. -/
  | kdel (c : Nat) (rs1 : Reg)
  /-- KRD (R299): Reads key material into CX8–CX11 as secret RAW. -/
  | krd (c : Nat) (rs1 : Reg) (ecc : SlotEcc := .good)
  /-- TWIN_KEY_WAIT_APPLY (R40): A waiting twin's key operation is applied at the next tick after its twin is lost. -/
  | twinKeyWaitApply (p : Nat)
  /-- TRAP_ENTRY (R179): A trap saves state into the target level's save registers and enters the handler. -/
  | trapEntry (c : Nat) (cause : BitVec 6) (info : BitVec 64)
  /-- INTERRUPT (R187): A pending enabled interrupt is taken at an instruction boundary. -/
  | interrupt (c : Nat)
  /-- TIMER_EXPIRY (R187): TMRCNT steps from 1 to 0 and cause 0x31 becomes pending. -/
  | timerExpiry (c : Nat)
  /-- BACKGROUND_SPILL (R193): The spill engine writes the oldest resident frame to its bank's spill stack. -/
  | backgroundSpill (c : Nat)
  /-- WALK (R213): The hardware walker translates an address through the page tables. -/
  | walk (c : Nat) (va : BitVec 64) (acc : Access)
  /-- WALK_READ_RETURN (R213): A table word arrives and the walk descends, faults or returns the leaf. -/
  | walkReadReturn (c : Nat)
  /-- DEVICE_ACCESS (R219): A load or store to a device page reaches a BAR0 register. -/
  | deviceAccess (c : Nat) (va : BitVec 64) (wr : Option Word)
  /-- MICROCODE_PREEMPT (R119): A pending tick stops the sequencer after a PP word. -/
  | microcodePreempt (c : Nat) (fn : BitVec 6) (addr : BitVec 13) (rs1 rs2 : Reg := 0) (imm : BitVec 13 := 0)
  /-- MICROCODE_PP_VIOLATION (R119): An interval over 192 cc increments CLU_CSPP.VIOL. -/
  | microcodePpViolation (c cc : Nat)
  /-- CONTROL_STORE_UE (R124): An uncorrectable control-store word locks up the core and latches the address. -/
  | controlStoreUe (c : Nat) (addr : BitVec 13) (single : Bool := false)
  /-- CSDATA2_WRITE (R122): A write to CLU_CSDATA2 stores a control-store word and advances CSADDR. -/
  | csdata2Write (w : Who) (m : Nat) (v : BitVec 32)
  /-- CS_LOCK (R122): Writing LOCK starts the control-store measurement. -/
  | csLock (w : Who) (m : Nat) (v : BitVec 32)
  /-- CS_MEASUREMENT_COMPLETE (R122): The SHA3-256 measurement finishes and CLU_CSCTL.VALID is set. -/
  | csMeasurementComplete (m : Nat)
  /-- CSFIX (R124): Writing CLU_CSFIX rewrites the recorded bad word and clears its latch. -/
  | csfix (w : Who) (m : Nat) (v : BitVec 32)
  /-- CSPP_CLEAR (R119): Writing PPCLR clears CLU_CSPP. -/
  | csppClear (w : Who) (m : Nat) (v : BitVec 32)
  /-- RAKE_LINE (R161): A Rake engine processes one line of work in the order of its work kinds. -/
  | rakeLine (m : Nat)
  /-- MARK_COMPLETION (R166): At the first tick where marking is done, weak boxes and FROM regions are handled. -/
  | markCompletion (p side : Nat)
  /-- RELOCATION_COMPLETION (R170): At the first tick where all RELOC regions are swept, regions change state. -/
  | relocationCompletion (p side : Nat)
  /-- REGION_CLEARING_COMPLETE (R170): RKSTAT.CLEAN becomes 1 at the tick after the last region is cleared. -/
  | regionClearingComplete (p side : Nat)
  /-- DEFERRED_RELOCATE_FLIP (R150): A deferred relocate flip occurs once RKSTAT.DEFER is 0. -/
  | deferredRelocateFlip (p side : Nat)
  /-- STORE_PERFORM (R246): The oldest store buffer entry is written into the L2 once it holds the line in M. -/
  | storePerform (c : Nat)
  /-- L1D_FILL (R234): An L1D miss is filled critical word first. -/
  | l1dFill (c : Nat) (va : BitVec 64) (acc : Access := .load) (parity : Bool := false)
  /-- PREFETCH (R235): A confirmed stream prefetches lines ahead. -/
  | prefetch (c : Nat)
  /-- L2_EVICTION (R250): An L2 victim is sent as WbD or EvC and held in the eviction buffer. -/
  | l2Eviction (m line : Nat)
  /-- RDS (R248): A read request arrives at the home. -/
  | rds (m line : Nat)
  /-- RDX (R248): A read-for-ownership request arrives at the home. -/
  | rdx (m line : Nat)
  /-- UPG (R248): An upgrade request arrives at the home. -/
  | upg (m line : Nat)
  /-- ZOWN (R241): An ownership-without-data request arrives at the home. -/
  | zown (m line : Nat)
  /-- WBD (R248): A dirty eviction with data arrives at the home. -/
  | wbd (m line : Nat) (data : Bool := true)
  /-- EVC (R248): A clean eviction arrives at the home. -/
  | evc (m line : Nat)
  /-- SNPS (R244): A downgrade snoop arrives at an L2. -/
  | snps (m line : Nat)
  /-- SNPI (R244): An invalidate snoop arrives at an L2. -/
  | snpi (m line : Nat)
  /-- SNPD (R244): A data snoop arrives at an L2. -/
  | snpd (m line : Nat)
  /-- ACK (R244): A snoop answer without data arrives at the home. -/
  | ack (m line : Nat)
  /-- ACKD (R244): A snoop answer with data arrives at the home. -/
  | ackd (m line : Nat)
  /-- EIF (R250): An evicted-in-flight answer arrives and is paired with the eviction. -/
  | eif (m line : Nat)
  /-- LOST (R254): A lost-line answer arrives and the home poisons or drops the line. -/
  | lost (m line : Nat)
  /-- NCRD (R248): A non-caching read arrives at the home. -/
  | ncrd (agent : BitVec 4) (line : Nat)
  /-- NCWR (R248): A non-caching full-line write arrives at the home. -/
  | ncwr (agent : BitVec 4) (line : Nat) (data : Option (List Word))
  /-- NCWRP (R273): A non-caching partial write is merged at the home. -/
  | ncwrp (agent : BitVec 4) (line : Nat) (mask : BitVec 8) (data : Option (List Word))
  /-- CAS (R249): A compare-and-store home atomic arrives at the home. -/
  | cas (c : Nat)
  /-- AOR (R249): An atomic OR home atomic arrives at the home. -/
  | aor (c : Nat)
  /-- GRANT (R244): A completion grant arrives at the requester. -/
  | grant (q : Asker) (line : Nat)
  /-- WBACK (R250): An eviction acknowledgement frees the eviction buffer entry. -/
  | wback (m line : Nat)
  /-- RETRY (R251): A Retry answer starts the requester's backoff. -/
  | retry (q : Asker) (line : Nat)
  /-- RETRY_BACKOFF_EXPIRY (R251): A backoff ends and the request is repeated. -/
  | retryBackoffExpiry (q : Asker) (line : Nat)
  /-- HOME_RESPONSE_TIMEOUT (R252): An awaited response missing for one frame period declares the agent dead and the cell down. -/
  | homeResponseTimeout (line : Nat)
  /-- L2_DATA_UE (R253): An uncorrectable L2 word pair becomes POISON and is recorded. -/
  | l2DataUe (m pa : Nat) (symbols : Nat := 2)
  /-- L2_TAG_PARITY (R254): A tag parity error fails the way in every set. -/
  | l2TagParity (m way set : Nat)
  /-- MAINT_L2_CLEAN (R257): Maintenance operation 0 cleans and invalidates every L2 of the cell. -/
  | maintL2Clean (n : Nat)
  /-- MAINT_SCRATCH_CLEAR (R239): Maintenance operation 1 sets scratch ways to EMPTY. -/
  | maintScratchClear (n : Nat)
  /-- MAINT_DIRECTORY_INIT (R258): Maintenance operation 2 invalidates every directory entry and clears failed ways. -/
  | maintDirectoryInit (n : Nat)
  /-- MAINT_BANK_EXCLUSION (R280): Maintenance operation 3 applies bank exclusion and bank-isolated descriptors. -/
  | maintBankExclusion (n : Nat)
  /-- MAINT_DDR_RETRAINING (R263): Maintenance operation 4 retrains the cell's channels. -/
  | maintDdrRetraining (n : Nat)
  /-- MAINT_SELFTEST (R277): Maintenance operation 5 runs the start-up pattern self-test. -/
  | maintSelftest (n : Nat) (found : List (Nat × List (Nat × BitVec 8)))
  /-- MAINT_OP_COMPLETE (R258): A maintenance operation ends and the next waiting one starts. -/
  | maintOpComplete (n : Nat)
  /-- DRAM_READ_RETURN (R269): DRAM data arrives at the home and is decoded, corrected or re-read. -/
  | dramReadReturn (line : Nat) (err : List (Nat × BitVec 8))
  /-- DRAM_REREAD (R269): An uncorrectable codeword is read once more. -/
  | dramReread (line : Nat) (err : List (Nat × BitVec 8))
  /-- CHANNEL_TIMEOUT (R417): A DRAM read not returned within one frame period declares the cell down. -/
  | channelTimeout (ch : Nat)
  /-- REFRESH (R265): A rank receives its scheduled all-bank refresh. -/
  | refresh (ch rank : Nat)
  /-- FLIP_MASK_WRITE (R276): The next write of the armed line is corrupted by the flip mask. -/
  | flipMaskWrite (line : Nat)
  /-- REGION_FILL_START (R271): The fill engine starts filling the next queued region. -/
  | regionFillStart (n : Nat)
  /-- REGION_FILL_COMPLETE (R271): The last line of a region is written and its map bit set. -/
  | regionFillComplete (n : Nat)
  /-- FILL_REQUEST (R284): Writing HOME_FILLREQ.GO queues a fill of a region. -/
  | fillRequest (w : Who) (n : Nat) (v : BitVec 32)
  /-- HOE_READ (R274): The Hoe reads a line in an idle slot and acts on its codewords. -/
  | hoeRead (n : Nat) (err err2 : List (Nat × BitVec 8))
  /-- HOE_LAP_COMPLETE (R274): A lap ends, HOME_HOELAP is recorded and an over-long lap is logged. -/
  | hoeLapComplete (n : Nat)
  /-- DRBG_RESEED (R310): At ticks where F mod INTERVAL is 0 the TRNG supplies reseed inputs. -/
  | drbgReseed
  /-- TRNG_HEALTH_FAILURE (R308): A failed health test clears HEALTHY, records KST_ERR and restarts the start-up test. -/
  | trngHealthFailure
  /-- TRNG_STARTUP_PASS (R308): The start-up test passes and HEALTHY is set. -/
  | trngStartupPass
  /-- COPROCESSOR_INTERNAL_ERROR (R304): An internal error fails running jobs and the Shed clears EN. -/
  | coprocessorInternalError (m u : Nat)
  /-- SQ_TAIL_DOORBELL (R320): The host writes QP_SQTAIL to add commands. -/
  | sqTailDoorbell (vf q : Nat) (v : BitVec 32)
  /-- CQ_HEAD_DOORBELL (R320): The host writes QP_CQHEAD to free completion entries. -/
  | cqHeadDoorbell (vf q : Nat) (v : BitVec 32)
  /-- QP_ENABLE (R319): Writing 1 to QP_CTL.EN enables a queue pair or records ERRC 5. -/
  | qpEnable (w : Who) (vf q : Nat) (v : BitVec 32)
  /-- QP_DISABLE (R319): Writing 0 to QP_CTL.EN stops fetching. -/
  | qpDisable (w : Who) (vf q : Nat) (v : BitVec 32)
  /-- COMMAND_FETCH (R326): The host interface fetches a command and checks it in order. -/
  | commandFetch (vf q : Nat) (cmd : HostCmd) (input : List (BitVec 8)) (dma : DmaRes)
  /-- ARENA_WAIT_FETCH (R331): A fetch waiting for arena space proceeds when a span is freed. -/
  | arenaWaitFetch (vf q : Nat)
  /-- INVOKE (R331): An INVOKE is decoded into an arena span and delivered to the partition. -/
  | invoke (vf q : Nat)
  /-- CANCEL (R336): Sets CANCEL on the oldest matching unaccepted INVOKE. -/
  | cancel (vf q : Nat)
  /-- KEY_IMPORT_WRAPPED (R296): Unwraps a key under a KEK into a new slot. -/
  | keyImportWrapped (vf q : Nat)
  /-- KEY_EXPORT_WRAPPED (R296): Wraps a key under a KEK for export. -/
  | keyExportWrapped (vf q : Nat) (ecc : SlotEcc := .good)
  /-- KEY_DESTROY (R296): Destroys a key named by the host. -/
  | keyDestroy (vf q : Nat)
  /-- RANDOM (R330): Returns random bytes from the partition's DRBG path. -/
  | random (vf q : Nat)
  /-- PING (R330): Returns the arrival frame. -/
  | ping (vf q : Nat)
  /-- RQDONE (R334): A write of CLU_RQDONE accepts, encodes and stages a request's completion. -/
  | rqdone (w : Who) (m : Nat) (v : BitVec 32)
  /-- FLR (R318): A function-level reset disables the function's queues and discards its held outputs. -/
  | flr (vf : Nat)
  /-- LINK_DOWN (R318): PF FLR, hot reset or link down disables VFs and admin queues. -/
  | linkDown
  /-- PERST_N (R438): PCIe fundamental reset resets the endpoint and host interface only. -/
  | perstN
  /-- IDENTIFY (R341): Returns the device, partition or VF identification reply. -/
  | identify
  /-- GET_LOG (R338): Returns records of the event, cell error or HCI log. -/
  | getLog
  /-- SET_FEATURE (R338): Sets a feature register. -/
  | setFeature
  /-- GET_FEATURE (R338): Returns a feature value. -/
  | getFeature
  /-- FW_STAGE (R392): Writes a bundle fragment into the inactive slot. -/
  | fwStage (flashOk : Bool)
  /-- FW_COMMIT (R393): Verifies the staged bundle and optionally marks it pending. -/
  | fwCommit
  /-- PART_CREATE (R340): Creates a partition, writes its key range and instantiates its DRBGs. -/
  | partCreate
  /-- PART_DESTROY (R344): Destroys a partition's keys and state and tells the warden. -/
  | partDestroy
  /-- PART_STOP (R346): Stops a running partition at the next tick and abandons its undelivered work. -/
  | partStop
  /-- PART_STOP_COMPLETE (R346): The partition becomes STOPPED once jobs, outputs and spans have drained. -/
  | partStopComplete (p : Nat)
  /-- PART_START (R345): Checks and starts a partition at the next tick after the warden acknowledges. -/
  | partStart
  /-- PART_CONFIG (R340): Changes partition block groups selected by the mask. -/
  | partConfig
  /-- IMAGE_LOAD (R342): Verifies a signed image and hands its body to the warden. -/
  | imageLoad
  /-- PART_REPAIR (R45): Copies a degraded pair's repair set to the target cell. -/
  | partRepair
  /-- PLAN_WRITE (R338): Writes rotation rows and ROWS for a cell. -/
  | planWrite
  /-- CELL_STOP (R35): Stops a cell, or restarts it when DOWN. -/
  | cellStop
  /-- CELL_RESTART_TIMEOUT (R428): A cluster not leaving reset within 50 µs leaves the cell DOWN. -/
  | cellRestartTimeout (n : Nat)
  /-- CELL_START (R36): Checks the rotation and settings and starts the cell at the next tick. -/
  | cellStart
  /-- MON_READ (R384): Returns monitor snapshots. -/
  | monRead
  /-- MON_CLEAR (R382): Clears monitors at the next tick. -/
  | monClear
  /-- SET_POLICY (R406): ALARM_POLICY kind 1 changes alarm policy through a window at A2. -/
  | setPolicy
  /-- LIFT_FREEZE (R407): ALARM_POLICY kind 2 lifts a freeze. -/
  | liftFreeze
  /-- ALARM_CLEAR (R405): ALARM_POLICY kind 3 clears an alarm in force. -/
  | alarmClear
  /-- TOKEN_REPROVISION (R409): A kind 1 token releases one Seedbank lock. -/
  | tokenReprovision
  /-- TOKEN_DEBUG_UNLOCK (R410): A kind 2 token requests debug unlock through source 10. -/
  | tokenDebugUnlock
  /-- PROGRAM_GROUP (R407): ALARM_POLICY kind 5 programs Seedbank group 2 or 5 while debug is unlocked. -/
  | programGroup
  /-- SLEEP (R437): Zeroizes, posts the completion and then drops PMIC_ON. -/
  | sleep
  /-- ZEROIZE (R402): Zeroizes the part as an alarm source of class A2. -/
  | zeroize
  /-- ADMIN_COMPLETION_POST (R329): An admin completion is posted at the first tick after the Shed finishes. -/
  | adminCompletionPost
  /-- TMU_START (R355): Starts the selected channels together from PHASE. -/
  | tmuStart (w : Who) (v : BitVec 32)
  /-- TMU_INCREMENT (R354): A channel's prescaler expires and the count increments or wraps. -/
  | tmuIncrement (ch : Nat)
  /-- TMU_PIN_SAMPLE (R363): A TMR_IO pin is sampled and filtered, yielding edges or chatter. -/
  | tmuPinSample (k : Nat) (level : Bool)
  /-- CAPTURE_EDGE (R361): A filtered leading or trailing edge is captured or buffered. -/
  | captureEdge (ch : Nat) (leading : Bool)
  /-- CNT_LO_READ (R357): A CNTLO or CMPALO read returns the low half and fills the shadow. -/
  | cntLoRead (w : Who) (ch : Nat) (cmp : Bool)
  /-- CNT_HI_READ (R357): A CNTHI or CMPAHI read returns the shadow or live bits and sets GOOD. -/
  | cntHiRead (w : Who) (ch : Nat) (cmp : Bool)
  /-- CAPTURE_LOCK_READ (R362): A CAPRLO read locks the capture registers. -/
  | captureLockRead (w : Who) (ch : Nat)
  /-- CAPTURE_UNLOCK_READ (R362): A CAPFHI read releases the lock and delivers buffered edges. -/
  | captureUnlockRead (w : Who) (ch : Nat)
  /-- CMPLO_WRITE (R358): A CMPLO write is held in compare staging. -/
  | cmploWrite (w : Who) (ch : Nat) (v : BitVec 32)
  /-- CMPHI_WRITE (R358): A CMPHI write places both halves into the preload. -/
  | cmphiWrite (w : Who) (ch : Nat) (v : BitVec 32)
  /-- MAILBOX_SEND (R371): Writing INDB.SEND passes a message to the Shed. -/
  | mailboxSend (w : Who) (k : Nat) (v : BitVec 32)
  /-- MAILBOX_ACK (R371): Writing OUTACK.ACK frees the outbound buffer. -/
  | mailboxAck (w : Who) (k : Nat) (v : BitVec 32)
  /-- MAILBOX_OUT_PLACE (R371): The Shed places the oldest queued message into OUT and signals the reader. -/
  | mailboxOutPlace (k : Nat)
  /-- ECHO (R372): Host message returned as ECHO_REPLY. -/
  | echo
  /-- NOTE_LEVEL (R372): Host message setting the EVENT_NOTE severity. -/
  | noteLevel
  /-- HELLO (R372): Warden message giving its staging buffer. -/
  | hello (n : Nat)
  /-- WARDEN_ACK (R373): Warden reply to a Shed request, completing a waiting admin command. -/
  | wardenAck (n : Nat)
  /-- WARDEN_LOG (R372): Warden message adding an event record. -/
  | wardenLog (n : Nat)
  /-- THR_CLEAR (R382): Warden message clearing MON_THF bits. -/
  | thrClear (n : Nat)
  /-- WARDEN_TIMEOUT (R373): A warden ACK missing after SHD_WDTO completes the command with 0x0300. -/
  | wardenTimeout (n : Nat)
  /-- SENSOR_CONVERSION (R374): Every 65,536 fc the Shed converts all sensors and logs warnings. -/
  | sensorConversion (temps volts clks : List (BitVec 32))
  /-- EVENT_LOG_TAKE (R376): The Shed takes a unit record into the event log. -/
  | eventLogTake
  /-- LOG_FLASH_PROGRAM (R379): Waiting records are programmed to the log flash. -/
  | logFlashProgram (ok : Bool)
  /-- MON_SNAPSHOT (R383): Writing MON_SNAP.GO copies a monitor into the writer's bank. -/
  | monSnapshot (w : Who) (v : BitVec 32)
  /-- MON_CLR (R382): A MON_CLR0 or MON_CLR1 write clears monitors at the next tick. -/
  | monClr (w : Who) (hi : Bool) (v : BitVec 32)
  /-- MON_CFG_WRITE (R382): A MON_CFGm write reconfigures and clears the monitor. -/
  | monCfgWrite (w : Who) (m : Nat) (v : BitVec 32)
  /-- MONITOR_SAMPLE (R380): A source sample is binned into a monitor's staging copy. -/
  | monitorSample (m : Nat) (v : BitVec 32)
  /-- GET_SENSORS (R387): MCTP vendor command returning the sensor registers. -/
  | getSensors
  /-- BMC_GET_LOG (R387): MCTP vendor command returning event records. -/
  | bmcGetLog (first : BitVec 24) (count : Nat)
  /-- GET_MON (R387): MCTP vendor command returning a monitor. -/
  | getMon (m : Nat)
  /-- GET_STATUS (R387): MCTP vendor command returning status registers. -/
  | getStatus
  /-- MCTP_CONTROL (R386): An MCTP control message is served. -/
  | mctpControl (op : BitVec 8) (arg : BitVec 8)
  /-- UART_INPUT (R388): Console input accepted while debug is unlocked. -/
  | uartInput (b : BitVec 8)
  /-- SHED_LOCKUP (R369): The Shed core locks up and stops until cold boot. -/
  | shedLockup
  /-- ALARM_DECISION (R399): An active source with latch 0 latches, starts its class response and records ALM_REC. -/
  | alarmDecision (src : Nat) (also : BitVec 6 := 0)
  /-- TAMPER_SAMPLE (R398): A TAMPER_N pin is sampled and filtered every 125 ns. -/
  | tamperSample (k : Nat) (low : Bool)
  /-- ZEROIZATION_COMPLETE (R403): Zeroization ends and the part enters its end state. -/
  | zeroizationComplete
  /-- LOCKS_BURN (R404): After an A3 zeroization the monitor burns the next LOCKS bit. -/
  | locksBurn
  /-- LOCKS_BURN_COMPLETE (R404): The LOCKS bit reads 1 and BURN clears. -/
  | locksBurnComplete (bad : Nat := 0)
  /-- LATCH_CLEAR (R399): A W1C write to ALM_LATCH clears latches of inactive sources. -/
  | latchClear (w : Who) (v : BitVec 32)
  /-- DBGREQ (R410): Writing ALM_CTL.DBGREQ raises source 10. -/
  | dbgreq (w : Who) (v : BitVec 32)
  /-- ALM_CTL_CLEAR (R405): Writing ALM_CTL.CLEAR clears an alarm or is rejected. -/
  | almCtlClear (w : Who) (v : BitVec 32)
  /-- LIFT (R401): Writing ALM_CTL.LIFT lifts the freeze at the next tick. -/
  | lift (w : Who) (v : BitVec 32)
  /-- WINDOW (R406): Writing ALM_CTL.WINDOW opens or closes the policy change window. -/
  | window (w : Who) (v : BitVec 32)
  /-- PROGRAM (R413): SBK OP 1 programs a new generation of a group. -/
  | program (w : Who) (v : BitVec 32)
  /-- BURN_SVN (R413): SBK OP 2 burns the next anti-rollback counter bit. -/
  | burnSvn (w : Who) (v : BitVec 32)
  /-- BURN_PROV (R413): SBK OP 3 burns the next PROV bit. -/
  | burnProv (w : Who) (v : BitVec 32)
  /-- RELOAD (R413): SBK OP 4 re-reads every group into the view registers. -/
  | reload (w : Who) (v : BitVec 32)
  /-- SBK_OP_COMPLETE (R413): A Seedbank operation finishes or fails and BUSY clears. -/
  | sbkOpComplete (badBits : Nat) (verifyOk : Bool)
  /-- FSTOP (R422): Writing CLU_FSTOP fault-stops a partition or loses its twin. -/
  | fstop (w : Who) (m : Nat) (v : BitVec 32)
  /-- ELOGRD_WRITE (R426): Writing CELL_ELOGRD closes error log records. -/
  | elogrdWrite (w : Who) (n : Nat) (v : BitVec 32)
  /-- VOTER_DISAGREEMENT (R418): A disagreeing triplicated copy is overwritten and GLB_VOTE records it. -/
  | voterDisagreement (unit : BitVec 2)
  /-- VDD_AON_RISE (R436): Standby power rises, setting the WAKE latch and PMIC_ON. -/
  | vddAonRise
  /-- WAKE_N_FALL (R436): A filtered WAKE_N fall while asleep sets the latch and raises PMIC_ON. -/
  | wakeNFall (ms : Nat)
  /-- PWRGD_RISE (R435): The part leaves reset and boot begins. -/
  | pwrgdRise (test0 test1 : Bool := false)
  /-- PWRGD_FALL (R435): A fall of PWRGD while powered is a cold boot. -/
  | pwrgdFall (ioInRange : Bool)
  /-- PWRGD_TIMEOUT (R435): PWRGD not risen 100 ms after PMIC_ON drops PMIC_ON. -/
  | pwrgdTimeout
  /-- RESET_N (R438): RESET_N low for 1 µs causes a cold boot. -/
  | resetN
  /-- PWR_RESET (R447): Writing the key to PWR_RESET starts a cold boot. -/
  | pwrReset (w : Who) (v : BitVec 32)
  /-- TRST_N (R438): JTAG reset resets the TAP only. -/
  | trstN
  /-- BOOT_STAGE_COMPLETE (R440): A boot stage finishes and the next begins. -/
  | bootStageComplete (r : BootIn)
  /-- HELLO_WAIT_TIMEOUT (R443): No HELLO within 600 ms leaves the cell STOPPED. -/
  | helloWaitTimeout (n : Nat)
  /-- READY (R443): Every cell resolved, the part sets READY, completes a trial boot and logs code 0x01. -/
  | ready (numVf : Nat := 0)
  /-- PMIC_DROP (R437): After SLEEP completes and burns end, PMIC_ON drops at a tick. -/
  | pmicDrop
  /-- PLL_LOSS_OF_LOCK (R446): A clock or PLL failure sets CLK_LOSS and acts per domain: 0 to 7 the PLL of a CLK_LOCK bit,
  8 the 25 MHz reference, 9 the 100 MHz PCIe reference. -/
  | pllLossOfLock (pll : BitVec 4)
  /-- INLINE_OPERATION_COMPLETE (R300): An inline Graft operation finishes up to 64 cc after issue and writes its result CX registers. -/
  | inlineOperationComplete (c : Nat)
  /-- REPAIR_COPY_COMPLETE (R45): The cell-copy engine finishes copying the repair set, the context records and the pair DRBG to the target cell. -/
  | repairCopyComplete (p : Nat)
  /-- ALARM_SOURCE_INACTIVE (R399): An alarm source's input condition ends and its ALM_RAW.LEVEL bit clears, so its latch can be cleared and an alarm clear can be accepted. -/
  | alarmSourceInactive (src : Nat)
  /-- PERST_N_RELEASE (R438): PERST_N rises and the endpoint answers configuration requests within 100 ms, with Request Retry Status before readiness. -/
  | perstNRelease
  /-- LINK_UP (R318): The PCIe link trains up again, so DMA reads and writes can be issued once more. -/
  | linkUp (numVf : Nat := 0) (noBm : List Nat := [])
  /-- MAIN_PLL_LOCK_TIMEOUT (R444): The main PLL has not locked within 1 ms of boot, so the part stays in reset until the next cold boot. -/
  | mainPllLockTimeout
  deriving DecidableEq, Repr

end Sys2Proof
end

