-- ==== Sys2Proof/Machine/Bits.lean ====
section
/-!
DEFINITION. Bit fields of register values, and byte order helpers.
-/
namespace Sys2Proof.Machine

/-- The field [hi:lo] of a value. -/
def fld {n : Nat} (v : BitVec n) (hi lo : Nat) : Nat := v.toNat / 2 ^ lo % 2 ^ (hi - lo + 1)

/-- The value with its field [hi:lo] replaced. -/
def putFld {n : Nat} (v : BitVec n) (hi lo x : Nat) : BitVec n :=
  let m := BitVec.ofNat n ((2 ^ (hi - lo + 1) - 1) * 2 ^ lo)
  (v &&& ~~~m) ||| (BitVec.ofNat n (x * 2 ^ lo) &&& m)

/-- The value with one bit replaced. -/
def putBit {n : Nat} (v : BitVec n) (i : Nat) (b : Bool) : BitVec n := putFld v i i (if b then 1 else 0)

/-- A Boolean as a number. -/
def b2n (b : Bool) : Nat := if b then 1 else 0

/-- `n` bytes of a number, the least significant first. -/
def bytesLE (n x : Nat) : List (BitVec 8) := (List.range n).map fun i => BitVec.ofNat 8 (x / 2 ^ (8 * i))

/-- `n` bytes of a number, the most significant first. -/
def bytesBE (n x : Nat) : List (BitVec 8) := (bytesLE n x).reverse

/-- The number that bytes spell, the least significant first. -/
def natLE : List (BitVec 8) → Nat
  | [] => 0
  | b :: t => b.toNat + 256 * natLE t

/-- The number that bytes spell, the most significant first. -/
def natBE (l : List (BitVec 8)) : Nat := l.foldl (fun a b => a * 256 + b.toNat) 0

/-- A list cut into pieces of `n`, the last perhaps shorter; `fuel` bounds their number. -/
def chunks {α : Type} (n : Nat) : Nat → List α → List (List α)
  | 0, _ => []
  | fuel + 1, l => if l.isEmpty then [] else l.take n :: chunks n fuel (l.drop n)

/-- Pieces of `n` elements of a whole list. -/
def chunk {α : Type} (n : Nat) (l : List α) : List (List α) := chunks n l.length l

/-- The low `n` bits of a number, sign-extended from bit `n - 1`. -/
def sext (n x : Nat) : Int := if x % 2 ^ n < 2 ^ (n - 1) then (x % 2 ^ n : Nat) else (x % 2 ^ n : Nat) - (2 : Int) ^ n

/-- Saturating increment of a field of `n` bits. -/
def satInc (n x : Nat) : Nat := if x + 1 < 2 ^ n then x + 1 else 2 ^ n - 1

/-- A function applied `n` times. -/
def iter {α : Type} (f : α → α) : Nat → α → α
  | 0, a => a
  | n + 1, a => iter f n (f a)

/-- A dword of a list, 0 past its end. -/
def dwAt (l : List (BitVec 32)) (i : Nat) : BitVec 32 := l.getD i 0

/-- The 64-bit number of the dwords `i` (low) and `i + 1` (high). -/
def qwAt (l : List (BitVec 32)) (i : Nat) : Nat := (dwAt l i).toNat + (dwAt l (i + 1)).toNat * 2 ^ 32

/-- A bit mask of the numbers below `n` that satisfy `p`. -/
def maskOf (n : Nat) (p : Nat → Bool) : Nat := (List.range n).foldl (fun a i => a + b2n (p i) * 2 ^ i) 0

/-- Zero bytes. -/
def zeros (n : Nat) : List (BitVec 8) := List.replicate n 0

/-- A byte list cut or padded with zeros to `n`. -/
def fitBytes (n : Nat) (l : List (BitVec 8)) : List (BitVec 8) := l.take n ++ zeros (n - l.length)

/-- The little-endian dwords of a byte list. -/
def dwords (l : List (BitVec 8)) : List (BitVec 32) := (chunk 4 l).map fun c => BitVec.ofNat 32 (natLE c)

/-- The bytes of dwords, little-endian. -/
def dwBytes (l : List (BitVec 32)) : List (BitVec 8) := l.flatMap fun d => bytesLE 4 d.toNat

end Sys2Proof.Machine
end

