-- ==== Sys2Proof/Config.lean ====
section
/-!
DEFINITION. The builds of the part (spec/00_scope.md; their numbers are in Machine/Builds.lean), and the free values:
constants without a body that stand
for what the spec leaves open.
-/
namespace Sys2Proof

/-- The two builds of the part. -/
inductive Build where
  | t48
  | t16
  deriving DecidableEq, Repr

/-- The free values: for a value the spec leaves open the machine reads the next of these. Nothing constrains them
(notes/assumptions/1.md). -/
opaque Config.freeValue : Nat → BitVec 64

/-- R374: the part is of the -X grade; the spec leaves the grade of a part open. -/
opaque Config.gradeX : Bool

/-- R391: the ECDSA P-384 public key of each key set of the boot ROM, whose value is not in the spec. -/
opaque Config.ecdsaPublic : Nat → List (BitVec 8)

/-- R391: the ML-DSA-87 public key of each key set of the boot ROM, whose value is not in the spec. -/
opaque Config.mlDsaPublic : Nat → List (BitVec 8)

/-- R341: the versions of Shed firmware (0), microcode (1) and boot ROM (2) of a bundle version: the spec gives no values. -/
opaque Config.version : Nat → Nat → BitVec 32

/-- R368: a word of the boot ROM of the Shed, whose contents the spec does not give. -/
opaque Config.bootRom : Nat → BitVec 72

/-- R282: the minimum SLOT of a bank-isolated region at a data rate, which the Shed computes from DRAM timings that the
spec does not give. -/
opaque Config.minSlot : Nat → Nat

/-- R221: the hash of VPN and ASID that indexes the L2 TLB, which the spec does not give. -/
opaque Config.tlbHash : Nat → Nat → Nat

/-- R117: the check byte of a control-store word over its bits [95:8], which the spec names and does not define. -/
opaque Config.csEcc : BitVec 96 → BitVec 8

/-- R442: the digest of the reference-warden key in the boot ROM, which the spec does not give. -/
opaque Config.wardenKeyDigest : BitVec 256
/-- R460: the maker's JEDEC manufacturer identity, which the ordering information gives. -/
opaque Config.jedecId : BitVec 11

end Sys2Proof
end

