-- ==== Sys2Proof/Machine/Builds.lean ====
section
/-!
DEFINITION. The numbers of the two builds of the part (chapter 00 and the chapters named).
-/
namespace Sys2Proof

/-- Cells of the build. -/
def Build.cells : Build → Nat | .t48 => 3 | .t16 => 2
/-- Clusters in a cell. -/
def Build.cluPerCell : Build → Nat | .t48 => 4 | .t16 => 2
/-- Clusters of the part. -/
def Build.clusters (b : Build) : Nat := b.cells * b.cluPerCell
/-- Cores of the part, four to a cluster. -/
def Build.cores (b : Build) : Nat := b.clusters * 4
/-- Cores of one cell. -/
def Build.coresPerCell (b : Build) : Nat := b.cluPerCell * 4
/-- Memory channels of the part. -/
def Build.channels (b : Build) : Nat := match b with | .t48 => 12 | .t16 => 4
/-- Memory channels of one cell. -/
def Build.chanPerCell (b : Build) : Nat := match b with | .t48 => 4 | .t16 => 2
/-- R262: s, the base-two logarithm of the subchannels of a cell. -/
def Build.subLog (b : Build) : Nat := match b with | .t48 => 3 | .t16 => 2
/-- Home slices of the part, four to a cell. -/
def Build.homes (b : Build) : Nat := b.cells * 4
/-- Partitions. -/
def Build.parts (b : Build) : Nat := match b with | .t48 => 64 | .t16 => 32
/-- Key store slots. -/
def Build.slots (b : Build) : Nat := match b with | .t48 => 262144 | .t16 => 131072
/-- R2: the reset value of GLB_ID. -/
def Build.glbId (b : Build) : Nat := match b with | .t48 => 0x0048B134 | .t16 => 0x0016B122
/-- R242: sets of one directory slice. -/
def Build.dirSets (b : Build) : Nat := match b with | .t48 => 2048 | .t16 => 1024
/-- R242: entries of one directory slice. -/
def Build.dirEntries (b : Build) : Nat := b.dirSets * 16
/-- R270: bits of a cell's fresh-region map. -/
def Build.mapBits (b : Build) : Nat := match b with | .t48 => 2 ^ 20 | .t16 => 2 ^ 19
/-- The cell of a cluster. -/
def Build.cellOfClu (b : Build) (m : Nat) : Nat := m / b.cluPerCell
/-- The cell of a core. -/
def Build.cellOfCore (b : Build) (c : Nat) : Nat := b.cellOfClu (c / 4)
/-- The cell of a memory channel. -/
def Build.cellOfChan (b : Build) (c : Nat) : Nat := c / b.chanPerCell

end Sys2Proof
end

