-- ==== Sys2Proof/Machine/RegMap.lean ====
section
/-!
DEFINITION. The register space (chapter 00): the blocks of BAR0, and one row of data for every register, from the register
tables of spec/: its offset in the block, its repetition, its reset value and the bits of each access code of R6.
-/
namespace Sys2Proof.Machine

/-- The blocks of BAR0. -/
inductive Blk where
  | glb | hci | frm | tmu | alm | sbk | shd | pwr | cell | clu | mem | home | kst | cpx | mon
  deriving DecidableEq, Repr

/-- The registers, by their names in spec/. -/
inductive RegName where
  /- R2, R11, R433 -/
  | glbId | glbLockerr | glbVote
  /- R323, R350 -/
  | hciStatus | hciErr | hciCqstall | hciArenawait | qpSqbase | qpSqbaseh | qpCqbase | qpCqbaseh | qpSize | qpCtl
  | qpStat | qpSqtail | qpCqhead
  /- R45 -/
  | frmStatus | frmPeriod | frmCellState | frmCellRows | frmCellEvt | frmRotAddr | frmRotData | frmSlack
  | frmSlackClr | frmPairCfg | frmPairStat | frmPairDeg | frmPairMiscnt | frmCal | frmLate
  /- R367 -/
  | tmuStart | tmuRun | tmuShstat | tmuIrq | tmuPin | tmuCtl | tmuStat | tmuCntlo | tmuCnthi | tmuToplo | tmuTophi
  | tmuPhaselo | tmuPhasehi | tmuCmplo | tmuCmphi | tmuCmpalo | tmuCmpahi | tmuCaprlo | tmuCaprhi | tmuCapflo
  | tmuCapfhi
  /- R414 -/
  | almStat | almRaw | almLatch | almPolicy | almCtl | almRec | almRecfrm | almOvfcnt | almDbgnonce | almLockcnt
  /- R415 -/
  | sbkCtl | sbkGrp | sbkCount | sbkRdata | sbkWdata
  /- R395 -/
  | shdStat | shdIn | shdIndb | shdMstat | shdOut | shdOutack | shdTemp | shdVmon | shdClkmon | shdLogseq
  | shdLogstat | shdWdto
  /- R447 -/
  | pwrStat | pwrReset | clkLock | clkLoss | clkDdr | clkCgate
  /- R259, R431 -/
  | cellL2cfg | cellMseq | cellCoherr | cellCohaddr | cellCohaddrh | cellElogstat | cellElogseq | cellElogrd
  | cellDownwhy | cellElog
  /- R124, R174, R205, R261, R353, R432 -/
  | cluCoreStat | cluCoreLkpc | cluCoreLkpch | cluCoreLkfrm | cluCsctl | cluCsaddr | cluCsdata | cluCsmeas
  | cluCserr | cluCsce | cluCsfix | cluCspp | cluRkstat | cluRklines | cluRkprio | cluRkerr | cluRkregn
  | cluL2stat | cluL2err | cluL2ce | cluRqdone | cluRqderr | cluFstop
  /- R283 -/
  | memCfg | memStat | memErrstat | memErraddr | memErraddrh | memErrfrm | memCecnt | memUecnt | memFlipctl
  | memFlipmask | memFlipline | memFliplineh
  /- R260, R284 -/
  | homeDirocc | homeRetry | homeBackinv | homeEif | homeMemstat | homeFillreq | homeFillstat | homeFilled
  | homeMapaddr | homeMapdata | homeFillmax | homeHoectl | homeHoepos | homeHoelap | homeHoeskip | homeExcl
  | homeBir
  /- R313 -/
  | kstStat | kstRetired | kstErr | kstCecnt | kstReseed | kstTrng | kstPbase | kstPcnt
  /- R314 -/
  | cpxCtl | cpxStat | cpxJobs | cpxExt | cpxErr
  /- R396 -/
  | monSnap | monThf0 | monThf1 | monClr0 | monClr1 | monCfg | monThr | monSmin | monSmax | monSxing | monSclrlo
  | monSclrhi | monSbinlo | monSbinhi
  deriving DecidableEq, Repr

/-- A register: its block, first offset, stride and count (T48, T16), reset value, and the bits of each access code. -/
structure RegRow where
  blk : Blk
  off : Nat
  stride : Nat := 0
  n48 : Nat := 1
  n16 : Nat := 1
  reset : BitVec 32 := 0
  rw : BitVec 32 := 0
  w1c : BitVec 32 := 0
  w1s : BitVec 32 := 0
  wo : BitVec 32 := 0
  rwl : BitVec 32 := 0

/-- The row of a register. -/
def RegName.row : RegName → RegRow
  | .glbId => { blk := .glb, off := 0x0 }
  | .glbLockerr => { blk := .glb, off := 0x20, w1c := 0xC0000000 }
  | .glbVote => { blk := .glb, off := 0x30, rw := 0xFFFF0000 }
  | .hciStatus => { blk := .hci, off := 0x0 }
  | .hciErr => { blk := .hci, off := 0x10, w1c := 0xC0000000 }
  | .hciCqstall => { blk := .hci, off := 0x20, rw := 0xFFFFFFFF }
  | .hciArenawait => { blk := .hci, off := 0x24, rw := 0xFFFFFFFF }
  | .qpSqbase => { blk := .hci, off := 0x1000, stride := 0x100, n48 := 16, n16 := 16, rwl := 0xFFFFFFC0 }
  | .qpSqbaseh => { blk := .hci, off := 0x1004, stride := 0x100, n48 := 16, n16 := 16, rwl := 0xFFFFFFFF }
  | .qpCqbase => { blk := .hci, off := 0x1008, stride := 0x100, n48 := 16, n16 := 16, rwl := 0xFFFFFFE0 }
  | .qpCqbaseh => { blk := .hci, off := 0x100C, stride := 0x100, n48 := 16, n16 := 16, rwl := 0xFFFFFFFF }
  | .qpSize => { blk := .hci, off := 0x1010, stride := 0x100, n48 := 16, n16 := 16, rwl := 0xFFF0FFF }
  | .qpCtl => { blk := .hci, off := 0x1014, stride := 0x100, n48 := 16, n16 := 16, rw := 0x80000002 }
  | .qpStat => { blk := .hci, off := 0x1018, stride := 0x100, n48 := 16, n16 := 16 }
  | .qpSqtail => { blk := .hci, off := 0x101C, stride := 0x100, n48 := 16, n16 := 16, rw := 0xFFF }
  | .qpCqhead => { blk := .hci, off := 0x1020, stride := 0x100, n48 := 16, n16 := 16, rw := 0xFFF }
  | .frmStatus => { blk := .frm, off := 0x0 }
  | .frmPeriod => { blk := .frm, off := 0x10, reset := 0x2, rwl := 0x3 }
  | .frmCellState => { blk := .frm, off := 0x100, stride := 0x10, n48 := 3, n16 := 2 }
  | .frmCellRows => { blk := .frm, off := 0x104, stride := 0x10, n48 := 3, n16 := 2, reset := 0x1, rwl := 0x1FF }
  | .frmCellEvt => { blk := .frm, off := 0x108, stride := 0x10, n48 := 3, n16 := 2 }
  | .frmRotAddr => { blk := .frm, off := 0x200, rw := 0x10FFF }
  | .frmRotData => { blk := .frm, off := 0x204, rwl := 0xFFFFFFFF }
  | .frmSlack => { blk := .frm, off := 0x300 }
  | .frmSlackClr => { blk := .frm, off := 0x304, wo := 0x1 }
  | .frmPairCfg => { blk := .frm, off := 0x400, reset := 0x10, rwl := 0xFF }
  | .frmPairStat => { blk := .frm, off := 0x404, w1c := 0xC0000000 }
  | .frmPairDeg => { blk := .frm, off := 0x408, stride := 0x4, n48 := 2, n16 := 2 }
  | .frmPairMiscnt => { blk := .frm, off := 0x410, rw := 0xFFFFFFFF }
  | .frmCal => { blk := .frm, off := 0x500, reset := 0x4040, rwl := 0xFFFF }
  | .frmLate => { blk := .frm, off := 0x1000, stride := 0x4, n48 := 64, n16 := 32, rw := 0xFFFFFFFF }
  | .tmuStart => { blk := .tmu, off := 0x0, wo := 0xFFFFFE }
  | .tmuRun => { blk := .tmu, off := 0x4 }
  | .tmuShstat => { blk := .tmu, off := 0x8 }
  | .tmuIrq => { blk := .tmu, off := 0xC }
  | .tmuPin => { blk := .tmu, off := 0x10, stride := 0x4, n48 := 8, n16 := 8, rw := 0x201F000F, w1c := 0x40000000 }
  | .tmuCtl => { blk := .tmu, off := 0x100, stride := 0x40, n48 := 24, n16 := 24, reset := 0x800000, rwl := 0xE5F0FFFF }
  | .tmuStat => { blk := .tmu, off := 0x104, stride := 0x40, n48 := 24, n16 := 24, w1c := 0xC9000000 }
  | .tmuCntlo => { blk := .tmu, off := 0x108, stride := 0x40, n48 := 24, n16 := 24 }
  | .tmuCnthi => { blk := .tmu, off := 0x10C, stride := 0x40, n48 := 24, n16 := 24 }
  | .tmuToplo => { blk := .tmu, off := 0x110, stride := 0x40, n48 := 24, n16 := 24, rwl := 0xFFFFFFFF }
  | .tmuTophi => { blk := .tmu, off := 0x114, stride := 0x40, n48 := 24, n16 := 24, rwl := 0xFFFFFFFF }
  | .tmuPhaselo => { blk := .tmu, off := 0x118, stride := 0x40, n48 := 24, n16 := 24, rwl := 0xFFFFFFFF }
  | .tmuPhasehi => { blk := .tmu, off := 0x11C, stride := 0x40, n48 := 24, n16 := 24, rwl := 0xFFFFFFFF }
  | .tmuCmplo => { blk := .tmu, off := 0x120, stride := 0x40, n48 := 24, n16 := 24, rw := 0xFFFFFFFF }
  | .tmuCmphi => { blk := .tmu, off := 0x124, stride := 0x40, n48 := 24, n16 := 24, rw := 0xFFFFFFFF }
  | .tmuCmpalo => { blk := .tmu, off := 0x128, stride := 0x40, n48 := 24, n16 := 24 }
  | .tmuCmpahi => { blk := .tmu, off := 0x12C, stride := 0x40, n48 := 24, n16 := 24 }
  | .tmuCaprlo => { blk := .tmu, off := 0x130, stride := 0x40, n48 := 24, n16 := 24 }
  | .tmuCaprhi => { blk := .tmu, off := 0x134, stride := 0x40, n48 := 24, n16 := 24 }
  | .tmuCapflo => { blk := .tmu, off := 0x138, stride := 0x40, n48 := 24, n16 := 24 }
  | .tmuCapfhi => { blk := .tmu, off := 0x13C, stride := 0x40, n48 := 24, n16 := 24 }
  | .almStat => { blk := .alm, off := 0x0 }
  | .almRaw => { blk := .alm, off := 0x4 }
  | .almLatch => { blk := .alm, off := 0x8, w1c := 0xFFFF }
  | .almPolicy => { blk := .alm, off := 0xC, reset := 0x6AAEAB, rwl := 0xFFFFFFFF }
  | .almCtl => { blk := .alm, off := 0x10, rw := 0x1, wo := 0xE }
  | .almRec => { blk := .alm, off := 0x14, w1c := 0xE0000000 }
  | .almRecfrm => { blk := .alm, off := 0x18 }
  | .almOvfcnt => { blk := .alm, off := 0x1C, rw := 0xFFFFFFFF }
  | .almDbgnonce => { blk := .alm, off := 0x20 }
  | .almLockcnt => { blk := .alm, off := 0x24 }
  | .sbkCtl => { blk := .sbk, off := 0x0, rw := 0xF00, w1c := 0x40000000, wo := 0x7 }
  | .sbkGrp => { blk := .sbk, off := 0x4 }
  | .sbkCount => { blk := .sbk, off := 0x10 }
  | .sbkRdata => { blk := .sbk, off := 0x100, stride := 0x4, n48 := 15, n16 := 15 }
  | .sbkWdata => { blk := .sbk, off := 0x200, stride := 0x4, n48 := 15, n16 := 15, rw := 0xFFFFFFFF }
  | .shdStat => { blk := .shd, off := 0x0 }
  | .shdIn => { blk := .shd, off := 0x100, stride := 0x4, n48 := 16, n16 := 16, rwl := 0xFFFFFFFF }
  | .shdIndb => { blk := .shd, off := 0x140, stride := 0x4, wo := 0x1 }
  | .shdMstat => { blk := .shd, off := 0x144, stride := 0x4, rw := 0xFF00 }
  | .shdOut => { blk := .shd, off := 0x180, stride := 0x4, n48 := 16, n16 := 16 }
  | .shdOutack => { blk := .shd, off := 0x1C0, stride := 0x4, wo := 0x1 }
  | .shdTemp => { blk := .shd, off := 0x800, stride := 0x4, n48 := 24, n16 := 24 }
  | .shdVmon => { blk := .shd, off := 0x880, stride := 0x4, n48 := 16, n16 := 16 }
  | .shdClkmon => { blk := .shd, off := 0x8C0, stride := 0x4, n48 := 4, n16 := 4 }
  | .shdLogseq => { blk := .shd, off := 0x900 }
  | .shdLogstat => { blk := .shd, off := 0x904 }
  | .shdWdto => { blk := .shd, off := 0x908, reset := 0x80, rw := 0xFFFF }
  | .pwrStat => { blk := .pwr, off := 0x0 }
  | .pwrReset => { blk := .pwr, off := 0x10, wo := 0xFFFFFFFF }
  | .clkLock => { blk := .pwr, off := 0x100 }
  | .clkLoss => { blk := .pwr, off := 0x104, w1c := 0xFF }
  | .clkDdr => { blk := .pwr, off := 0x108 }
  | .clkCgate => { blk := .pwr, off := 0x110, stride := 0x4, n48 := 2, n16 := 2 }
  | .cellL2cfg => { blk := .cell, off := 0x0, rwl := 0x800FFFFF }
  | .cellMseq => { blk := .cell, off := 0x10 }
  | .cellCoherr => { blk := .cell, off := 0x20, w1c := 0xC0000000 }
  | .cellCohaddr => { blk := .cell, off := 0x24 }
  | .cellCohaddrh => { blk := .cell, off := 0x28 }
  | .cellElogstat => { blk := .cell, off := 0x100, rw := 0xFFFFFF00, w1c := 0x80 }
  | .cellElogseq => { blk := .cell, off := 0x104 }
  | .cellElogrd => { blk := .cell, off := 0x108, rw := 0xFFFFFFFF }
  | .cellDownwhy => { blk := .cell, off := 0x110 }
  | .cellElog => { blk := .cell, off := 0x200, stride := 0x4, n48 := 256, n16 := 256 }
  | .cluCoreStat => { blk := .clu, off := 0x400, stride := 0x10, n48 := 4, n16 := 4 }
  | .cluCoreLkpc => { blk := .clu, off := 0x404, stride := 0x10, n48 := 4, n16 := 4 }
  | .cluCoreLkpch => { blk := .clu, off := 0x408, stride := 0x10, n48 := 4, n16 := 4 }
  | .cluCoreLkfrm => { blk := .clu, off := 0x40C, stride := 0x10, n48 := 4, n16 := 4 }
  | .cluCsctl => { blk := .clu, off := 0x800, w1s := 0x80000000, wo := 0x100 }
  | .cluCsaddr => { blk := .clu, off := 0x804, rwl := 0x1FFF }
  | .cluCsdata => { blk := .clu, off := 0x808, stride := 0x4, n48 := 3, n16 := 3, rwl := 0xFFFFFFFF }
  | .cluCsmeas => { blk := .clu, off := 0x820, stride := 0x4, n48 := 8, n16 := 8 }
  | .cluCserr => { blk := .clu, off := 0x840, w1c := 0xE0000000 }
  | .cluCsce => { blk := .clu, off := 0x844, rw := 0xFFFFFFFF }
  | .cluCsfix => { blk := .clu, off := 0x848, wo := 0x1 }
  | .cluCspp => { blk := .clu, off := 0x850 }
  | .cluRkstat => { blk := .clu, off := 0xC00 }
  | .cluRklines => { blk := .clu, off := 0xC04, rw := 0xFFFF0000 }
  | .cluRkprio => { blk := .clu, off := 0xC08, rw := 0xFFFFFF00 }
  | .cluRkerr => { blk := .clu, off := 0xC0C, w1c := 0xC0000000 }
  | .cluRkregn => { blk := .clu, off := 0xC10 }
  | .cluL2stat => { blk := .clu, off := 0x1000 }
  | .cluL2err => { blk := .clu, off := 0x1004, w1c := 0xC0000000 }
  | .cluL2ce => { blk := .clu, off := 0x1008, rw := 0xFFFFFFFF }
  | .cluRqdone => { blk := .clu, off := 0x1400, wo := 0xFFFF }
  | .cluRqderr => { blk := .clu, off := 0x1404, w1c := 0xC0000000 }
  | .cluFstop => { blk := .clu, off := 0x1408, wo := 0x8000003F }
  | .memCfg => { blk := .mem, off := 0x0, rwl := 0x3313 }
  | .memStat => { blk := .mem, off := 0x4 }
  | .memErrstat => { blk := .mem, off := 0x10, w1c := 0xE0000000 }
  | .memErraddr => { blk := .mem, off := 0x14 }
  | .memErraddrh => { blk := .mem, off := 0x18 }
  | .memErrfrm => { blk := .mem, off := 0x1C }
  | .memCecnt => { blk := .mem, off := 0x20, rw := 0xFFFFFFFF }
  | .memUecnt => { blk := .mem, off := 0x24, rw := 0xFFFFFFFF }
  | .memFlipctl => { blk := .mem, off := 0x30, rw := 0x8001000F, w1c := 0x40000000 }
  | .memFlipmask => { blk := .mem, off := 0x34, rw := 0xFFFFFFFF }
  | .memFlipline => { blk := .mem, off := 0x38, rw := 0xFFFFFFFF }
  | .memFliplineh => { blk := .mem, off := 0x3C, rw := 0xF }
  | .homeDirocc => { blk := .home, off := 0x0 }
  | .homeRetry => { blk := .home, off := 0x4, rw := 0xFFFF0000 }
  | .homeBackinv => { blk := .home, off := 0x8, rw := 0xFFFFFFFF }
  | .homeEif => { blk := .home, off := 0xC, rw := 0xFFFFFFFF }
  | .homeMemstat => { blk := .home, off := 0x100 }
  | .homeFillreq => { blk := .home, off := 0x104, wo := 0x800FFFFF }
  | .homeFillstat => { blk := .home, off := 0x108 }
  | .homeFilled => { blk := .home, off := 0x10C }
  | .homeMapaddr => { blk := .home, off := 0x110, rw := 0x7FFF }
  | .homeMapdata => { blk := .home, off := 0x114 }
  | .homeFillmax => { blk := .home, off := 0x118, rw := 0xFFFFFFFF }
  | .homeHoectl => { blk := .home, off := 0x120, reset := 0x1, rw := 0xFFFF0001 }
  | .homeHoepos => { blk := .home, off := 0x124 }
  | .homeHoelap => { blk := .home, off := 0x128 }
  | .homeHoeskip => { blk := .home, off := 0x12C }
  | .homeExcl => { blk := .home, off := 0x140, stride := 0x4, n48 := 4, n16 := 4, rwl := 0xFFFFFFFF }
  | .homeBir => { blk := .home, off := 0x160, stride := 0x4, n48 := 8, n16 := 8, rwl := 0xBF3700FF }
  | .kstStat => { blk := .kst, off := 0x0 }
  | .kstRetired => { blk := .kst, off := 0x4 }
  | .kstErr => { blk := .kst, off := 0x10, w1c := 0xC0000000 }
  | .kstCecnt => { blk := .kst, off := 0x14, rw := 0xFFFFFFFF }
  | .kstReseed => { blk := .kst, off := 0x20, reset := 0x400, rwl := 0xFFFF }
  | .kstTrng => { blk := .kst, off := 0x24, rw := 0xFFFF }
  | .kstPbase => { blk := .kst, off := 0x1000, stride := 0x8, n48 := 64, n16 := 32, rwl := 0x3FFFF }
  | .kstPcnt => { blk := .kst, off := 0x1004, stride := 0x8, n48 := 64, n16 := 32, rwl := 0x7FFFF }
  | .cpxCtl => { blk := .cpx, off := 0x0, rw := 0x1 }
  | .cpxStat => { blk := .cpx, off := 0x4 }
  | .cpxJobs => { blk := .cpx, off := 0x8, rw := 0xFFFFFFFF }
  | .cpxExt => { blk := .cpx, off := 0xC, rw := 0xFFFFFFFF }
  | .cpxErr => { blk := .cpx, off := 0x10, w1c := 0xC0000000 }
  | .monSnap => { blk := .mon, off := 0x0, rw := 0x3F, wo := 0x80000000 }
  | .monThf0 => { blk := .mon, off := 0x8, w1c := 0xFFFFFFFF }
  | .monThf1 => { blk := .mon, off := 0xC, w1c := 0xFFFF }
  | .monClr0 => { blk := .mon, off := 0x10, wo := 0xFFFFFFFF }
  | .monClr1 => { blk := .mon, off := 0x14, wo := 0xFFFF }
  | .monCfg => { blk := .mon, off := 0x100, stride := 0x8, n48 := 48, n16 := 48, rw := 0x8F3F1F00 }
  | .monThr => { blk := .mon, off := 0x104, stride := 0x8, n48 := 48, n16 := 48, rw := 0xFFFFFFFF }
  | .monSmin => { blk := .mon, off := 0x400 }
  | .monSmax => { blk := .mon, off := 0x404 }
  | .monSxing => { blk := .mon, off := 0x408 }
  | .monSclrlo => { blk := .mon, off := 0x40C }
  | .monSclrhi => { blk := .mon, off := 0x410 }
  | .monSbinlo => { blk := .mon, off := 0x440, stride := 0x8, n48 := 16, n16 := 16 }
  | .monSbinhi => { blk := .mon, off := 0x444, stride := 0x8, n48 := 16, n16 := 16 }

/-- The registers of a block. -/
def Blk.regs : Blk → List RegName
  | .glb => [.glbId, .glbLockerr, .glbVote]
  | .hci => [.hciStatus, .hciErr, .hciCqstall, .hciArenawait, .qpSqbase, .qpSqbaseh, .qpCqbase, .qpCqbaseh, .qpSize,
    .qpCtl, .qpStat, .qpSqtail, .qpCqhead]
  | .frm => [.frmStatus, .frmPeriod, .frmCellState, .frmCellRows, .frmCellEvt, .frmRotAddr, .frmRotData, .frmSlack,
    .frmSlackClr, .frmPairCfg, .frmPairStat, .frmPairDeg, .frmPairMiscnt, .frmCal, .frmLate]
  | .tmu => [.tmuStart, .tmuRun, .tmuShstat, .tmuIrq, .tmuPin, .tmuCtl, .tmuStat, .tmuCntlo, .tmuCnthi, .tmuToplo,
    .tmuTophi, .tmuPhaselo, .tmuPhasehi, .tmuCmplo, .tmuCmphi, .tmuCmpalo, .tmuCmpahi, .tmuCaprlo, .tmuCaprhi,
    .tmuCapflo, .tmuCapfhi]
  | .alm => [.almStat, .almRaw, .almLatch, .almPolicy, .almCtl, .almRec, .almRecfrm, .almOvfcnt, .almDbgnonce,
    .almLockcnt]
  | .sbk => [.sbkCtl, .sbkGrp, .sbkCount, .sbkRdata, .sbkWdata]
  | .shd => [.shdStat, .shdIn, .shdIndb, .shdMstat, .shdOut, .shdOutack, .shdTemp, .shdVmon, .shdClkmon, .shdLogseq,
    .shdLogstat, .shdWdto]
  | .pwr => [.pwrStat, .pwrReset, .clkLock, .clkLoss, .clkDdr, .clkCgate]
  | .cell => [.cellL2cfg, .cellMseq, .cellCoherr, .cellCohaddr, .cellCohaddrh, .cellElogstat, .cellElogseq,
    .cellElogrd, .cellDownwhy, .cellElog]
  | .clu => [.cluCoreStat, .cluCoreLkpc, .cluCoreLkpch, .cluCoreLkfrm, .cluCsctl, .cluCsaddr, .cluCsdata, .cluCsmeas,
    .cluCserr, .cluCsce, .cluCsfix, .cluCspp, .cluRkstat, .cluRklines, .cluRkprio, .cluRkerr, .cluRkregn, .cluL2stat,
    .cluL2err, .cluL2ce, .cluRqdone, .cluRqderr, .cluFstop]
  | .mem => [.memCfg, .memStat, .memErrstat, .memErraddr, .memErraddrh, .memErrfrm, .memCecnt, .memUecnt,
    .memFlipctl, .memFlipmask, .memFlipline, .memFliplineh]
  | .home => [.homeDirocc, .homeRetry, .homeBackinv, .homeEif, .homeMemstat, .homeFillreq, .homeFillstat,
    .homeFilled, .homeMapaddr, .homeMapdata, .homeFillmax, .homeHoectl, .homeHoepos, .homeHoelap, .homeHoeskip,
    .homeExcl, .homeBir]
  | .kst => [.kstStat, .kstRetired, .kstErr, .kstCecnt, .kstReseed, .kstTrng, .kstPbase, .kstPcnt]
  | .cpx => [.cpxCtl, .cpxStat, .cpxJobs, .cpxExt, .cpxErr]
  | .mon => [.monSnap, .monThf0, .monThf1, .monClr0, .monClr1, .monCfg, .monThr, .monSmin, .monSmax, .monSxing,
    .monSclrlo, .monSclrhi, .monSbinlo, .monSbinhi]

/-- BAR0 byte offset of the first unit of a block. -/
def Blk.base : Blk → Nat
  | .glb => 0 | .hci => 0x10000 | .frm => 0x20000 | .tmu => 0x30000 | .alm => 0x40000 | .sbk => 0x50000
  | .shd => 0x60000 | .pwr => 0x70000 | .cell => 0x100000 | .clu => 0x200000 | .mem => 0x300000
  | .home => 0x400000 | .kst => 0x500000 | .cpx => 0x600000 | .mon => 0x700000

/-- Bytes from one unit of a block to the next. -/
def Blk.size : Blk → Nat
  | .cpx => 0x1000
  | _ => 0x10000

/-- Units of a block in a build. -/
def Blk.units (b : Build) : Blk → Nat
  | .cell => b.cells
  | .clu => b.clusters
  | .mem => b.channels
  | .home => b.homes
  | .cpx => b.clusters
  | _ => 1

/-- Every block. -/
def Blk.all : List Blk :=
  [.glb, .hci, .frm, .tmu, .alm, .sbk, .shd, .pwr, .cell, .clu, .mem, .home, .kst, .cpx, .mon]

/-- A register of the part: its name, its unit (a mailbox number for the mailbox registers) and its index. -/
structure RegAt where
  name : RegName
  unit : Nat
  idx : Nat
  deriving DecidableEq, Repr

/-- R284: the memory registers of a cell lie in the first of its four home slices alone. -/
def RegName.leadOnly : RegName → Bool
  | .homeMemstat | .homeFillreq | .homeFillstat | .homeFilled | .homeMapaddr | .homeMapdata | .homeFillmax
  | .homeHoectl | .homeHoepos | .homeHoelap | .homeHoeskip | .homeExcl | .homeBir => true
  | _ => false

/-- R395: the registers of a mailbox. -/
def RegName.mailbox : RegName → Bool
  | .shdIn | .shdIndb | .shdMstat | .shdOut | .shdOutack => true
  | _ => false

/-- The first offset of a register within its unit; the mailboxes are 0x100 apart from 0x100. -/
def RegName.start (n : RegName) (unit : Nat) : Nat :=
  n.row.off + if n.mailbox then unit * 0x100 else 0

/-- The BAR0 byte offset of a register. -/
def RegAt.key (r : RegAt) : Nat :=
  r.name.row.blk.base + (if r.name.mailbox then 0 else r.unit * r.name.row.blk.size) + r.name.start r.unit
    + r.idx * r.name.row.stride

/-- How often a register occurs in one unit. -/
def RegName.count (b : Build) (n : RegName) : Nat :=
  match b with
  | .t48 => n.row.n48
  | .t16 => n.row.n16

/-- Whether the register `n` of a unit lies at the offset `o` within the unit; its index. -/
def RegName.indexAt (b : Build) (n : RegName) (unit o : Nat) : Option Nat :=
  let d := o - n.start unit
  if o < n.start unit then none
  else if n.row.stride == 0 then (if d == 0 then some 0 else none)
  else if d % n.row.stride == 0 && d / n.row.stride < n.count b then some (d / n.row.stride)
  else none

/-- The first register of a list that lies at an offset within a unit. -/
def findReg (b : Build) (unit o : Nat) : List RegName → Option RegAt
  | [] => none
  | n :: t =>
    if n.leadOnly && unit % 4 != 0 then findReg b unit o t
    else match n.indexAt b unit o with
      | some i => some ⟨n, unit, i⟩
      | none => findReg b unit o t

/-- R395: the mailbox registers at an offset of the SHD block, and failing those its other registers. -/
def findShd (b : Build) (o : Nat) : Option RegAt :=
  if 0x100 ≤ o && o < 0x100 + (b.cells + 1) * 0x100 then
    findReg b (o / 0x100 - 1) o (Blk.shd.regs.filter RegName.mailbox)
  else findReg b 0 o (Blk.shd.regs.filter fun n => !n.mailbox)

/-- The block and unit of an offset among the blocks listed. -/
def findBlk (b : Build) (off : Nat) : List Blk → Option (Blk × Nat)
  | [] => none
  | k :: t =>
    if k.base ≤ off && off < k.base + k.units b * k.size then some (k, (off - k.base) / k.size)
    else findBlk b off t

/-- The register at a BAR0 byte offset; none where R10 defines none. -/
def locate (b : Build) (off : Nat) : Option RegAt :=
  match findBlk b off Blk.all with
  | none => none
  | some (.shd, _) => findShd b (off - Blk.shd.base)
  | some (k, u) => findReg b u (off - k.base - u * k.size) k.regs

/-- The reset value of the register word at a byte offset (R5), 0 where there is none. -/
def barReset (off : Nat) : BitVec 32 :=
  match locate .t48 off with
  | some r => r.name.row.reset
  | none => 0

end Sys2Proof.Machine
end

