-- ==== Sys2Proof/Machine/Tab.lean ====
section
/-!
DEFINITION. Sparse tables: a list of key and value pairs with rising keys in which no entry equals the default of its key.
Every array-like piece of state is one of these, so that equal contents are equal data.
-/
namespace Sys2Proof

/-- A sparse table; what an unlisted key holds is a default given with every access. -/
abbrev Tab (α : Type) := List (Nat × α)

/-- The entry of key `k`, or its default. -/
def Tab.get {α : Type} (d : Nat → α) : Tab α → Nat → α
  | [], k => d k
  | (j, v) :: t, k => if j < k then Tab.get d t k else if j = k then v else d k

/-- The entries above key `k`. -/
def Tab.above {α : Type} (k : Nat) : Tab α → Tab α
  | [] => []
  | (j, v) :: t => if j ≤ k then Tab.above k t else (j, v) :: t

/-- The table with `v` at key `k`; storing the default removes the entry. -/
def Tab.set {α : Type} [DecidableEq α] (d : Nat → α) : Tab α → Nat → α → Tab α
  | [], k, v => if v = d k then [] else [(k, v)]
  | (j, w) :: t, k, v =>
    if j < k then (j, w) :: Tab.set d t k v
    else if v = d k then Tab.above k ((j, w) :: t)
    else (k, v) :: Tab.above k ((j, w) :: t)

/-- The table without the entries whose key satisfies `p`: those keys go back to their defaults. -/
def Tab.drop {α : Type} (p : Nat → Bool) (t : Tab α) : Tab α := t.filter (fun e => !p e.1)

/-- The canonical form: keys strictly rising, no entry equal to the default of its key. -/
def Tab.wf {α : Type} [DecidableEq α] (d : Nat → α) : Tab α → Bool
  | [] => true
  | [(j, v)] => decide (v ≠ d j)
  | (j, v) :: (k, w) :: t => decide (v ≠ d j) && decide (j < k) && Tab.wf d ((k, w) :: t)

/-- Change the entry of key `k` by `f`. -/
def Tab.mod {α : Type} [DecidableEq α] (d : Nat → α) (t : Tab α) (k : Nat) (f : α → α) : Tab α :=
  Tab.set d t k (f (Tab.get d t k))

end Sys2Proof
end

