-- ==== Sys2Proof/Machine/Words.lean ====
section
/-!
DEFINITION. The fields of a word (R46 to R62 of spec/02_tagged_word.md): the tag byte, the type codes, which tags are
malformed, when two words are identical, and object headers.
-/
namespace Sys2Proof

/-- R46: TYPE, tag bits 7 to 3. -/
def Word.ty (w : Word) : Nat := w.tag.toNat / 8

/-- R46, R47: the public S bit of the tag, which labels the payload secret. -/
def Word.sec (w : Word) : Bool := w.tag.getLsbD 2

/-- R46: SUB, tag bits 1 and 0. -/
def Word.sub (w : Word) : Nat := w.tag.toNat % 4

/-- A tag byte from TYPE, S and SUB. -/
def mkTag (ty : Nat) (s : Bool) (sub : Nat) : BitVec 8 := BitVec.ofNat 8 (ty * 8 + (if s then 4 else 0) + sub % 4)

/-- A word from TYPE, S, SUB and payload. -/
def mkWord (ty : Nat) (s : Bool) (sub : Nat) (p : B64) : Word := ⟨mkTag ty s sub, p⟩

/-- R48: a `FIX` with label `s`. -/
def Word.fix (p : B64) (s : Bool := false) : Word := mkWord 1 s 0 p
/-- R48: a `RAW` with label `s`. -/
def Word.raw (p : B64) (s : Bool := false) : Word := mkWord 5 s 0 p
/-- A public `FIX` of a natural number. -/
def Word.nat (n : Nat) : Word := Word.fix (BitVec.ofNat 64 n)
/-- R56: `SPECIAL` nil. -/
def Word.nil : Word := mkWord 3 false 0 0
/-- R58: `POISON` of source `sub` carrying the physical word address. -/
def Word.poison (sub : Nat) (pa : Nat) : Word := mkWord 14 false sub (BitVec.ofNat 64 pa)
/-- R48: a `LINK` to a PC value at level `lvl`. -/
def Word.link (lvl : Nat) (pc : BitVec 55) : Word := mkWord 10 false lvl (pc.setWidth 64)

/-- R48 type codes. -/
def tyFIX : Nat := 0x01
def tyCHAR : Nat := 0x02
def tySPECIAL : Nat := 0x03
def tyFLO : Nat := 0x04
def tyRAW : Nat := 0x05
def tyHANDLE : Nat := 0x06
def tyINSTR : Nat := 0x07
def tyHDR : Nat := 0x08
def tyFWD : Nat := 0x09
def tyLINK : Nat := 0x0A
def tyPTE : Nat := 0x0B
def tyGATE : Nat := 0x0C
def tyPOISON : Nat := 0x0E
def tyCONS : Nat := 0x10
def tyVEC : Nat := 0x11
def tyBYTES : Nat := 0x12
def tyBIG : Nat := 0x13
def tyCLO : Nat := 0x14
def tyCODE : Nat := 0x15
def tyREC : Nat := 0x16
def tyRAWV : Nat := 0x17
def tyWEAK : Nat := 0x18

def Word.isFix (w : Word) : Bool := w.ty == tyFIX
def Word.isRaw (w : Word) : Bool := w.ty == tyRAW
def Word.isFlo (w : Word) : Bool := w.ty == tyFLO
def Word.isBig (w : Word) : Bool := w.ty == tyBIG
def Word.isEmpty (w : Word) : Bool := w.ty == 0
def Word.isHdr (w : Word) : Bool := w.ty == tyHDR
def Word.isFwd (w : Word) : Bool := w.ty == tyFWD
def Word.isLink (w : Word) : Bool := w.ty == tyLINK
def Word.isPoison (w : Word) : Bool := w.ty == tyPOISON
def Word.isCons (w : Word) : Bool := w.ty == tyCONS
/-- R48: pointer types, 0x10 to 0x18. -/
def Word.isPtr (w : Word) : Bool := 0x10 ≤ w.ty && w.ty ≤ 0x18
/-- R82: the headered pointer types, every pointer type but `CONS`. -/
def Word.isHeadered (w : Word) : Bool := 0x11 ≤ w.ty && w.ty ≤ 0x18
/-- R75: a word operand is a `FIX` or a `RAW`. -/
def Word.isWordOp (w : Word) : Bool := w.isFix || w.isRaw

/-- R48: whether the table lets a type carry S = 1. -/
def secAllowed (ty : Nat) : Bool := ty == tyFIX || ty == tyCHAR || ty == tyRAW

/-- R48, R56: whether SUB is one of the values the table lists for the type. -/
def subAllowed (ty sub : Nat) : Bool :=
  if ty == tyLINK || ty == tyPOISON || (0x10 ≤ ty && ty ≤ 0x18) then true
  else if ty == tySPECIAL then sub ≤ 1
  else sub == 0

/-- R49: a malformed tag. -/
def Word.malformed (w : Word) : Bool :=
  w.ty == tyINSTR || w.ty == 0x0D || w.ty == 0x0F || 0x19 ≤ w.ty ||
  (w.sec && !secAllowed w.ty) || !subAllowed w.ty w.sub

/-- R54: two words are identical when TYPE, payload and, but for pointers, SUB are equal; S does not enter. -/
def Word.identical (a b : Word) : Bool :=
  a.ty == b.ty && a.pay == b.pay && (a.isPtr || a.sub == b.sub)

/-- R53: bits 63 to 54 are 0 and bit 0 is 0. -/
def ptrPayOk (p : B64) : Bool := p.toNat < 2 ^ 54 && p.toNat % 2 == 0

/-- R48: a `CHAR` payload is a Unicode scalar value. -/
def charOk (p : B64) : Bool := p.toNat ≤ 0x10FFFF && !(0xD800 ≤ p.toNat && p.toNat ≤ 0xDFFF)

/-- R49: a payload that the table of R48, R53, R56, R58, R59 and R285 gives the type. -/
def Word.payOk (w : Word) : Bool :=
  let p := w.pay.toNat
  if w.isPtr then ptrPayOk w.pay
  else match w.ty with
    | 0x00 => p == 0
    | 0x02 => charOk w.pay
    | 0x03 => 0 < w.sub || p < 7
    | 0x06 => p / 2 ^ 48 == 0
    | 0x08 => p % 4 == 0
    | 0x09 => p < 2 ^ 54
    | 0x0A => p < 2 ^ 55
    | 0x0E => p < 2 ^ 39
    | _ => true

/-- The payload with another label. -/
def Word.withSec (w : Word) (s : Bool) : Word := ⟨mkTag w.ty s w.sub, w.pay⟩

/-- A payload read as a signed integer. -/
def Word.int (w : Word) : Int := w.pay.toInt

/-- R59: LENGTH of a header payload. -/
def hdrLen (p : B64) : Nat := p.toNat / 2 ^ 32
/-- R59: IDHASH. -/
def hdrHash (p : B64) : Nat := p.toNat / 2 ^ 12 % 2 ^ 20
/-- R59: KIND. -/
def hdrKind (p : B64) : Nat := p.toNat / 2 ^ 6 % 2 ^ 6
/-- R59: SEALED. -/
def hdrSealed (p : B64) : Bool := p.getLsbD 5
/-- R59: GEN. -/
def hdrGen (p : B64) : Nat := p.toNat / 8 % 4
/-- R59: MARK. -/
def hdrMark (p : B64) : Bool := p.getLsbD 2

/-- R59: a header payload. -/
def mkHdr (len hash kind : Nat) (sealed : Bool) (gen : Nat) (mark : Bool) : B64 :=
  BitVec.ofNat 64 (len * 2 ^ 32 + hash % 2 ^ 20 * 2 ^ 12 + kind % 2 ^ 6 * 2 ^ 6 + (if sealed then 32 else 0)
    + gen % 4 * 8 + (if mark then 4 else 0))

/-- R60: the pointer type that reaches a kind, or none where the kind is reserved. -/
def kindPtr (k : Nat) : Option Nat :=
  if k == 0x01 then some tyVEC
  else if k == 0x02 then some tyREC
  else if k == 0x03 then some tyCLO
  else if k == 0x04 then some tyCODE
  else if k == 0x05 then some tyBIG
  else if k == 0x06 then some tyRAWV
  else if k == 0x07 then some tyWEAK
  else if 0x10 ≤ k && k ≤ 0x17 then some tyBYTES
  else if 0x20 ≤ k && k ≤ 0x3F then some tyREC
  else none

/-- R60: the raw-body kinds. -/
def rawKind (k : Nat) : Bool := k == 0x05 || k == 0x06 || (0x10 ≤ k && k ≤ 0x17)
/-- R60: the record kinds. -/
def recKind (k : Nat) : Bool := k == 0x02 || (0x20 ≤ k && k ≤ 0x3F)
/-- R60: kinds that may be sealed. -/
def sealableKind (k : Nat) : Bool := k == 0x01 || recKind k || k == 0x06 || (0x10 ≤ k && k ≤ 0x17)
/-- R60: the least body length of a kind; a byte string of LENGTH 0 has KIND 0x10. -/
def kindMinLen (k : Nat) : Nat :=
  if k == 0x04 || k == 0x05 then 2
  else if k == 0x03 || k == 0x07 || recKind k || (0x11 ≤ k && k ≤ 0x17) then 1 else 0

/-- R61: the words a headered object of body length `len` takes, padding included. -/
def objSize (len : Nat) : Nat := (1 + len + 1) / 2 * 2

/-- R62: IDHASH of the allocation that takes the count `n`. -/
def idHash (n : Nat) : Nat := n * 0x9E3779B9 % 2 ^ 32 / 2 ^ 12

end Sys2Proof
end

