-- ==== Sys2Proof/Machine/State.lean ====
section
/-!
DEFINITION. The state of the block: every register, array, queue, counter, mode and pin that spec/ gives the part, and the
queue of commands that wait. A field's default value is its value at reset (R5: after a cold boot).
-/
namespace Sys2Proof.Machine

/-- What stops the block for good. -/
inductive Fault where
  /-- Raised by no command: the spec gives every command an effect, if only that nothing changes. Safe. -/
  | absentUnit
  deriving DecidableEq, Repr

/-- Why a command has no meaning here. -/
inductive Refusal where
  /-- A command whose meaning is not written. Raised only by the dispatcher. Safe. -/
  | notModelled (mnemonic : String)
  deriving DecidableEq, Repr

/-! ### Cores -/

/-- R193: the hidden state of one register window. -/
structure Win where
  /-- R193: the level that owns the frame. -/
  owner : Nat := 0
  /-- R193: the register file holds a live frame of a caller in this window. -/
  res : Bool := false
  /-- R199 step 3: the frame was placed in the hold area. -/
  held : Bool := false
  deriving DecidableEq, Repr

/-- R246: one store buffer entry: the physical word address and the word. -/
structure SbEnt where
  pa : Nat
  w : Word
  /-- R93: it is performed together with the next entry. -/
  tied : Bool := false
  deriving DecidableEq, Repr

/-- R249: a home atomic that a core has posted: the compare-and-store of R154 or the atomic OR of R159. -/
inductive Atomic where
  | cas (pa : Nat) (old new : Word)
  | aor (pa : Nat) (bits : B64)
  deriving DecidableEq, Repr

/-- R221: a cached leaf. -/
structure TlbEnt where
  asid : Nat
  /-- Virtual page number, of 512 words or, for a large leaf, of 256 Ki words. -/
  vpn : Nat
  large : Bool
  ppn : Nat
  r : Bool
  w : Bool
  x : Bool
  u : Bool
  sl : Bool
  dev : Bool
  d : Bool
  /-- The place in its cache: the way, or for the L2 TLB the set times 8 plus the way. -/
  way : Nat := 0
  deriving DecidableEq, Repr

/-- R221: a cached table pointer: the table that serves the address bits `vtop` at the level named. -/
structure WalkEnt where
  asid : Nat
  /-- The level of the table pointed to. -/
  level : Nat
  /-- The virtual address bits above those that the table indexes. -/
  vtop : Nat
  /-- The physical word address of the table. -/
  table : Nat
  /-- The place in the cache. -/
  way : Nat := 0
  deriving DecidableEq, Repr

/-- R213: a walk under way. -/
structure WalkSt where
  va : B64
  acc : Access
  asid : Nat
  level : Nat
  /-- The table being read at `level`. -/
  table : Nat
  /-- R215: the walk began at a cached table pointer. -/
  cached : Bool := false
  deriving DecidableEq, Repr

/-- R235: one prefetch stream, newest first in its list. -/
structure Stream where
  /-- The latest demand line. -/
  last : Nat
  /-- The line distance, 0 while unknown. -/
  stride : Int
  /-- Misses that followed at the stride. -/
  hits : Nat
  /-- The furthest line prefetched. -/
  ahead : Nat
  deriving DecidableEq, Repr

/-- Why a core's strand waits. -/
inductive Wait where
  /-- It runs. -/
  | none
  /-- R39, R333: a blocked `MFS` of RQTAKE into a register. -/
  | rqtake (rd : Reg)
  /-- R156: a load whose forwarding is not ready; the command is executed again by BARRIER_RETRY. -/
  | barrier (i : Instr)
  /-- R40: the first twin of a key operation. -/
  | twinKey (rd : Reg)
  /-- R19: a memory stall, or a full job table or queue; the instruction is executed again. -/
  | memory
  /-- R303: `XWAIT` on a running job. -/
  | job
  /-- R120: a memory stall inside microcode, where no interrupt is taken; the instruction is executed again. -/
  | micro
  deriving DecidableEq, Repr

/-- R300: an inline operation in flight: the CX registers it writes. -/
structure Inline where
  results : List (Nat × Word)
  deriving DecidableEq, Repr

/-- One core: its architectural state (chapter 03 and 07), its translation caches (chapter 08), its store buffer and first
level caches (chapter 09), its collection buffers (chapter 06). -/
structure Core where
  /-- R74: the 256 physical registers. -/
  regs : Tab Word := []
  /-- R73: the PC of the next instruction, laid out as a `LINK` payload. -/
  pc : BitVec 55 := 0
  /-- R101: the special registers by number; CORE_ID, CYCLE, FRAMENO, RQTAKE, RQPEEK, GCCOL, SPILLPTR, SAVEHEAD, IPEND,
  IFIRST, DBGSTAT and 0x300 to 0x317 are kept elsewhere. -/
  spr : Tab Word := []
  /-- R175: SPILLPTR of bank 1 S, 2 T, 3 M. -/
  spill : Tab B64 := []
  /-- R175: SAVEHEAD of bank 1 S, 2 T, 3 M. -/
  save : Tab B64 := []
  /-- R198: SPILLTOP of banks 1 and 2, from the context record. -/
  spillTop : Tab B64 := []
  /-- R193: the twelve windows. -/
  win : Tab Win := []
  /-- R184: trap windows in use: bit 1 S, bit 2 T, bit 3 M. -/
  twUse : BitVec 4 := 0
  /-- R179: trap windows marked for release by `TRET`. -/
  twRel : BitVec 4 := 0
  /-- R184: the trap window that the running handler uses, 0 for none. -/
  twCur : Nat := 0
  /-- R119: the resume address of a stopped resuming sequence. -/
  ucResume : B64 := 0
  /-- R185: locked up; the record is in CLU_COREk_STAT. -/
  locked : Bool := false
  /-- R23: the rotation entry the core runs in this frame. -/
  entry : BitVec 8 := 0xFF
  /-- R26: the partition and strand whose context the core holds. -/
  part : Option Nat := none
  strand : Nat := 0
  /-- R199: the entry, partition and strand of the new row, pending until the switch. -/
  next : Option (BitVec 8 × Option Nat × Nat) := none
  /-- R18: a preemption request of the last tick is pending. -/
  preempt : Bool := false
  /-- R21: this tick's slack violation has been counted. -/
  slackCounted : Bool := false
  /-- R37: the switch of this tick is finished. -/
  switched : Bool := true
  /-- R158: a colour flip of this tick asks the core to save its groups as roots. -/
  flip : Bool := false
  wait : Wait := .none
  /-- R246. -/
  sb : List SbEnt := []
  /-- R249. -/
  atomics : List Atomic := []
  /-- R155: the mark buffer, oldest first. -/
  mark : List B64 := []
  /-- R155: a tick's flush of the mark buffer waits for room in the mark queue. -/
  flushDue : Bool := false
  /-- R159: the last four cards set. -/
  cards : List Nat := []
  /-- R221. -/
  itlb : List TlbEnt := []
  dtlb : List TlbEnt := []
  l2tlb : List TlbEnt := []
  ltlb : List TlbEnt := []
  wcache : List WalkEnt := []
  /-- R221: the replacement trees of the L1 ITLB, the L1 DTLB, the large-page array and the walk cache. -/
  itlbP : Nat := 0
  dtlbP : Nat := 0
  ltlbP : Nat := 0
  wcacheP : Nat := 0
  /-- R213: the walker. -/
  walk : Option WalkSt := none
  /-- R230: the lines the L1D holds, by set * 8 + way; a line number plus one, 0 for an invalid way. -/
  l1d : Tab Nat := []
  /-- R230: the replacement tree of each L1D set. -/
  l1p : Tab Nat := []
  /-- R230: the lines the L1I holds, by set * 4 + way; a line number plus one, 0 for an invalid way. -/
  l1i : Tab Nat := []
  /-- R230: the replacement tree of each L1I set. -/
  l1ip : Tab Nat := []
  /-- R235. -/
  streams : List Stream := []
  /-- R255: lines of the incoming record locked in the L2. -/
  locks : List Nat := []
  /-- R255: locked lines that a snoop took, to be read again. -/
  relock : List Nat := []
  /-- R101: what an `MTS` at level M added to CYCLE. -/
  cycOff : B64 := 0
  /-- R249: whether the latest compare-and-store of the core that was answered wrote. -/
  casWrote : Option Bool := none
  /-- R187: cause 0x31 is pending. -/
  tmrPend : Bool := false
  /-- R178 order 1, R179: the single-step trap of the instruction just completed waits for the spill engine. -/
  stepPend : Bool := false
  /-- R179, R185: the entry sequence of a trap has not ended: no handler instruction has issued. -/
  entering : Bool := false
  /-- R186: software interrupt sources 56 to 63. -/
  swInt : BitVec 8 := 0
  /-- R297: group X of the strand is loaded. -/
  xLoaded : Bool := false
  /-- R300. -/
  inlineOp : Option Inline := none
  deriving DecidableEq, Repr

/-! ### Caches and homes -/

/-- R243: the state of a line in an L2. -/
inductive L2St where
  | I | S | E | M
  deriving DecidableEq, Repr

/-- R230: a line in an L2. -/
structure L2Line where
  st : L2St := .I
  way : Nat := 0
  /-- The eight words by index. -/
  ws : Tab Word := []
  deriving DecidableEq, Repr

/-- R244: the requests that reach a home. -/
inductive ReqKind where
  | rds | rdx | upg | zown | wbd | evc | ncrd | ncwr | ncwrp | cas | aor
  deriving DecidableEq, Repr

/-- R244: a request at the home: its kind, the cluster or agent it came from, its data and word mask. -/
structure HReq where
  kind : ReqKind
  /-- Agents as CELL_COHERR.AGENT numbers them; for `cas` and `aor` the core. -/
  agent : Nat
  mask : BitVec 8 := 0
  data : List Word := []
  old : Word := Word.empty
  /-- R252: the header has arrived and the data has not. -/
  noData : Bool := false
  /-- R251: Retry answers that it has had. -/
  retries : Nat := 0
  deriving DecidableEq, Repr

/-- R242, R245: a directory entry. -/
structure DirEnt where
  /-- R243: 0 U, 1 S, 2 X. -/
  st : Nat := 0
  /-- One bit per cluster of the cell. -/
  shr : BitVec 4 := 0
  /-- R245: the transient code. -/
  trans : Nat := 0
  /-- The request that holds the line. -/
  req : Option HReq := none
  /-- Clusters whose snoop answer is awaited. -/
  need : BitVec 4 := 0
  /-- R250: clusters whose EIF has come without its WbD or EvC. -/
  eif : BitVec 4 := 0
  /-- R250: clusters whose WbD or EvC has come while a snoop is awaited. -/
  half : BitVec 4 := 0
  /-- The M data a snoop returned. -/
  data : Option (List Word) := none
  /-- R270: the request waits for a region fill. -/
  fillWait : Bool := false
  /-- R245: later requests for the line, oldest first. -/
  queue : List HReq := []
  /-- R269: the errors that the first read of the line met beside those stored, kept for the second. -/
  reread : Option (List (Nat × BitVec 8)) := none
  /-- R251: the line whose request waits for this victim's way. -/
  forLine : Option Nat := none
  /-- R242: the way of its directory set. -/
  way : Nat := 0
  /-- R252: clusters whose WbD header has come, in a transaction, without its data. -/
  hdr : BitVec 4 := 0
  deriving DecidableEq, Repr

/-- R244: an answer of a home to a non-caching agent or to the core of a home atomic. -/
structure NcMsg where
  /-- A Retry, else a Grant. -/
  retry : Bool
  /-- The request answered; `agent` names the agent or the core. -/
  req : HReq
  line : Nat
  /-- The data of an NcRd. -/
  data : List Word := []
  /-- R249: the compare-and-store wrote. -/
  wrote : Bool := false
  deriving DecidableEq, Repr

/-- R251: a request that waits out a backoff. -/
structure NcAsk where
  req : HReq
  line : Nat
  deriving DecidableEq, Repr

/-- R251: the reservation that the 8th Retry makes for a request of a line: the way, once one has left its transient state. -/
structure Reserve where
  line : Nat
  way : Option Nat := none
  deriving DecidableEq, Repr

/-- R244: messages under way between homes and clusters. -/
inductive MsgKind where
  | snps | snpi | snpd | ack | ackd | eif | lost | grantE | grantS | grantM | wback | retry
  deriving DecidableEq, Repr

/-- A message: its kind, its cluster (destination or source) and line, and its data if any. -/
structure Msg where
  kind : MsgKind
  clu : Nat
  line : Nat
  data : Option (List Word) := none
  deriving DecidableEq, Repr

/-- R251: an L2 request outstanding at its home. -/
structure Mshr where
  kind : ReqKind
  retries : Nat := 0
  /-- Waiting out a backoff. -/
  backoff : Bool := false
  deriving DecidableEq, Repr

/-- R250: an eviction buffer entry. -/
structure EvEnt where
  line : Nat
  dirty : Bool
  data : List Word
  deriving DecidableEq, Repr

/-! ### Clusters -/

/-- R161, R226: the address space of words that a Rake engine scans. -/
inductive Space where
  /-- The partition space. -/
  | part
  /-- Physical word addresses. -/
  | phys
  /-- The space of another root register value: that of level T. -/
  | root (r : B64)
  deriving DecidableEq, Repr

/-- R161: one unit of work a Rake engine holds. -/
inductive RakeWork where
  /-- Move the object at a virtual address for a priority request of the frame given (R162). -/
  | move (a frame : Nat)
  /-- Find the roots of strand `t` (R161). -/
  | root (t : Nat)
  /-- Follow a save-area list from an address. -/
  | saves (sp : Space) (head : Nat)
  /-- The body of the vector that RKROOTS names. -/
  | vec
  /-- Find the next dirty card (R160). -/
  | cards
  /-- Line `i` of a card; whether it has held a pointer to a young address. -/
  | card (c i : Nat) (young : Bool)
  /-- Mark the object at a virtual address, taken from place `i` of the mark queue (R163, R164). -/
  | mark (a i : Nat)
  /-- Scan `n` words from an address. -/
  | scan (sp : Space) (a n : Nat)
  /-- Rescan a region from a word offset (R164). -/
  | rescan (r off : Nat)
  /-- Sweep a RELOC region from a word offset (R169). -/
  | sweep (r off : Nat)
  /-- The plan of R168. -/
  | plan
  /-- Clear bitmap line `j` of a region, and with the last its fields (R170). -/
  | clear (r j : Nat)
  deriving DecidableEq, Repr

/-- R162: a priority relocation request. -/
structure Prio where
  part : Nat
  side : Nat
  a : Nat
  /-- The frame of the request, for CLU_RKPRIO.MAXFR. -/
  frame : Nat
  deriving DecidableEq, Repr

/-- R302: where a job stands. -/
inductive JobSt where
  | queued | running | computed | finished
  deriving DecidableEq, Repr

/-- R301: a job. -/
structure Job where
  part : Nat
  side : Nat
  strand : Nat
  ticket : Nat
  clu : Nat
  fn : Nat
  st : JobSt
  /-- CX0 to CX7 as they stood at the `XJOB`. -/
  params : List Word
  /-- The material and policy words of the handles checked, first and second. -/
  keys : List (Nat × B64)
  /-- R301 step 3: header virtual address and header payload of each pointer operand, by CX number. -/
  ops : List (Nat × Nat × B64)
  /-- R301 step 6: the physical word address of every body word, by CX number. -/
  pages : List (Nat × List Nat)
  /-- R303: the result word once computed. -/
  result : Word := Word.empty
  /-- R303, R304: REASON of a failure, 0 for none. -/
  fail : Nat := 0
  /-- R303: the virtual address of a `POISON` word met. -/
  poison : Option Nat := none
  /-- R309: the random bytes that the job drew when it was queued. -/
  rnd : List (BitVec 8) := []
  /-- R141: the job is keyed secretly. -/
  keySec : Bool := false
  /-- R307: the attempts that an ML-DSA signature made. -/
  attempts : Nat := 0
  /-- R140, R49: a malformed word met before any `POISON` word. -/
  badWord : Option Word := none
  /-- R40: the input bytes of a key unwrap. -/
  blob : List (BitVec 8) := []
  /-- Words to be written at completion, by physical word address. -/
  out : List (Nat × Word) := []
  /-- R296, R40: a key to be created at completion: policy and material. -/
  newKey : Option (B64 × Nat) := none
  /-- R306, R314: the units that the job occupies while it runs, numbered as CPX_STAT.BUSY. -/
  units : List Nat := []
  /-- R311: the bank-isolated region held. -/
  bir : Option Nat := none
  deriving DecidableEq, Repr

/-- A cluster's own arrays and engines. -/
structure Clu where
  /-- R117: the control store, 8,192 words of 96 bits. -/
  cs : Tab (BitVec 96) := []
  /-- R124: addresses latched as bad. -/
  csBad : List Nat := []
  /-- R122: the measurement matched the bundle's; cores may leave reset. -/
  csOk : Bool := false
  /-- R230: the replacement tree of each L2 set. -/
  l2p : Tab Nat := []
  /-- R250. -/
  evb : List EvEnt := []
  /-- R162. -/
  prio : List Prio := []
  /-- R161: work held by the engine, the next first: partition, side, order number, unit. -/
  work : List (Nat × Nat × Nat × RakeWork) := []
  /-- Lines of the first unit already processed. -/
  prog : Nat := 0
  /-- R161: lines processed in this frame. -/
  lines : Nat := 0
  /-- R161: the partition served last. -/
  lastPart : Nat := 0
  /-- R226: PROOT of the sides of partitions served in this frame, by partition * 2 + side. -/
  rroot : List (Nat × B64) := []
  /-- R226: the engine's own TLB. -/
  rtlb : List TlbEnt := []
  /-- R302: jobs waiting and running, by job number, oldest first. -/
  jobq : List Nat := []
  jobrun : List Nat := []
  deriving DecidableEq, Repr

/-! ### Cells -/

/-- R223: one request of a shootdown list. -/
inductive Shoot where
  | page (asid vpn : Nat)
  | asid (a : Nat)
  | all
  deriving DecidableEq, Repr

/-- A cell. -/
structure Cell where
  /-- R34: 0 STOPPED, 1 STARTING, 2 RUNNING, 3 STOPPING, 4 DOWN. -/
  st : Nat := 0
  /-- R25. -/
  row : Nat := 0
  /-- R37: the last tick is acknowledged. -/
  acked : Bool := true
  /-- R36: CELL_START accepted, RUNNING at the next tick with no operation left. -/
  startPend : Bool := false
  /-- R35: CELL_STOP accepted, the cores stop at the next tick. -/
  stopPend : Bool := false
  /-- R428: restarted and not started since. -/
  restarted : Bool := false
  /-- R428: a restart is under way. -/
  restarting : Bool := false
  /-- R258: the operation running, those waiting, the last one done. -/
  mcur : Option Nat := none
  mpend : BitVec 16 := 0
  mlast : Nat := 0
  /-- R258: the work of the running operation is done. -/
  mdone : Bool := false
  /-- R239: CELL_L2CFG as it stood at the last start. -/
  l2cfg : BitVec 32 := 0
  /-- R239: the clusters, by index, whose scratch maintenance operation 1 clears. -/
  scrClear : BitVec 4 := 0
  /-- R256: caches bypassed since the last start. -/
  l2off : Bool := false
  /-- R263: MEM_CFG was written since the last start. -/
  cfgDirty : Bool := false
  /-- R280, R281: bank exclusion or a descriptor was written since the last start. -/
  exclDirty : Bool := false
  /-- R280, R281: exclusion words and descriptors in force. -/
  exclOn : Tab (BitVec 32) := []
  birOn : Tab (BitVec 32) := []
  /-- R266: the cell's key, 512 bits, and whether it has one. -/
  key : BitVec 512 := 0
  hasKey : Bool := false
  keyGen : Nat := 0
  /-- R271: the fill engine. -/
  fillq : List Nat := []
  /-- R271: regions whose writes wait for room in the queue, oldest first. -/
  fillLate : List Nat := []
  /-- R271: the region being filled, if any. -/
  filling : Option Nat := none
  /-- R284: by region, the fc at which the first write that waits for its fill arrived, plus one; 0 for none. -/
  fillAt : Tab Nat := []
  /-- R274: the region the Hoe stands at, its line within the region, the frame its lap began. -/
  hoePos : Nat := 0
  hoeLine : Nat := 0
  hoeStart : Nat := 0
  hoeSkip : Nat := 0
  hoeLaps : Nat := 0
  /-- R223: the list for the next tick, and the list that cores still have to apply. -/
  shoot : List Shoot := []
  shootNow : List Shoot := []
  /-- R426: the SEQ of the record in each slot of the error log, 0 for none. -/
  elogSeq : Tab Nat := []
  /-- R372: the warden has sent HELLO; its staging buffer. -/
  hello : Bool := false
  stagePa : Nat := 0
  stageLen : Nat := 0
  /-- R372: a request that waits for the HELLO, and the words to be placed in the staging buffer with it. -/
  held : Option (List (BitVec 32) × List Word) := none
  /-- R373: the frame in which the request that the warden has to answer reached OUTVALID. -/
  askFrm : Option Nat := none
  /-- R443: the boot CELL_START's HELLO is awaited. -/
  helloWait : Bool := false
  /-- R443: the cell's boot condition is resolved. -/
  resolved : Bool := false
  /-- R264: channels inside their calibration slot. -/
  cal : BitVec 4 := 0
  /-- R29: channels whose slot is deferred to a row with CAL_OK. -/
  calDue : BitVec 4 := 0
  /-- R277: a self-test is requested after boot. -/
  selftest : Bool := false
  deriving DecidableEq, Repr

/-! ### Partitions -/

/-- R309: one CTR_DRBG instance. -/
structure Drbg where
  live : Bool := false
  key : BitVec 256 := 0
  v : BitVec 128 := 0
  /-- Generate requests since the last reseed. -/
  count : Nat := 0
  deriving DecidableEq, Repr

/-- R173: the collection state of a partition in one home cell. -/
structure Rk where
  /-- Specials 0x300 to 0x317 by number. -/
  reg : Tab B64 := []
  /-- R149: GCCOL. -/
  col : Nat := 0
  phase : Nat := 0
  young : Bool := false
  clean : Bool := true
  plan : Bool := false
  defer : Bool := false
  err : Nat := 0
  /-- R150: the pending request. -/
  req : Nat := 0
  /-- R150: a relocation plan has succeeded and its flip waits. -/
  flipPend : Bool := false
  /-- R149: the phase of the next tick, once a completion has been declared. -/
  nextPhase : Option Nat := none
  /-- R158, R161: root strands still to be scanned. -/
  roots : List Nat := []
  /-- R160, R161: by engine, the first card that it has not yet processed in this young mark. -/
  cardPos : Tab Nat := []
  /-- R164: the mark queue's entries; its storage is at RKMQ. -/
  mq : List Nat := []
  /-- R164: entries that have left the mark queue: the place of its first one. -/
  mqHead : Nat := 0
  /-- R164: regions whose RESCAN bit is set and which no engine is scanning again. -/
  rescan : List Nat := []
  /-- R167: weak boxes recorded. -/
  weak : List Nat := []
  /-- R170: regions still to be swept, and to be cleared. -/
  sweep : List Nat := []
  clear : List Nat := []
  clearing : Bool := false
  /-- Frame of the last mark flip and relocate flip. -/
  markFrm : Nat := 0
  relFrm : Nat := 0
  /-- Words moved since the last relocate flip. -/
  moved : Nat := 0
  deriving DecidableEq, Repr

/-- R40: an `XKEY` operation that waits for the other twin. -/
structure KeyWait where
  side : Nat
  core : Nat
  fn : Nat
  operands : List Word
  rd : Reg
  /-- Once it is applied: the word for rd, if any, and REASON of trap 0x29, 0 for none. -/
  res : Option (Option Word × Nat) := none
  deriving DecidableEq, Repr

/-- R331: a span of a request arena: its first word offset, the words it takes with any skipped tail, the request. -/
structure Span where
  off : Nat
  len : Nat
  req : Nat
  freed : Bool := false
  deriving DecidableEq, Repr

/-- A partition. -/
structure Part where
  /-- R343: 0 ABSENT, 1 CREATED, 2 STOPPED, 3 RUNNING, 4 STOPPING, 5 FAULTED. -/
  st : Nat := 0
  paired : Bool := false
  cell0 : Nat := 0
  cell1 : Nat := 0
  ctx0 : Nat := 0
  ctx1 : Nat := 0
  arenaVa : Nat := 0
  arenaLen : Nat := 0
  /-- R31: K of classes 0 to 15. -/
  ks : Tab Nat := []
  imgKey : BitVec 256 := 0
  minVer : Nat := 0
  imgVer : Nat := 0
  /-- R43: the side whose twin is lost, 0 none, 1 the twin in CELL0, 2 the twin in CELL1. -/
  lost : Nat := 0
  /-- R43: degraded, from the tick after the loss. -/
  degraded : Bool := false
  /-- R44, R347: fault-stopped in this frame: the status its commands complete with at the next tick. -/
  faultPend : Option (BitVec 16) := none
  /-- R346: PART_STOP takes effect at the next tick. -/
  stopPend : Bool := false
  /-- R345: PART_START takes effect at the next tick. -/
  startPend : Bool := false
  /-- R45: PART_REPAIR copies; the cell it copies to. -/
  repair : Option Nat := none
  /-- R45: repaired since it became degraded. -/
  repaired : Bool := false
  /-- R39: frame and core cycle count at which the last PART_START took effect. -/
  startFrm : Nat := 0
  startCyc : Nat := 0
  /-- R39: arrival frame plus one, and stamp, of the request that RQTAKE returned last, by side; 0 for none. -/
  rqFrm : Tab Nat := []
  rqCyc : Tab Nat := []
  /-- R333: the requests delivered and not taken, oldest first, by side. -/
  dlv0 : List Nat := []
  dlv1 : List Nat := []
  /-- R331: the spans in use, oldest first, and the word offset at which the next one starts. -/
  spans : List Span := []
  arenaHead : Nat := 0
  /-- R309: the partition DRBGs of sides 0 and 1, and the host DRBG of a pair. -/
  drbg0 : Drbg := {}
  drbg1 : Drbg := {}
  drbgH : Drbg := {}
  /-- R310: a pair's reseed inputs not yet applied, by side: tick and input. -/
  seeds0 : List (Nat × BitVec 384) := []
  seeds1 : List (Nat × BitVec 384) := []
  keyWait : Option KeyWait := none
  /-- R40: the waiting twin's operation is applied at the next tick. -/
  keyApply : Bool := false
  /-- R37: the home cell was declared down: outstanding commands complete with 0x0301 at the next tick. -/
  downPend : Bool := false
  rk0 : Rk := {}
  rk1 : Rk := {}
  deriving DecidableEq, Repr

/-- R186, R301: what belongs to a strand and is not in its context record: tickets in use, by job number, and a timer
interrupt that was pending when the strand was switched out. -/
structure Strand where
  tickets : Tab Nat := []
  tmrPend : Bool := false
  /-- R179: a single-step trap that waited at the switch. -/
  stepPend : Bool := false
  /-- R91: the block copy last begun at each level runs backward: bit 0 U to bit 3 M. -/
  back : BitVec 4 := 0
  deriving DecidableEq, Repr

/-! ### Key store -/

/-- R287: a slot: material and policy. -/
structure Slot where
  mat : Nat := 0
  pol : B64 := 0
  /-- R293: an uncorrectable group. -/
  bad : Bool := false
  deriving DecidableEq, Repr

/-! ### Host interface -/

/-- R319: the state of a queue pair behind its registers. -/
structure Qp where
  sqHead : Nat := 0
  cqTail : Nat := 0
  /-- Completions posted and not yet freed by the host. -/
  used : Nat := 0
  phase : Bool := true
  err : Bool := false
  errc : Nat := 0
  /-- R331: the fetch of this command, with its input and what its reads gave, waits for arena space. -/
  held : Option (HostCmd × List (BitVec 8) × DmaRes) := none
  deriving DecidableEq, Repr

/-- R334: what a side has replied to a request: status, DETAIL, output, the bytes the output needs, and the frame in which it
was staged. -/
structure Reply where
  status : BitVec 16 := 0
  detail : BitVec 8 := 0
  out : List (BitVec 8) := []
  outNeed : Nat := 0
  d : Nat := 0
  deriving DecidableEq, Repr

/-- An I/O command from its fetch to its release. -/
structure Req where
  vf : Nat
  q : Nat
  op : Nat
  cid : Nat
  part : Nat
  /-- R31: the class, and the K in force when it was fetched. -/
  cls : Nat
  k : Nat := 2
  /-- R22: arrival frame, and the cycle stamp set at its tick. -/
  arr : Nat
  stamp : Nat := 0
  /-- R324: parameters P0 to P7. -/
  ps : List (BitVec 32)
  inp : List (BitVec 8) := []
  outAddr : Nat
  outLen : Nat
  /-- R325: address and length of each data descriptor of an output list. -/
  outSgl : List (Nat × Nat) := []
  entry : Nat := 0
  /-- R331: decoded into its span: word offset of the record in the arena. -/
  recOff : Option Nat := none
  /-- Word offset of the output reserve in the arena. -/
  outOff : Nat := 0
  ticket : Nat := 0
  delivered : Bool := false
  cancel : Bool := false
  /-- R334: accepted, by side: bit 0 side 0, bit 1 side 1. -/
  accepted : BitVec 2 := 0
  /-- R41: digests present, by side, and the frames in which they were written. -/
  dig0 : Option (BitVec 256) := none
  dig1 : Option (BitVec 256) := none
  firstD : Nat := 0
  /-- R334: by side, the reply that is being encoded, with the fc at which step 5 completes, and the reply once staged. -/
  stg0 : Option (Nat × Reply) := none
  stg1 : Option (Nat × Reply) := none
  rep0 : Option Reply := none
  rep1 : Option Reply := none
  /-- R41: the digests of the twins differ. -/
  mis : Bool := false
  /-- R32: the frame in which the completion was written, once it is. -/
  done : Option Nat := none
  status : BitVec 16 := 0
  detail : BitVec 8 := 0
  out : List (BitVec 8) := []
  outNeed : Nat := 0
  result : B64 := 0
  /-- R318, R319: the completion is discarded when it falls due. -/
  discard : Bool := false
  /-- R322: its release frame, once fixed; it has fallen due; it has been counted as held for want of room. -/
  relFrm : Option Nat := none
  fin : Bool := false
  stalled : Bool := false
  deriving DecidableEq, Repr

/-- An admin command: fetched, executing, waiting, or finished and not yet posted. -/
structure Adm where
  q : Nat
  cid : Nat
  op : Nat
  target : Nat
  ps : List (BitVec 32)
  inp : List (BitVec 8)
  outAddr : Nat
  outLen : Nat
  /-- R325: address and length of each data descriptor of an output list. -/
  outSgl : List (Nat × Nat) := []
  /-- R22, R322: arrival frame and fetch order. -/
  arr : Nat := 0
  no : Nat := 0
  /-- Discard its completion (R318). -/
  discard : Bool := false
  deriving DecidableEq, Repr

/-- A finished admin command. -/
structure AdmDone where
  cmd : Adm
  status : BitVec 16
  detail : BitVec 8 := 0
  out : List (BitVec 8) := []
  result : B64 := 0
  /-- R329: the frame in which the Shed finished it: its release frame is the next. -/
  fin : Nat := 0
  /-- It has been counted as held for want of room in its CQ. -/
  stalled : Bool := false
  deriving DecidableEq, Repr

/-- What an admin command in execution waits for. -/
inductive AdmWait where
  | none
  /-- R373: ACKs of wardens: the cells that still owe one, and the SEQ. -/
  | ack (cells : List Nat) (seq : Nat)
  /-- R345: PART_START waits for its tick. -/
  | startTick
  /-- R346: PART_STOP waits for the partition. -/
  | partStop
  /-- R35, R428: CELL_STOP waits for the cell. -/
  | cellStop (n : Nat)
  /-- R36: CELL_START waits for the cell to run. -/
  | cellStart (n : Nat)
  /-- R45: PART_REPAIR copies. -/
  | repair
  /-- R402: SLEEP or ZEROIZE waits for the zeroization. -/
  | zero
  /-- R410: a debug token waits for source 10's response. -/
  | dbg
  /-- R409, R407, R406: a Seedbank operation. -/
  | sbk (kind : Nat)
  deriving DecidableEq, Repr

/-! ### Timers -/

/-- R354 to R362: a timer channel. -/
structure Tch where
  run : Bool := false
  cnt : B64 := 0
  cmpa : B64 := 0
  /-- R358: the staged low half. -/
  stageLo : BitVec 32 := 0
  capr : B64 := 0
  capf : B64 := 0
  caprv : Bool := false
  capfv : Bool := false
  /-- R361: a leading edge has come since the last trailing one. -/
  led : Bool := false
  /-- R354: fc since the last increment, or since the start. -/
  pre : Nat := 0
  /-- R361: an edge of this fc that the channel has not taken yet: whether it is the leading one. -/
  edge : Option Bool := none
  lock : Bool := false
  /-- R362: buffered edges in order of arrival: leading or not, and the count. -/
  pend : List (Bool × B64) := []
  deriving DecidableEq, Repr

/-- R363, R398: a filtered pin. -/
structure Pin where
  /-- The last four samples, newest first. -/
  smp : List Bool := [false, false, false, false]
  lvl : Bool := false
  /-- R363: the level that the synchroniser shows from outside. -/
  ext : Bool := false
  /-- R363: fc until the next sample. -/
  due : Nat := 0
  /-- Consecutive samples that found a 2-2 split. -/
  split : Nat := 0
  /-- R364: the level the unit drives. -/
  drive : Bool := false
  deriving DecidableEq, Repr

/-- R357: a requester's read shadow. -/
structure Shadow where
  valid : Bool := false
  /-- The register pair: channel * 2 + (1 for CMPA). -/
  pair : Nat := 0
  hi : BitVec 32 := 0
  good : Bool := false
  deriving DecidableEq, Repr

/-! ### Shed -/

/-- R380: one monitor, or its staging copy, or a snapshot. -/
structure Mon where
  min : BitVec 32 := 0xFFFFFFFF
  max : BitVec 32 := 0
  xing : BitVec 32 := 0
  bins : Tab Nat := []
  clrFrm : Nat := 0
  deriving DecidableEq, Repr

/-- R394: a copy of the slot control. -/
structure SlotCtl where
  good : Bool := false
  gen : Nat := 0
  active : Nat := 0
  pend : Nat := 0
  pendFlag : Bool := false
  trial : Nat := 0
  deriving DecidableEq, Repr

/-- R351: a record of the HCI log. -/
structure HciRec where
  frame : Nat
  event : Nat
  func : Nat
  queue : Nat
  detail : Nat
  cid : Nat
  deriving DecidableEq, Repr

/-- The Shed's memory and software state. -/
structure Shd where
  run : Bool := false
  /-- R369: locked up until cold boot. -/
  locked : Bool := false
  /-- R368: SRAM words. -/
  sram : Tab Word := []
  /-- R371: queues of outbound messages, by mailbox. -/
  outq0 : List (List (BitVec 32)) := []
  outq1 : List (List (BitVec 32)) := []
  outq2 : List (List (BitVec 32)) := []
  outq3 : List (List (BitVec 32)) := []
  /-- SEQ the Shed gives its next request. -/
  seq : Nat := 0
  /-- R372: the host's note level. -/
  note : Nat := 3
  /-- R375: the event log, 128-bit records by SEQ; the newest SEQ. -/
  log : Tab (BitVec 128) := []
  logSeq : Nat := 0
  /-- R379: SEQs waiting to be programmed, oldest first. -/
  toFlash : List Nat := []
  /-- R379: ring position in the log area: block and entry, bad blocks, erase counts. -/
  blk : Nat := 0
  ent : Nat := 0
  badBlk : BitVec 64 := 0
  erases : Tab Nat := []
  noPers : Bool := false
  /-- R378: flash bytes; an erased byte reads 0xFF. -/
  flash : Tab (BitVec 8) := []
  /-- R394. -/
  ctl0 : SlotCtl := {}
  ctl1 : SlotCtl := {}
  /-- R392: the staging in progress: bundle length, pages written. -/
  stageLen : Option Nat := none
  pages : List Nat := []
  /-- R395: slot booted and on trial. -/
  slot : Nat := 0
  trial : Bool := false
  bundleVer : Nat := 0
  bundleSvn : Nat := 0
  /-- R394 step 3: the value to which the anti-rollback counter is being raised. -/
  svnGoal : Nat := 0
  /-- R441: the warden body, and whether one is loaded. -/
  warden : List (BitVec 8) := []
  hasWarden : Bool := false
  /-- R374: sensors that have warned and not returned. -/
  warned : List Nat := []
  /-- R351. -/
  hciLog : Tab (Option HciRec) := []
  hciSeq : Nat := 0
  /-- R377: events raised by units that the cell error log copies, not yet taken: code, INST, ARG. -/
  raised : List (Nat × Nat × BitVec 32) := []
  /-- R386: the I3C dynamic address and MCTP endpoint id. -/
  eid : BitVec 8 := 0
  /-- The last reply to the BMC. -/
  bmcOut : List (BitVec 8) := []
  /-- R386: the in-band interrupt of the I3C target is raised. -/
  ibi : Bool := false
  /-- R388: console input accepted, and the records printed, newest first. -/
  uartIn : List (BitVec 8) := []
  uartOut : List (BitVec 128) := []
  /-- R369: an admin command was in progress when the Shed stopped. -/
  busyStuck : Bool := false
  deriving DecidableEq, Repr

/-! ### Alarm, Seedbank, power -/

/-- The alarm monitor behind its registers. -/
structure Alm where
  /-- R397: sources 0 to 15 active now. -/
  level : BitVec 16 := 0
  chat : BitVec 16 := 0
  latch : BitVec 16 := 0
  inforce : Bool := false
  /-- Highest class in force. -/
  cls : Nat := 0
  window : Bool := false
  /-- R406: the policy before the window opened. -/
  oldPol : BitVec 32 := 0x006AAEAB
  zbusy : Bool := false
  /-- R402: why the zeroization runs: 0 alarm, 1 ZEROIZE, 2 SLEEP. -/
  zwhy : Nat := 0
  /-- R404: a lock burn is due, and running. -/
  burnDue : Bool := false
  burn : Bool := false
  lockedA3 : Bool := false
  dbg : Bool := false
  dbgPend : Bool := false
  /-- R401: a freeze decided and not yet in force; a lift written. -/
  freezePend : Bool := false
  liftPend : Bool := false
  /-- ALM_OUT_N is asserted. -/
  out : Bool := false
  nonce : BitVec 32 := 0
  deriving DecidableEq, Repr

/-- R411, R413: the Seedbank controller. -/
structure Sbk where
  /-- OTP dwords by group * 64 + generation * 16 + dword. -/
  otp : Tab (BitVec 32) := []
  /-- R413: the view: the dwords as last read into the view registers. -/
  view : Tab (BitVec 32) := []
  busy : Bool := false
  op : Nat := 0
  group : Nat := 0
  data : Tab (BitVec 32) := []
  deriving DecidableEq, Repr

/-- R434 to R446: power, resets, clocks, pins. -/
structure Pwr where
  aon : Bool := true
  pmicOn : Bool := true
  wake : Bool := true
  pwrgd : Bool := true
  /-- R435: PWRGD has risen since PMIC_ON rose. -/
  pgSeen : Bool := true
  /-- R435: the part is out of reset. -/
  up : Bool := true
  stage : Nat := 1
  cause : Nat := 1
  ready : Bool := false
  /-- R444: the boot ROM has given up, or the main PLL did not lock. -/
  dead : Bool := false
  pmicDropPend : Bool := false
  /-- CLK_LOCK. -/
  lock : BitVec 8 := 0
  perst : Bool := false
  link : Bool := false
  /-- Bus Master Enable of function f. -/
  bme : Tab Bool := []
  numVf : Nat := 0
  /-- LOCKUP_N asserted. -/
  lockupN : Bool := false
  /-- The JTAG TAP is in its reset state. -/
  tapReset : Bool := true
  deriving DecidableEq, Repr

/-- The state of the block. -/
structure State where
  /-- The model's own field: the build of the part (notes/assumptions/3.md). -/
  build : Build := .t48
  /-- The commands that wait, first in, first out. -/
  pending : List Instr := []
  /-- The model's own field: how many free values have been read (notes/assumptions/1.md). -/
  free : Nat := 0
  /-- R15: fc since cold boot. -/
  clock : Nat := 0
  /-- R15: FRAME_NO, whether ticks run, fc since the last tick, the period selection in force. -/
  frame : Nat := 0
  ticking : Bool := false
  fc : Nat := 0
  sel : Nat := 2
  /-- R22: the input cut-off of this frame has passed. -/
  cutoff : Bool := false
  /-- R17 step 2: FRM_STATUS.FROZEN. -/
  frozen : Bool := false
  /-- R23: rotation entries by row * 64 + core, and row attributes by row * 4 + cell. -/
  rot : Tab (BitVec 8) := []
  rotAttr : Tab (BitVec 32) := []
  /-- R21, R185: cores whose entries become 0xFF at the next tick. -/
  offPend : List Nat := []
  /-- BAR0 registers of the physical function by byte offset: the stored ones. -/
  bar : Tab (BitVec 32) := []
  /-- Queue pair registers of the virtual functions by vf * 0x4000 + byte offset. -/
  vfbar : Tab (BitVec 32) := []
  /-- R12: the fc, plus one, in which the record of GLB_LOCKERR was made. -/
  lockFc : Nat := 0
  cores : Tab Core := []
  clus : Tab Clu := []
  cells : Tab Cell := []
  parts : Tab Part := []
  /-- By (partition * 2 + side) * 64 + strand. -/
  strands : Tab Strand := []
  /-- R207: external memory by physical word address, the cell in bits 38 and 37. -/
  mem : Tab Word := []
  /-- R268, R276: stored codewords that differ from what was written: the byte errors by line * 2 + codeword. -/
  memErr : Tab (List (Nat × BitVec 8)) := []
  /-- R270: the fresh-region maps by cell * 2^20 + region. -/
  filled : Tab Bool := []
  /-- R237: scratch words by cluster * 2^18 + offset. -/
  scratch : Tab Word := []
  /-- R230: L2 lines by cluster * 2^36 + physical line. -/
  l2 : Tab L2Line := []
  /-- R242: directory entries by physical line. -/
  dir : Tab DirEnt := []
  /-- R244: messages under way, oldest first. -/
  net : List Msg := []
  /-- R244, R248, R249: answers under way to non-caching agents and to cores, oldest first. -/
  ncNet : List NcMsg := []
  /-- R251: requests of non-caching agents and home atomics that wait out a backoff. -/
  ncAsk : List NcAsk := []
  /-- R248: the words that each non-caching agent last received, by cell * 16 + agent. -/
  ncGot : Tab (List Word) := []
  /-- R251: the replacement tree of each directory set, by home slice * 2048 + set. -/
  dirP : Tab Nat := []
  /-- R251: reservations of directory ways. -/
  dirRes : List Reserve := []
  /-- R251: outstanding L2 requests by cluster * 2^36 + line. -/
  mshr : Tab (Option Mshr) := []
  /-- R287: key store slots. -/
  slots : Tab Slot := []
  /-- R309: the device DRBG. -/
  drbgD : Drbg := {}
  /-- R301: jobs by job number, and the next job number. -/
  jobs : Tab (Option Job) := []
  jobNo : Nat := 0
  /-- R319: queue pairs by function * 16 + q. -/
  qps : Tab Qp := []
  /-- R321: the function at which the next turn of the round-robin starts, and by function the SQ. -/
  rrFunc : Nat := 0
  rrQ : Tab Nat := []
  /-- I/O commands outstanding, by request number, and the next number (fetch order). -/
  reqs : Tab (Option Req) := []
  reqNo : Nat := 0
  /-- R337: admin commands in fetch order, the first executing; what it waits for; those finished. -/
  adm : List Adm := []
  admWait : AdmWait := .none
  admDone : List AdmDone := []
  /-- Host memory bytes that the part wrote, by byte address. -/
  hostMem : Tab (BitVec 8) := []
  /-- MSI-X messages sent, newest first: function and vector. -/
  msix : List (Nat × Nat) := []
  /-- R316: MSI-X table dwords by function * 2^12 + byte offset, and pending bits by function * 32 + vector. -/
  msixTab : Tab (BitVec 32) := []
  pba : Tab Bool := []
  /-- The model's own field: what the last register read by a command returned (notes/assumptions/4.md). -/
  rdata : BitVec 32 := 0
  tch : Tab Tch := []
  tpin : Tab Pin := []
  /-- R357: read shadows: 0 host, 1 Shed, 2 + c core c. -/
  shadow : Tab Shadow := []
  shd : Shd := {}
  /-- R380: monitors, their staging copies, and the snapshot banks of the host and the Shed. -/
  mon : Tab Mon := []
  monStage : Tab Mon := []
  monClr : List Nat := []
  snap : Tab (Option Mon) := []
  alm : Alm := {}
  tamper : Tab Pin := []
  sbk : Sbk := {}
  pwr : Pwr := {}
  /-- R308: the TRNG is healthy. -/
  trngOk : Bool := false
  /-- R310: the frame of the last reseed plus one. -/
  reseeded : Nat := 0
  deriving DecidableEq, Repr

/-- The block right after a cold boot (R5, R439): every field at its reset value, no command waiting. -/
def State.reset : State := {}

end Sys2Proof.Machine
end

