-- ==== Sys2Proof/Machine/Base.lean ====
section
/-!
DEFINITION. Accessors of the state: one home for every array, the stored registers, the rejection of register writes (R11,
R12), the events that units hand to the Shed, and free values.
-/
namespace Sys2Proof.Machine

/-- What a command answers. -/
abbrev Out := Host.Outcome State Fault Refusal

/-! ### Arrays -/

def State.core (s : State) (c : Nat) : Core := Tab.get (fun _ => {}) s.cores c
def State.setCore (s : State) (c : Nat) (k : Core) : State := { s with cores := Tab.set (fun _ => {}) s.cores c k }
def State.modCore (s : State) (c : Nat) (f : Core → Core) : State := s.setCore c (f (s.core c))
def State.clu (s : State) (m : Nat) : Clu := Tab.get (fun _ => {}) s.clus m
def State.setClu (s : State) (m : Nat) (k : Clu) : State := { s with clus := Tab.set (fun _ => {}) s.clus m k }
def State.modClu (s : State) (m : Nat) (f : Clu → Clu) : State := s.setClu m (f (s.clu m))
def State.cell (s : State) (n : Nat) : Cell := Tab.get (fun _ => {}) s.cells n
def State.setCell (s : State) (n : Nat) (k : Cell) : State := { s with cells := Tab.set (fun _ => {}) s.cells n k }
def State.modCell (s : State) (n : Nat) (f : Cell → Cell) : State := s.setCell n (f (s.cell n))
def State.part (s : State) (p : Nat) : Part := Tab.get (fun _ => {}) s.parts p
def State.setPart (s : State) (p : Nat) (k : Part) : State := { s with parts := Tab.set (fun _ => {}) s.parts p k }
def State.modPart (s : State) (p : Nat) (f : Part → Part) : State := s.setPart p (f (s.part p))
/-- The key of a strand of a side of a partition. -/
def strandKey (p side t : Nat) : Nat := (p * 2 + side) * 64 + t
def State.strand (s : State) (k : Nat) : Strand := Tab.get (fun _ => {}) s.strands k
def State.modStrand (s : State) (k : Nat) (f : Strand → Strand) : State :=
  { s with strands := Tab.set (fun _ => {}) s.strands k (f (s.strand k)) }
def State.slot (s : State) (i : Nat) : Slot := Tab.get (fun _ => {}) s.slots i
def State.setSlot (s : State) (i : Nat) (k : Slot) : State := { s with slots := Tab.set (fun _ => {}) s.slots i k }
def State.qp (s : State) (k : Nat) : Qp := Tab.get (fun _ => {}) s.qps k
def State.setQp (s : State) (k : Nat) (q : Qp) : State := { s with qps := Tab.set (fun _ => {}) s.qps k q }
def State.req (s : State) (r : Nat) : Option Req := Tab.get (fun _ => none) s.reqs r
def State.setReq (s : State) (r : Nat) (q : Option Req) : State := { s with reqs := Tab.set (fun _ => none) s.reqs r q }
def State.modReq (s : State) (r : Nat) (f : Req → Req) : State := s.setReq r ((s.req r).map f)
def State.job (s : State) (j : Nat) : Option Job := Tab.get (fun _ => none) s.jobs j
def State.setJob (s : State) (j : Nat) (q : Option Job) : State := { s with jobs := Tab.set (fun _ => none) s.jobs j q }
def State.modJob (s : State) (j : Nat) (f : Job → Job) : State := s.setJob j ((s.job j).map f)
def State.chan (s : State) (n : Nat) : Tch := Tab.get (fun _ => {}) s.tch n
def State.setChan (s : State) (n : Nat) (k : Tch) : State := { s with tch := Tab.set (fun _ => {}) s.tch n k }
def State.modChan (s : State) (n : Nat) (f : Tch → Tch) : State := s.setChan n (f (s.chan n))
def State.monitor (s : State) (m : Nat) : Mon := Tab.get (fun _ => {}) s.mon m
def State.setMonitor (s : State) (m : Nat) (k : Mon) : State := { s with mon := Tab.set (fun _ => {}) s.mon m k }
def State.staging (s : State) (m : Nat) : Mon := Tab.get (fun _ => {}) s.monStage m
def State.setStaging (s : State) (m : Nat) (k : Mon) : State :=
  { s with monStage := Tab.set (fun _ => {}) s.monStage m k }
def State.modShd (s : State) (f : Shd → Shd) : State := { s with shd := f s.shd }
def State.modAlm (s : State) (f : Alm → Alm) : State := { s with alm := f s.alm }
def State.modPwr (s : State) (f : Pwr → Pwr) : State := { s with pwr := f s.pwr }
def State.modSbk (s : State) (f : Sbk → Sbk) : State := { s with sbk := f s.sbk }

/-- The sides of a partition that have a twin: 0 (the home or CELL0) and, for a pair, 1 (CELL1). -/
def Part.sides (p : Part) : List Nat := if p.paired then [0, 1] else [0]
/-- The home cell of a side. -/
def Part.cellOf (p : Part) (side : Nat) : Nat := if side = 0 then p.cell0 else p.cell1
/-- The physical word address of the context array of a side. -/
def Part.ctxOf (p : Part) (side : Nat) : Nat := if side = 0 then p.ctx0 else p.ctx1
/-- R43: the side is lost. -/
def Part.lostSide (p : Part) (side : Nat) : Bool := p.lost == side + 1
/-- Sides whose twin still runs. -/
def Part.live (p : Part) : List Nat := p.sides.filter fun x => !p.lostSide x
/-- The partition has a home in cell `n`. -/
def Part.homedIn (p : Part) (n : Nat) : Bool := p.st != 0 && (p.sides.any fun x => p.cellOf x == n)
/-- The side of a partition that lies in a cell. -/
def Part.sideIn (p : Part) (n : Nat) : Nat := if p.paired && p.cell1 == n then 1 else 0
def Part.rk (p : Part) (side : Nat) : Rk := if side = 0 then p.rk0 else p.rk1
def Part.setRk (p : Part) (side : Nat) (r : Rk) : Part := if side = 0 then { p with rk0 := r } else { p with rk1 := r }
def Part.drbg (p : Part) (side : Nat) : Drbg := if side = 0 then p.drbg0 else p.drbg1
def Part.setDrbg (p : Part) (side : Nat) (d : Drbg) : Part :=
  if side = 0 then { p with drbg0 := d } else { p with drbg1 := d }
def Part.dlv (p : Part) (side : Nat) : List Nat := if side = 0 then p.dlv0 else p.dlv1
def Part.setDlv (p : Part) (side : Nat) (l : List Nat) : Part :=
  if side = 0 then { p with dlv0 := l } else { p with dlv1 := l }

/-- The collection state of a side of a partition. -/
def State.rk (s : State) (p side : Nat) : Rk := (s.part p).rk side
def State.modRk (s : State) (p side : Nat) (f : Rk → Rk) : State :=
  s.modPart p fun q => q.setRk side (f (q.rk side))

/-- The cores of the part, of a cell and of a cluster. -/
def State.coreIds (s : State) : List Nat := List.range s.build.cores
def State.coresOfCell (s : State) (n : Nat) : List Nat :=
  (List.range s.build.coresPerCell).map fun i => n * s.build.coresPerCell + i
def coresOfClu (m : Nat) : List Nat := [m * 4, m * 4 + 1, m * 4 + 2, m * 4 + 3]
def State.clusOfCell (s : State) (n : Nat) : List Nat :=
  (List.range s.build.cluPerCell).map fun i => n * s.build.cluPerCell + i
def State.cellIds (s : State) : List Nat := List.range s.build.cells
def State.cluIds (s : State) : List Nat := List.range s.build.clusters
def State.partIds (s : State) : List Nat := List.range s.build.parts
/-- R198: the strand context's partition side that a core serves, by the core's cell. -/
def State.sideOfCore (s : State) (c p : Nat) : Nat := (s.part p).sideIn (s.build.cellOfCore c)
/-- The side of a partition on a cluster. -/
def State.sideOfClu (s : State) (m p : Nat) : Nat := (s.part p).sideIn (s.build.cellOfClu m)

/-! ### Free values -/

/-- The next free value, and the state that has read it. -/
def State.fresh (s : State) : B64 × State := (Config.freeValue s.free, { s with free := s.free + 1 })

/-! ### Registers -/

/-- A stored register. -/
def State.rd (s : State) (n : RegName) (unit idx : Nat := 0) : BitVec 32 :=
  Tab.get barReset s.bar (RegAt.key ⟨n, unit, idx⟩)
/-- Store a register. -/
def State.wr (s : State) (n : RegName) (unit idx : Nat) (v : BitVec 32) : State :=
  { s with bar := Tab.set barReset s.bar (RegAt.key ⟨n, unit, idx⟩) v }
/-- A field of a stored register. -/
def State.rdf (s : State) (n : RegName) (unit idx hi lo : Nat) : Nat := fld (s.rd n unit idx) hi lo
/-- Store a field. -/
def State.wrf (s : State) (n : RegName) (unit idx hi lo x : Nat) : State :=
  s.wr n unit idx (putFld (s.rd n unit idx) hi lo x)
/-- Increment a field, saturating. -/
def State.incf (s : State) (n : RegName) (unit idx hi lo : Nat) : State :=
  s.wrf n unit idx hi lo (satInc (hi - lo + 1) (s.rdf n unit idx hi lo))
/-- Increment a 32-bit count, saturating. -/
def State.inc32 (s : State) (n : RegName) (unit : Nat := 0) (idx : Nat := 0) : State := s.incf n unit idx 31 0
/-- A record register with VALID in bit 31 and OVF in bit 30: an event is recorded while VALID is 0 (OVF kept), and sets
OVF otherwise. -/
def State.record (s : State) (n : RegName) (unit : Nat) (body : BitVec 32) : State :=
  let v := s.rd n unit 0
  if v.getLsbD 31 then s.wr n unit 0 (v ||| 0x40000000)
  else s.wr n unit 0 ((v &&& 0x40000000) ||| 0x80000000 ||| (body &&& 0x3FFFFFFF))

/-- R101, R202, R203, R229: the reset value of a special register: PSTAT is 3; SPC_x and TVEC_x are `LINK`s of their own
level, LSTART and LEND of level 3; a CX register is `EMPTY`; every other is `FIX` 0. -/
def sprReset (n : Nat) : Word :=
  if n = 0x001 then Word.nat 3
  else if n = 0x020 || n = 0x038 then Word.link 1 0
  else if n = 0x028 || n = 0x039 then Word.link 2 0
  else if n = 0x030 || n = 0x03A || n = 0x011 || n = 0x012 then Word.link 3 0
  else if 0x100 ≤ n && n ≤ 0x11F then Word.empty
  else Word.nat 0

/-- A special register as stored. -/
def Core.sp (k : Core) (n : Nat) : Word := Tab.get sprReset k.spr n
/-- Its payload. -/
def Core.spv (k : Core) (n : Nat) : B64 := (k.sp n).pay
/-- Store a special register. -/
def Core.setSp (k : Core) (n : Nat) (w : Word) : Core := { k with spr := Tab.set sprReset k.spr n w }
/-- Store the payload of a special register, its tag kept. -/
def Core.setSpv (k : Core) (n : Nat) (v : B64) : Core := k.setSp n ⟨(k.sp n).tag, v⟩
/-- R101: PSTAT.LEVEL. -/
def Core.level (k : Core) : Nat := fld (k.spv 0x001) 1 0

/-- R11: SRC of a writer. -/
def whoSrc : Who → Nat
  | .host => 0
  | .shed => 1
  | .core _ => 2

/-- R11: GLB_LOCKERR's record of a rejected write, OVF apart. -/
def lockRecord (w : Who) (reason off : Nat) : BitVec 32 :=
  BitVec.ofNat 32 (2 ^ 31 + whoSrc w * 2 ^ 28 + reason * 2 ^ 26 + off % 2 ^ 24)
/-- R11, R12: a rejected write is recorded in GLB_LOCKERR and changes nothing else. While VALID is 1 it sets OVF; of two
writers rejected in one fabric cycle the first by the order host, Shed, warden is the one recorded. -/
def State.reject (s : State) (w : Who) (reason off : Nat) : State :=
  let v := s.rd .glbLockerr
  if v.getLsbD 31 then
    if s.lockFc == s.clock + 1 && whoSrc w < fld v 29 28 then s.wr .glbLockerr 0 0 (0x40000000 ||| lockRecord w reason off)
    else s.wr .glbLockerr 0 0 (v ||| 0x40000000)
  else { s.wr .glbLockerr 0 0 ((v &&& 0x40000000) ||| lockRecord w reason off) with lockFc := s.clock + 1 }

/-- R11: whether the block admits the writer; the exceptions of single registers are in `admitsReg`. -/
def admitsBlk (w : Who) : Blk → Bool
  | .glb | .hci | .frm | .pwr | .mem | .home | .mon => match w with | .core _ => false | _ => true
  | .cell | .tmu | .clu | .shd => true
  | .alm | .sbk => w == .shed
  | .kst | .cpx => w != .host

/-- R11, R124, R205, R280, R314, R353, R371, R431, R432: whether the register admits the writer. A core writes as the warden of its
cell (R219). -/
def admitsReg (b : Build) (w : Who) (r : RegAt) : Bool :=
  match r.name with
  | .cluCsctl | .cluCsaddr | .cluCsdata | .cluCsmeas | .cluCserr | .cluCsce | .cluCsfix | .cluCspp => w == .shed
  | .cluCoreStat | .cluCoreLkpc | .cluCoreLkpch | .cluCoreLkfrm => false
  | .cluRqdone | .cluFstop => match w with | .core _ => true | _ => false
  | .cpxCtl | .homeExcl => w == .shed
  | .cellElogrd => match w with | .core c => b.cellOfCore c == r.unit | _ => true
  | .shdIn | .shdIndb | .shdOutack =>
    match w with
    | .host => r.unit == 0
    | .shed => false
    | .core c => b.cellOfCore c + 1 == r.unit
  | n =>
    match n.row.blk, w with
    | .cell, .core _ => false
    | .shd, .host => false
    | .shd, .core _ => false
    | k, _ => admitsBlk w k

/-- R9 to R12: what a write of the register at an offset meets: nothing (an unaligned offset, R9), a rejection, or the
register. -/
inductive WriteTo where
  | nothing
  | rejected (reason : Nat)
  | reg (r : RegAt)
  deriving DecidableEq, Repr

/-- R9 to R12: where a write goes. -/
def State.target (s : State) (w : Who) (off : Nat) : WriteTo :=
  if off % 4 != 0 || off ≥ 2 ^ 24 then .nothing
  else match findBlk s.build off Blk.all with
    | none => .rejected 2
    | some (k, _) =>
      if !admitsBlk w k then .rejected 1
      else match locate s.build off with
        | none => .rejected 2
        | some r => if admitsReg s.build w r then .reg r else .rejected 1

/-- R6, R7: the value of a register after a write of `v`: RW and RWL bits are set, W1C bits cleared, W1S bits set, all
others kept. -/
def RegName.merge (n : RegName) (old v : BitVec 32) : BitVec 32 :=
  let r := n.row
  (old &&& ~~~(r.rw ||| r.rwl) &&& ~~~(r.w1c &&& v)) ||| (v &&& (r.rw ||| r.rwl)) ||| (v &&& r.w1s)

/-- A plain write of a stored register under R6. -/
def State.plainWrite (s : State) (r : RegAt) (v : BitVec 32) : State :=
  s.wr r.name r.unit r.idx (r.name.merge (s.rd r.name r.unit r.idx) v)

/-- The action `f` of a write to the named register, or its rejection (R11): what every command that writes one register
with effects of its own does. A unit of the other build has an offset and its write is rejected (R10, R11); a unit that no
build has is at no offset. -/
def State.writeReg (s : State) (w : Who) (n : RegName) (unit idx : Nat) (f : State → State) : State :=
  if locate .t48 (RegAt.key ⟨n, unit, idx⟩) != some ⟨n, unit, idx⟩ then s
  else match s.target w (RegAt.key ⟨n, unit, idx⟩) with
  | .nothing => s
  | .rejected k => s.reject w k (RegAt.key ⟨n, unit, idx⟩)
  | .reg _ => f s

/-! ### Read shadows of the timer unit (R357) -/

def State.shadowOf (s : State) (i : Nat) : Shadow := Tab.get (fun _ => {}) s.shadow i
def State.setShadow (s : State) (i : Nat) (x : Shadow) : State := { s with shadow := Tab.set (fun _ => {}) s.shadow i x }
/-- R357: the requester of an access. -/
def shadowIdx : Who → Nat
  | .host => 0
  | .shed => 1
  | .core c => 2 + c
/-- R357: a core's shadow becomes invalid. -/
def State.dropShadow (s : State) (c : Nat) : State := s.setShadow (2 + c) { s.shadowOf (2 + c) with valid := false }

/-! ### Events -/

/-- R377: an event handed to the Shed for the event log. -/
def State.raise (s : State) (code inst : Nat) (arg : BitVec 32) : State :=
  s.modShd fun d => { d with raised := d.raised ++ [(code, inst, arg)] }

/-! ### Admin commands in execution -/

/-- R337: the admin command in execution ends; its completion waits to be posted. -/
def State.admFinish (s : State) (status : BitVec 16) (detail : BitVec 8 := 0) (out : List (BitVec 8) := []) (result : B64 := 0) : State :=
  match s.adm with
  | [] => s
  | a :: t =>
    let x : AdmDone := { cmd := a, status := status, detail := detail, out := out, result := result, fin := s.frame }
    { s with adm := t, admWait := .none, admDone := s.admDone ++ [x] }

/-! ### Units that the build does not have

R10: an instance that the build does not have holds no state and does nothing, so a command that names one changes nothing
(DESIGN CHOICE, log 9). -/

/-- A command that names core `c`. -/
def onCore (s : State) (c : Nat) (t : State) : Out := .next (if c < s.build.cores then t else s)
/-- A command that names cluster `m`. -/
def onClu (s : State) (m : Nat) (t : State) : Out := .next (if m < s.build.clusters then t else s)
/-- A command that names cell `n`. -/
def onCell (s : State) (n : Nat) (t : State) : Out := .next (if n < s.build.cells then t else s)
/-- A command that names memory channel `ch`. -/
def onChan (s : State) (ch : Nat) (t : State) : Out := .next (if ch < s.build.channels then t else s)
/-- A command that names partition `p`. -/
def onPart (s : State) (p : Nat) (t : State) : Out := .next (if p < s.build.parts then t else s)

end Sys2Proof.Machine
end

