-- ==== Sys2Proof/Machine/Errors.lean ====
section
/-!
DEFINITION. Fault classes and recovery (chapter 16) as shared operations: the cell error log, the loss of strands and
twins, fault-stops, lockups and the declaration of a cell as down; and the commands of that chapter that need no other
unit.
-/
namespace Sys2Proof.Machine

/-! ### The cell error log -/

/-- R426: SEQ values run from 1 to 2^32 - 1. -/
def seqRing : Nat := 2 ^ 32 - 1
/-- R426: the value `k` steps after `v` on the ring; 0 stands before the first. -/
def seqAdd (v k : Nat) : Nat := (seqRing - 1 + (v + k)) % seqRing + 1
/-- R426: the steps from `a` to `b` on the ring. -/
def seqDist (a b : Nat) : Nat := (seqRing - a + b) % seqRing

def State.elogSeq (s : State) (n : Nat) : Nat := (s.rd .cellElogseq n).toNat
def State.elogRd (s : State) (n : Nat) : Nat := (s.rd .cellElogrd n).toNat
/-- R425, R431: CELL_ELOGSTAT.OPEN, the number of open records. -/
def State.elogOpen (s : State) (n : Nat) : Nat := seqDist (s.elogRd n) (s.elogSeq n)
/-- The open SEQ values, oldest first. -/
def State.elogSeqs (s : State) (n : Nat) : List Nat :=
  (List.range (min 64 (s.elogOpen n))).map fun i => seqAdd (s.elogRd n) (i + 1)
/-- Dword `j` of the record with SEQ `q` (slot q mod 64). -/
def State.elogDw (s : State) (n q j : Nat) : BitVec 32 := s.rd .cellElog n (q % 64 * 4 + j)

/-- R423: the dwords of a record. -/
def elogRecord (frame code inst sev ovf : Nat) (esc : Bool) (arg : BitVec 32) (addr : Nat) : List (BitVec 32) :=
  [BitVec.ofNat 32 frame,
   BitVec.ofNat 32 (addr / 2 ^ 32 % 16 * 2 ^ 28 + ovf % 256 * 2 ^ 20 + b2n esc * 2 ^ 19 + sev % 8 * 2 ^ 16
     + code % 256 * 2 ^ 8 + inst % 256),
   BitVec.ofNat 32 addr, arg]

/-- Store a record in the slot of SEQ `q`. -/
def State.elogPut (s : State) (n q : Nat) (d : List (BitVec 32)) : State :=
  let b := q % 64 * 4
  let s := (((s.wr .cellElog n b (dwAt d 0)).wr .cellElog n (b + 1) (dwAt d 1)).wr .cellElog n (b + 2) (dwAt d 2)).wr
    .cellElog n (b + 3) (dwAt d 3)
  s.modCell n fun k => { k with elogSeq := Tab.set (fun _ => 0) k.elogSeq (q % 64) q }

/-- SEV of the record with SEQ `q`. -/
def State.elogSev (s : State) (n q : Nat) : Nat := fld (s.elogDw n q 1) 18 16
/-- R425: the open record of the same CODE and INST. -/
def State.elogFind (s : State) (n code inst : Nat) : Option Nat :=
  (s.elogSeqs n).find? fun q => fld (s.elogDw n q 1) 15 0 == code * 256 + inst
/-- R425: the oldest open record of SEV 2 or less. -/
def State.elogLow (s : State) (n : Nat) : Option Nat := (s.elogSeqs n).find? fun q => s.elogSev n q ≤ 2
/-- R424, R425: a record in the slot of SEQ `q` that is new or escalated goes to the Shed. -/
def State.elogTell (s : State) (n q code inst sev ovf : Nat) (esc : Bool) (arg : BitVec 32) (addr : Nat) : State :=
  (s.elogPut n q (elogRecord s.frame code inst sev ovf esc arg addr)).raise code inst arg
/-- R425: an event whose record `q` is open: OVF counts it, or the record escalates. -/
def State.elogMerge (s : State) (n q code inst sev : Nat) (arg : BitVec 32) (addr : Nat) : State :=
  if sev ≤ s.elogSev n q then
    s.wr .cellElog n (q % 64 * 4 + 1) (putFld (s.elogDw n q 1) 27 20 (satInc 8 (fld (s.elogDw n q 1) 27 20)))
  else s.elogTell n q code inst sev (fld (s.elogDw n q 1) 27 20) true arg addr
/-- R425: an event that takes the next SEQ. -/
def State.elogNew (s : State) (n code inst sev : Nat) (arg : BitVec 32) (addr : Nat) : State :=
  (s.elogTell n (seqAdd (s.elogSeq n) 1) code inst sev 0 false arg addr).wr .cellElogseq n 0
    (BitVec.ofNat 32 (seqAdd (s.elogSeq n) 1))
/-- R425: an event that finds 64 records open, of which `o` is the oldest of SEV 2 or less: dropped, in the place of that one,
or lost. -/
def State.elogFull (s : State) (n code inst sev : Nat) (arg : BitVec 32) (addr : Nat) (o : Option Nat) : State :=
  if sev ≤ 2 then s.incf .cellElogstat n 0 31 16
  else match o with
    | some q => (s.elogTell n q code inst sev 0 true arg addr).incf .cellElogstat n 0 31 16
    | none => (s.incf .cellElogstat n 0 15 8).wrf .cellElogstat n 0 7 7 1
/-- R425: an event whose open record of the same CODE and INST is `o`. -/
def State.elogAct (s : State) (n code inst sev : Nat) (arg : BitVec 32) (addr : Nat) (o : Option Nat) : State :=
  match o with
  | some q => s.elogMerge n q code inst sev arg addr
  | none =>
    if s.elogOpen n < 64 then s.elogNew n code inst sev arg addr
    else s.elogFull n code inst sev arg addr (s.elogLow n)
/-- R425: enter an event in the log of cell `n`; R424: a new or escalated record goes to the Shed. -/
def State.elogEnter (s : State) (n code inst sev : Nat) (arg : BitVec 32) (addr : Nat) : State :=
  s.elogAct n code inst sev arg addr (s.elogFind n code inst)

/-- R426: a write of `v` to CELL_ELOGRD. -/
def State.elogrdWrite (s : State) (n : Nat) (v : BitVec 32) : State :=
  if v.toNat != 0 && seqDist (s.elogRd n) v.toNat ≤ s.elogOpen n then s.wr .cellElogrd n 0 v else s

/-! ### Cell state -/

/-- R45: FRM_CELLn_STATE as it reads. -/
def State.cellStateReg (s : State) (n : Nat) : BitVec 32 :=
  BitVec.ofNat 32 ((s.cell n).row % 256 * 256 + (s.cell n).st)

/-- R34, R45, R376: a cell takes a new state; the frame is recorded and the Shed is told. -/
def State.setCellState (s : State) (n st : Nat) : State :=
  let s := (s.modCell n fun k => { k with st := st }).wr .frmCellEvt 0 n (BitVec.ofNat 32 s.frame)
  s.raise 0x10 n (s.cellStateReg n)

/-! ### Loss of strands, twins and partitions -/

/-- R422, R424: a record of code 0x13. -/
def State.logStop (s : State) (n p cause : Nat) : State := s.elogEnter n 0x13 p 3 0 cause

/-- R347: a partition that holds an image is fault-stopped whole: it becomes FAULTED at the next tick, and its commands
complete then with `status`. The first cause within a frame decides. -/
def State.partFault (s : State) (p : Nat) (status : BitVec 16) : State :=
  if 2 ≤ (s.part p).st && (s.part p).st ≤ 4 then
    s.modPart p fun q => if q.faultPend.isNone then { q with faultPend := some status } else q
  else s

/-- R40: a lost twin leaves a key operation that the other twin waits on to be applied at the next tick, and takes its own
with it. -/
def Part.keyLoss (q : Part) (side : Nat) : Part :=
  match q.keyWait with
  | none => q
  | some w => if w.side == side then { q with keyWait := none } else { q with keyApply := true }

/-- R43, R44: the twin of `side` is lost; the loss of the other twin too fault-stops the pair with `status`. -/
def State.twinLoss (s : State) (p side : Nat) (status : BitVec 16) : State :=
  let q := s.part p
  if q.lost == 0 then s.modPart p fun q => { q.keyLoss side with lost := side + 1 }
  else if q.lost == side + 1 then s
  else s.partFault p status

/-- R21, R422: the strand, or the twin, of partition `p` in cell `n` is lost for the cause given. -/
def State.lose (s : State) (n p cause : Nat) : State :=
  let q := s.part p
  if (q.st == 3 || q.st == 4) && q.homedIn n && !(q.paired && q.lostSide (q.sideIn n)) then
    let s := s.logStop n p cause
    if q.paired then s.twinLoss p (q.sideIn n) 0x0300 else s.partFault p 0x0300
  else s

/-- R21: the strand a core runs is lost. -/
def State.strandLost (s : State) (c : Nat) : State :=
  match (s.core c).part with
  | some p => s.lose (s.build.cellOfCore c) p 2
  | none => s

/-- R226, R420: a Rake walk (cause 3) or arena walk (cause 4) fault stops the partition whole, a STOPPED one too. -/
def State.walkStop (s : State) (n p cause : Nat) : State :=
  let q := s.part p
  if 2 ≤ q.st && q.st ≤ 4 then (s.logStop n p cause).partFault p 0x0300 else s

/-- R185, R205: a core locks up: LKCAUSE, the level, the trap cause and the PC go to its record; LOCKUP_N is asserted, the
Shed is told, its rotation entries become 0xFF at the next tick, and its strand is lost. -/
def State.lockup (s : State) (c lkcause trap : Nat) (pc : BitVec 55) : State :=
  let k := s.core c
  let m := c / 4
  let i := c % 4
  if k.locked then s
  else
    let stat := BitVec.ofNat 32 (2 ^ 31 + k.level * 2 ^ 28 + lkcause % 16 * 2 ^ 24 + trap % 256 * 2 ^ 8
      + (k.part.getD 0) % 64)
    let s := ((((s.wr .cluCoreStat m i stat).wr .cluCoreLkpc m i (BitVec.ofNat 32 pc.toNat)).wr .cluCoreLkpch m i
      (BitVec.ofNat 32 (pc.toNat / 2 ^ 32))).wr .cluCoreLkfrm m i (BitVec.ofNat 32 s.frame))
    let s := (s.modPwr fun w => { w with lockupN := true }).modCore c fun k => { k with locked := true }
    let s := { s with offPend := c :: s.offPend }
    let s := s.elogEnter (s.build.cellOfCore c) 0x20 c 3 stat 0
    let s := s.strandLost c
    s.modCore c fun k => { k with part := none, next := none }

/-- R427: PART_REPAIR is under way from or to a cell that is declared down: it ends, and a lost source makes the partition
FAULTED. -/
def State.repairDown (s : State) (n : Nat) : State :=
  s.partIds.foldl (fun s p =>
    let q := s.part p
    match q.repair with
    | none => s
    | some t =>
      if !q.homedIn n then s
      else
        let s := s.modPart p fun q => { q with repair := none, st := if t == n then q.st else 5 }
        if s.admWait == .repair then s.admFinish 0x0301 else s) s
/-- R427: the admin commands that wait on a cell that is declared down. -/
def State.admCellDown (s : State) (n : Nat) : State :=
  let s := s.repairDown n
  if s.admWait == .cellStart n || s.admWait == .cellStop n then s.admFinish 0x0301 else s
/-- R37, R424, R428: cell `n` is declared down for the reason and channel given; twins in it are lost (R43), its single
partitions, STOPPED ones too, fault-stop with 0x0301, and so do the commands of its single partitions without an image or
FAULTED complete. -/
def State.cellDown (s : State) (n reason chan : Nat) : State :=
  if (s.cell n).st == 4 then s
  else
    let s := s.setCellState n 4
    let s := s.modCell n fun k => { k with acked := true, startPend := false, stopPend := false,
                                           mcur := none, mpend := 0, fillq := [], fillLate := [], filling := none }
    let s := s.wr .cellDownwhy n 0 (BitVec.ofNat 32 (2 ^ 31 + reason % 16 * 2 ^ 24 + chan % 4 * 2 ^ 16))
    let s := s.elogEnter n 0x14 n 4 (s.cellStateReg n) (s.rd .cellDownwhy n).toNat
    let s := s.admCellDown n
    s.partIds.foldl (fun s p =>
      let q := s.part p
      if !q.homedIn n then s
      else if 2 ≤ q.st && q.st ≤ 4 then
        if q.paired then s.twinLoss p (q.sideIn n) 0x0301 else s.partFault p 0x0301
      else if q.paired then s
      else s.modPart p fun q => { q with downPend := true }) s

/-- R397: a source of the alarm monitor becomes active. -/
def State.alarmInput (s : State) (src : Nat) : State :=
  s.modAlm fun a => { a with level := putBit a.level src true }

/-! ### Commands -/

/-- FSTOP (R422, R432): a write of CLU_FSTOP. -/
def fstopWrite (m : Nat) (v : BitVec 32) (s : State) : State :=
  let p := fld v 5 0
  let n := s.build.cellOfClu m
  if v.getLsbD 31 && (s.part p).st == 3 && (s.part p).homedIn n then s.lose n p 1 else s

/-- FSTOP (R422, R432). -/
def execFstop (w : Who) (m : Nat) (v : BitVec 32) (s : State) : Out :=
  .next (s.writeReg w .cluFstop m 0 (fstopWrite m v))

/-- ELOGRD_WRITE (R426, R431). -/
def execElogrdWrite (w : Who) (n : Nat) (v : BitVec 32) (s : State) : Out :=
  .next (s.writeReg w .cellElogrd n 0 fun s => s.elogrdWrite n v)

/-- VOTER_DISAGREEMENT (R418, R433): GLB_VOTE counts it and names the unit, and the Shed logs code 0x15. -/
def execVoterDisagreement (unit : BitVec 2) (s : State) : Out :=
  if unit = 3 then .next s
  else
    let s := (s.incf .glbVote 0 0 31 16).wrf .glbVote 0 0 1 0 unit.toNat
    .next (s.raise 0x15 unit.toNat (s.rd .glbVote))

end Sys2Proof.Machine
end

