-- ==== Sys2Proof/Machine/Hash.lean ====
section
/-!
DEFINITION. The hash functions that the spec names by their standards (notes/assumptions/5.md): SHA-2, SHA-3 and SHAKE,
HMAC, BLAKE2b. All work on bytes.
-/
namespace Sys2Proof.Machine

abbrev Bytes := List (BitVec 8)

/-- The round constants of SHA-512; SHA-256 uses the upper halves of the first 64. -/
def sha2K : List (BitVec 64) :=
  [0x428A2F98D728AE22, 0x7137449123EF65CD, 0xB5C0FBCFEC4D3B2F, 0xE9B5DBA58189DBBC] ++
  [0x3956C25BF348B538, 0x59F111F1B605D019, 0x923F82A4AF194F9B, 0xAB1C5ED5DA6D8118] ++
  [0xD807AA98A3030242, 0x12835B0145706FBE, 0x243185BE4EE4B28C, 0x550C7DC3D5FFB4E2] ++
  [0x72BE5D74F27B896F, 0x80DEB1FE3B1696B1, 0x9BDC06A725C71235, 0xC19BF174CF692694] ++
  [0xE49B69C19EF14AD2, 0xEFBE4786384F25E3, 0x0FC19DC68B8CD5B5, 0x240CA1CC77AC9C65] ++
  [0x2DE92C6F592B0275, 0x4A7484AA6EA6E483, 0x5CB0A9DCBD41FBD4, 0x76F988DA831153B5] ++
  [0x983E5152EE66DFAB, 0xA831C66D2DB43210, 0xB00327C898FB213F, 0xBF597FC7BEEF0EE4] ++
  [0xC6E00BF33DA88FC2, 0xD5A79147930AA725, 0x06CA6351E003826F, 0x142929670A0E6E70] ++
  [0x27B70A8546D22FFC, 0x2E1B21385C26C926, 0x4D2C6DFC5AC42AED, 0x53380D139D95B3DF] ++
  [0x650A73548BAF63DE, 0x766A0ABB3C77B2A8, 0x81C2C92E47EDAEE6, 0x92722C851482353B] ++
  [0xA2BFE8A14CF10364, 0xA81A664BBC423001, 0xC24B8B70D0F89791, 0xC76C51A30654BE30] ++
  [0xD192E819D6EF5218, 0xD69906245565A910, 0xF40E35855771202A, 0x106AA07032BBD1B8] ++
  [0x19A4C116B8D2D0C8, 0x1E376C085141AB53, 0x2748774CDF8EEB99, 0x34B0BCB5E19B48A8] ++
  [0x391C0CB3C5C95A63, 0x4ED8AA4AE3418ACB, 0x5B9CCA4F7763E373, 0x682E6FF3D6B2B8A3] ++
  [0x748F82EE5DEFB2FC, 0x78A5636F43172F60, 0x84C87814A1F0AB72, 0x8CC702081A6439EC] ++
  [0x90BEFFFA23631E28, 0xA4506CEBDE82BDE9, 0xBEF9A3F7B2C67915, 0xC67178F2E372532B] ++
  [0xCA273ECEEA26619C, 0xD186B8C721C0C207, 0xEADA7DD6CDE0EB1E, 0xF57D4F7FEE6ED178] ++
  [0x06F067AA72176FBA, 0x0A637DC5A2C898A6, 0x113F9804BEF90DAE, 0x1B710B35131C471B] ++
  [0x28DB77F523047D84, 0x32CAAB7B40C72493, 0x3C9EBE0A15C9BEBC, 0x431D67C49C100D4C] ++
  [0x4CC5D4BECB3E42B6, 0x597F299CFC657E2A, 0x5FCB6FAB3AD6FAEC, 0x6C44198C4A475817]

/-- The initial words of SHA-512 and, from index 8, of SHA-384; SHA-256 uses the upper halves of the first eight. -/
def sha2Iv : List (BitVec 64) :=
  [0x6A09E667F3BCC908, 0xBB67AE8584CAA73B, 0x3C6EF372FE94F82B, 0xA54FF53A5F1D36F1] ++
  [0x510E527FADE682D1, 0x9B05688C2B3E6C1F, 0x1F83D9ABFB41BD6B, 0x5BE0CD19137E2179] ++
  [0xCBBB9D5DC1059ED8, 0x629A292A367CD507, 0x9159015A3070DD17, 0x152FECD8F70E5939] ++
  [0x67332667FFC00B31, 0x8EB44A8768581511, 0xDB0C2E0D64F98FA7, 0x47B5481DBEFA4FA4]

/-- Element `i` of a list of words, 0 past its end. -/
def at_ {n : Nat} (l : List (BitVec n)) (i : Nat) : BitVec n := l.getD i 0

/-- Majority, choice and the rotations' exclusive or of the SHA-2 family. -/
def maj {n : Nat} (a b c : BitVec n) : BitVec n := (a &&& b) ^^^ (a &&& c) ^^^ (b &&& c)
def choose {n : Nat} (e f g : BitVec n) : BitVec n := (e &&& f) ^^^ (~~~e &&& g)
def rot3 {n : Nat} (x : BitVec n) (a b c : Nat) : BitVec n := x.rotateRight a ^^^ x.rotateRight b ^^^ x.rotateRight c
def rot2 {n : Nat} (x : BitVec n) (a b c : Nat) : BitVec n := x.rotateRight a ^^^ x.rotateRight b ^^^ (x >>> c)

/-- The message schedule, kept newest first, extended by `k` words; `f0` and `f1` are the small sigmas. -/
def sha2Sched {n : Nat} (f0 f1 : BitVec n → BitVec n) : Nat → List (BitVec n) → List (BitVec n)
  | 0, l => l
  | k + 1, l => sha2Sched f0 f1 k ((f1 (at_ l 1) + at_ l 6 + f0 (at_ l 14) + at_ l 15) :: l)

/-- The rounds over pairs of constant and schedule word. -/
def sha2Rounds {n : Nat} (f0 f1 : BitVec n → BitVec n) : List (BitVec n × BitVec n) → List (BitVec n) → List (BitVec n)
  | (k, w) :: t, [a, b, c, d, e, f, g, h] =>
    let t1 := h + f1 e + choose e f g + k + w
    let t2 := f0 a + maj a b c
    sha2Rounds f0 f1 t [t1 + t2, a, b, c, d + t1, e, f, g]
  | _, st => st

/-- SHA-256 compression of a block of sixteen words into a state of eight (R300 SHA256C). -/
def sha256Compress (st blk : List (BitVec 32)) : List (BitVec 32) :=
  let w := (sha2Sched (fun x => rot2 x 7 18 3) (fun x => rot2 x 17 19 10) 48 blk.reverse).reverse
  let ks := (sha2K.take 64).map fun (k : BitVec 64) => (k >>> 32).setWidth 32
  List.zipWith (· + ·) st
    (sha2Rounds (fun x => rot3 x 2 13 22) (fun x => rot3 x 6 11 25) (List.zip ks w) st)
/-- SHA-512 compression. -/
def sha512Compress (st blk : List (BitVec 64)) : List (BitVec 64) :=
  let w := (sha2Sched (fun x => rot2 x 1 8 7) (fun x => rot2 x 19 61 6) 64 blk.reverse).reverse
  List.zipWith (· + ·) st
    (sha2Rounds (fun x => rot3 x 28 34 39) (fun x => rot3 x 14 18 41) (List.zip sha2K w) st)

/-- Big-endian words of `n` bytes each. -/
def wordsBE (bits n : Nat) (l : Bytes) : List (BitVec bits) := (chunk n l).map fun c => BitVec.ofNat bits (natBE c)
/-- The padding of the SHA-2 family for blocks of `b` bytes with a length of `k` bytes. -/
def sha2Pad (b k : Nat) (l : Bytes) : Bytes :=
  l ++ [0x80] ++ zeros ((2 * b - 1 - k - l.length % b) % b) ++ bytesBE k (8 * l.length)

def sha256 (l : Bytes) : Bytes :=
  let iv := (sha2Iv.take 8).map fun (k : BitVec 64) => (k >>> 32).setWidth 32
  ((chunk 64 (sha2Pad 64 8 l)).foldl (fun st b => sha256Compress st (wordsBE 32 4 b)) iv).flatMap fun w => bytesBE 4 w.toNat
/-- SHA-512, or with `off` 8 the untruncated SHA-384. -/
def sha512From (off : Nat) (l : Bytes) : Bytes :=
  ((chunk 128 (sha2Pad 128 16 l)).foldl (fun st b => sha512Compress st (wordsBE 64 8 b)) ((sha2Iv.drop off).take 8)).flatMap
    fun w => bytesBE 8 w.toNat
def sha512 (l : Bytes) : Bytes := sha512From 0 l
def sha384 (l : Bytes) : Bytes := (sha512From 8 l).take 48
/-- SHA-2 by the parameter of R306: 0, 1 or 2. -/
def sha2 (v : Nat) (l : Bytes) : Bytes := match v with | 0 => sha256 l | 1 => sha384 l | _ => sha512 l

/-- HMAC with the SHA-2 of parameter `v`. -/
def hmac (v : Nat) (key msg : Bytes) : Bytes :=
  let b := if v = 0 then 64 else 128
  let k := fitBytes b (if b < key.length then sha2 v key else key)
  sha2 v (k.map (· ^^^ 0x5C) ++ sha2 v (k.map (· ^^^ 0x36) ++ msg))

/-- The round constants of Keccak-f[1600]. -/
def keccakRc : List (BitVec 64) :=
  [0x0000000000000001, 0x0000000000008082, 0x800000000000808A, 0x8000000080008000] ++
  [0x000000000000808B, 0x0000000080000001, 0x8000000080008081, 0x8000000000008009] ++
  [0x000000000000008A, 0x0000000000000088, 0x0000000080008009, 0x000000008000000A] ++
  [0x000000008000808B, 0x800000000000008B, 0x8000000000008089, 0x8000000000008003] ++
  [0x8000000000008002, 0x8000000000000080, 0x000000000000800A, 0x800000008000000A] ++
  [0x8000000080008081, 0x8000000000008080, 0x0000000080000001, 0x8000000080008008]

/-- The rotation offsets by lane x + 5 y. -/
def keccakRho : List Nat :=
  [0, 1, 62, 28, 27, 36, 44, 6, 55, 20, 3, 10, 43, 25, 39, 41, 45, 15, 21, 8, 18, 2, 61, 56, 14]

/-- One round of Keccak-f on 25 lanes, lane x + 5 y. -/
def keccakRound (a : List (BitVec 64)) (rc : BitVec 64) : List (BitVec 64) :=
  let c := (List.range 5).map fun x => at_ a x ^^^ at_ a (x + 5) ^^^ at_ a (x + 10) ^^^ at_ a (x + 15) ^^^ at_ a (x + 20)
  let d := (List.range 5).map fun x => at_ c ((x + 4) % 5) ^^^ (at_ c ((x + 1) % 5)).rotateLeft 1
  let a := (List.range 25).map fun i => (at_ a i ^^^ at_ d (i % 5)).rotateLeft (keccakRho.getD i 0)
  -- the lane at (x, y) after the permutation is the one that stood at ((x + 3 y) mod 5, x)
  let b := (List.range 25).map fun i => at_ a ((i % 5 + 3 * (i / 5)) % 5 + 5 * (i % 5))
  let e := (List.range 25).map fun i =>
    at_ b i ^^^ (~~~(at_ b ((i + 1) % 5 + i / 5 * 5)) &&& at_ b ((i + 2) % 5 + i / 5 * 5))
  (at_ e 0 ^^^ rc) :: e.tail
def keccakF (a : List (BitVec 64)) : List (BitVec 64) := keccakRc.foldl keccakRound a

/-- Absorb padded blocks. -/
def absorb (a : List (BitVec 64)) (blk : Bytes) : List (BitVec 64) :=
  let w := (chunk 8 blk).map fun c => BitVec.ofNat 64 (natLE c)
  keccakF ((List.range 25).map fun i => at_ a i ^^^ at_ w i)
/-- Squeeze `n` blocks of `rate` bytes. -/
def squeeze (rate : Nat) : Nat → List (BitVec 64) → Bytes
  | 0, _ => []
  | n + 1, a => ((a.flatMap fun w => bytesLE 8 w.toNat).take rate) ++ squeeze rate n (keccakF a)
/-- The sponge: rate, domain byte, output length. -/
def sponge (rate : Nat) (dom : BitVec 8) (out : Nat) (l : Bytes) : Bytes :=
  let z := (2 * rate - 1 - l.length % rate) % rate
  let p := if z = 0 then l ++ [dom ^^^ 0x80] else l ++ [dom] ++ zeros (z - 1) ++ [0x80]
  (squeeze rate ((out + rate - 1) / rate) ((chunk rate p).foldl absorb (List.replicate 25 0))).take out
def sha3_256 (l : Bytes) : Bytes := sponge 136 0x06 32 l
/-- R306 job 0x02 by its parameter: SHA3-256, -384, -512, SHAKE128, SHAKE256 with `n` output bytes. -/
def sha3 (v n : Nat) (l : Bytes) : Bytes :=
  match v with
  | 0 => sha3_256 l
  | 1 => sponge 104 0x06 48 l
  | 2 => sponge 72 0x06 64 l
  | 3 => sponge 168 0x1F n l
  | _ => sponge 136 0x1F n l

/-- The message word orders of BLAKE2b's rounds. -/
def blakeSigma : List (List Nat) :=
  [[0, 1, 2, 3, 4, 5, 6, 7, 8, 9, 10, 11, 12, 13, 14, 15]] ++
  [[14, 10, 4, 8, 9, 15, 13, 6, 1, 12, 0, 2, 11, 7, 5, 3]] ++
  [[11, 8, 12, 0, 5, 2, 15, 13, 10, 14, 3, 6, 7, 1, 9, 4]] ++
  [[7, 9, 3, 1, 13, 12, 11, 14, 2, 6, 5, 10, 4, 0, 15, 8]] ++
  [[9, 0, 5, 7, 2, 4, 10, 15, 14, 1, 11, 12, 6, 8, 3, 13]] ++
  [[2, 12, 6, 10, 0, 11, 8, 3, 4, 13, 7, 5, 15, 14, 1, 9]] ++
  [[12, 5, 1, 15, 14, 13, 4, 10, 0, 7, 6, 3, 9, 2, 8, 11]] ++
  [[13, 11, 7, 14, 12, 1, 3, 9, 5, 0, 15, 4, 8, 6, 2, 10]] ++
  [[6, 15, 14, 9, 11, 3, 0, 8, 12, 2, 13, 7, 1, 4, 10, 5]] ++
  [[10, 2, 8, 4, 7, 6, 1, 5, 15, 11, 9, 14, 3, 12, 13, 0]]

/-- BLAKE2b's mixing of lanes `a`, `b`, `c`, `d` with two message words. -/
def blakeG (v : List (BitVec 64)) (a b c d : Nat) (x y : BitVec 64) : List (BitVec 64) :=
  let va := at_ v a + at_ v b + x
  let vd := (at_ v d ^^^ va).rotateRight 32
  let vc := at_ v c + vd
  let vb := (at_ v b ^^^ vc).rotateRight 24
  let va := va + vb + y
  let vd := (vd ^^^ va).rotateRight 16
  let vc := vc + vd
  let vb := (vb ^^^ vc).rotateRight 63
  (((v.set a va).set b vb).set c vc).set d vd
/-- The lanes of the eight mixings of a round. -/
def blakeLanes : List (Nat × Nat × Nat × Nat) :=
  [(0, 4, 8, 12), (1, 5, 9, 13), (2, 6, 10, 14), (3, 7, 11, 15), (0, 5, 10, 15), (1, 6, 11, 12), (2, 7, 8, 13), (3, 4, 9, 14)]
def blakeRound (m v : List (BitVec 64)) (sg : List Nat) : List (BitVec 64) :=
  (List.zip (List.range 8) blakeLanes).foldl (fun v p =>
    blakeG v p.2.1 p.2.2.1 p.2.2.2.1 p.2.2.2.2 (at_ m (sg.getD (2 * p.1) 0)) (at_ m (sg.getD (2 * p.1 + 1) 0))) v
/-- BLAKE2b compression: chaining value, block, bytes so far, last block. -/
def blakeCompress (h : List (BitVec 64)) (blk : Bytes) (t : Nat) (last : Bool) : List (BitVec 64) :=
  let m := (chunk 8 (fitBytes 128 blk)).map fun c => BitVec.ofNat 64 (natLE c)
  let iv := sha2Iv.take 8
  let v := h ++ iv.take 4 ++ [at_ iv 4 ^^^ BitVec.ofNat 64 t, at_ iv 5 ^^^ BitVec.ofNat 64 (t / 2 ^ 64),
    if last then ~~~(at_ iv 6) else at_ iv 6, at_ iv 7]
  let v := (blakeSigma ++ blakeSigma.take 2).foldl (blakeRound m) v
  (List.range 8).map fun i => at_ h i ^^^ at_ v i ^^^ at_ v (i + 8)
def blakeBlocks (h : List (BitVec 64)) : Nat → List Bytes → List (BitVec 64)
  | _, [] => h
  | t, [b] => blakeCompress h b (t + b.length) true
  | t, b :: r => blakeBlocks (blakeCompress h b (t + 128) false) (t + 128) r
/-- BLAKE2b with an output of `n` bytes and a key of up to 64 bytes. -/
def blake2b (n : Nat) (key msg : Bytes) : Bytes :=
  let h := match sha2Iv.take 8 with
    | x :: r => (x ^^^ BitVec.ofNat 64 (0x01010000 + key.length * 256 + n)) :: r
    | [] => []
  let data := if key.isEmpty then msg else fitBytes 128 key ++ msg
  let bs := if data.isEmpty then [[]] else chunk 128 data
  ((blakeBlocks h 0 bs).flatMap fun w => bytesLE 8 w.toNat).take n

end Sys2Proof.Machine
end

