-- ==== Sys2Proof/Machine/Aes.lean ====
section
/-!
DEFINITION. AES and what the spec builds on it by its standards (notes/assumptions/5.md): GCM, XTS, key wrap with padding
and CTR_DRBG.
-/
namespace Sys2Proof.Machine

/-- The S-box of AES. -/
def aesSbox : List (BitVec 8) :=
  [0x63, 0x7C, 0x77, 0x7B, 0xF2, 0x6B, 0x6F, 0xC5, 0x30, 0x01, 0x67, 0x2B, 0xFE, 0xD7, 0xAB, 0x76] ++
  [0xCA, 0x82, 0xC9, 0x7D, 0xFA, 0x59, 0x47, 0xF0, 0xAD, 0xD4, 0xA2, 0xAF, 0x9C, 0xA4, 0x72, 0xC0] ++
  [0xB7, 0xFD, 0x93, 0x26, 0x36, 0x3F, 0xF7, 0xCC, 0x34, 0xA5, 0xE5, 0xF1, 0x71, 0xD8, 0x31, 0x15] ++
  [0x04, 0xC7, 0x23, 0xC3, 0x18, 0x96, 0x05, 0x9A, 0x07, 0x12, 0x80, 0xE2, 0xEB, 0x27, 0xB2, 0x75] ++
  [0x09, 0x83, 0x2C, 0x1A, 0x1B, 0x6E, 0x5A, 0xA0, 0x52, 0x3B, 0xD6, 0xB3, 0x29, 0xE3, 0x2F, 0x84] ++
  [0x53, 0xD1, 0x00, 0xED, 0x20, 0xFC, 0xB1, 0x5B, 0x6A, 0xCB, 0xBE, 0x39, 0x4A, 0x4C, 0x58, 0xCF] ++
  [0xD0, 0xEF, 0xAA, 0xFB, 0x43, 0x4D, 0x33, 0x85, 0x45, 0xF9, 0x02, 0x7F, 0x50, 0x3C, 0x9F, 0xA8] ++
  [0x51, 0xA3, 0x40, 0x8F, 0x92, 0x9D, 0x38, 0xF5, 0xBC, 0xB6, 0xDA, 0x21, 0x10, 0xFF, 0xF3, 0xD2] ++
  [0xCD, 0x0C, 0x13, 0xEC, 0x5F, 0x97, 0x44, 0x17, 0xC4, 0xA7, 0x7E, 0x3D, 0x64, 0x5D, 0x19, 0x73] ++
  [0x60, 0x81, 0x4F, 0xDC, 0x22, 0x2A, 0x90, 0x88, 0x46, 0xEE, 0xB8, 0x14, 0xDE, 0x5E, 0x0B, 0xDB] ++
  [0xE0, 0x32, 0x3A, 0x0A, 0x49, 0x06, 0x24, 0x5C, 0xC2, 0xD3, 0xAC, 0x62, 0x91, 0x95, 0xE4, 0x79] ++
  [0xE7, 0xC8, 0x37, 0x6D, 0x8D, 0xD5, 0x4E, 0xA9, 0x6C, 0x56, 0xF4, 0xEA, 0x65, 0x7A, 0xAE, 0x08] ++
  [0xBA, 0x78, 0x25, 0x2E, 0x1C, 0xA6, 0xB4, 0xC6, 0xE8, 0xDD, 0x74, 0x1F, 0x4B, 0xBD, 0x8B, 0x8A] ++
  [0x70, 0x3E, 0xB5, 0x66, 0x48, 0x03, 0xF6, 0x0E, 0x61, 0x35, 0x57, 0xB9, 0x86, 0xC1, 0x1D, 0x9E] ++
  [0xE1, 0xF8, 0x98, 0x11, 0x69, 0xD9, 0x8E, 0x94, 0x9B, 0x1E, 0x87, 0xE9, 0xCE, 0x55, 0x28, 0xDF] ++
  [0x8C, 0xA1, 0x89, 0x0D, 0xBF, 0xE6, 0x42, 0x68, 0x41, 0x99, 0x2D, 0x0F, 0xB0, 0x54, 0xBB, 0x16]
def subByte (b : BitVec 8) : BitVec 8 := at_ aesSbox b.toNat
def invSubByte (b : BitVec 8) : BitVec 8 := BitVec.ofNat 8 (aesSbox.findIdx (· == b))
/-- Doubling in AES's field. -/
def xtime (b : BitVec 8) : BitVec 8 := (b <<< 1) ^^^ (if b.getLsbD 7 then 0x1B else 0)
/-- The product of a byte with a small constant. -/
def gf8 (k : Nat) (b : BitVec 8) : BitVec 8 :=
  (if k % 2 = 1 then b else 0) ^^^ (if k / 2 % 2 = 1 then xtime b else 0) ^^^ (if k / 4 % 2 = 1 then xtime (xtime b) else 0)
    ^^^ (if k / 8 % 2 = 1 then xtime (xtime (xtime b)) else 0)
def xorB (a b : Bytes) : Bytes := List.zipWith (· ^^^ ·) a b

/-- The round keys of a 16 or 32 byte key: its words, oldest first, extended to `n` more. -/
def aesExpand (nk : Nat) : Nat → BitVec 8 → List Bytes → List Bytes
  | 0, _, l => l
  | n + 1, rc, l =>
    let i := l.length
    let p := l.getLastD []
    let t := if i % nk = 0 then (match (p.drop 1 ++ p.take 1).map subByte with | x :: r => (x ^^^ rc) :: r | [] => [])
      else if nk = 8 && i % nk = 4 then p.map subByte else p
    aesExpand nk n (if i % nk = 0 then xtime rc else rc) (l ++ [xorB (l.getD (i - nk) []) t])
/-- The round keys, 16 bytes each. -/
def aesKeys (key : Bytes) : List Bytes :=
  let nk := key.length / 4
  chunk 16 (aesExpand nk (4 * (nk + 7) - nk) 1 (chunk 4 key)).flatten

def shiftRows (s : Bytes) : Bytes := (List.range 16).map fun i => at_ s ((i + 4 * (i % 4)) % 16)
def invShiftRows (s : Bytes) : Bytes := (List.range 16).map fun i => at_ s ((i + 12 * (i % 4)) % 16)
/-- MixColumns with the coefficients of its first row. -/
def mixCols (k : List Nat) (s : Bytes) : Bytes :=
  (List.range 16).map fun i =>
    (List.range 4).foldl (fun a j => a ^^^ gf8 (k.getD ((j + 4 - i % 4) % 4) 0) (at_ s (i / 4 * 4 + j))) 0

def aesRounds : List Bytes → Bytes → Bytes
  | [], s => s
  | [k], s => xorB (shiftRows (s.map subByte)) k
  | k :: t, s => aesRounds t (xorB (mixCols [2, 3, 1, 1] (shiftRows (s.map subByte))) k)
/-- AES encryption of a block under round keys. -/
def aesEncK (ks : List Bytes) (b : Bytes) : Bytes := aesRounds ks.tail (xorB b (ks.headD []))
def aesInvRounds : List Bytes → Bytes → Bytes
  | [], s => s
  | [k], s => xorB ((invShiftRows s).map invSubByte) k
  | k :: t, s => aesInvRounds t (mixCols [14, 11, 13, 9] (xorB ((invShiftRows s).map invSubByte) k))
/-- AES decryption of a block under round keys. -/
def aesDecK (ks : List Bytes) (b : Bytes) : Bytes := aesInvRounds ks.reverse.tail (xorB b (ks.getLastD []))
def aesEnc (key b : Bytes) : Bytes := aesEncK (aesKeys key) b
def aesDec (key b : Bytes) : Bytes := aesDecK (aesKeys key) b

/-! ### GCM -/

/-- One step of the product of R300 GMUL, on blocks read big-endian, most significant bit the coefficient of x^0. -/
def gmulStep (x : Nat) (p : Nat × Nat) (i : Nat) : Nat × Nat :=
  (if x / 2 ^ (127 - i) % 2 = 1 then Nat.xor p.1 p.2 else p.1,
   if p.2 % 2 = 1 then Nat.xor (p.2 / 2) (0xE1 * 2 ^ 120) else p.2 / 2)
/-- The GF(2^128) product of NIST SP 800-38D. -/
def gmulNat (x y : Nat) : Nat := ((List.range 128).foldl (gmulStep x) (0, y)).1
/-- Bytes padded with zeros to a multiple of 16. -/
def pad16 (l : Bytes) : Bytes := l ++ zeros ((16 - l.length % 16) % 16)
def ghash (h : Nat) (l : Bytes) : Nat := (chunk 16 l).foldl (fun y b => gmulNat (Nat.xor y (natBE b)) h) 0
/-- Counter mode from a block of which the last four bytes count. -/
def ctrMode (ks : List Bytes) (iv : Bytes) : Nat → List Bytes → Bytes
  | _, [] => []
  | i, b :: t => xorB b (aesEncK ks (iv ++ bytesBE 4 (i % 2 ^ 32))) ++ ctrMode ks iv (i + 1) t
/-- AES-GCM with a 96-bit nonce: the text transformed, and the tag over a ciphertext. -/
def gcmCrypt (key nonce text : Bytes) : Bytes := ctrMode (aesKeys key) nonce 2 (chunk 16 text)
def gcmTag (key nonce aad ct : Bytes) : Bytes :=
  let ks := aesKeys key
  let h := natBE (aesEncK ks (zeros 16))
  let y := ghash h (pad16 aad ++ pad16 ct ++ bytesBE 8 (8 * aad.length) ++ bytesBE 8 (8 * ct.length))
  bytesBE 16 (Nat.xor y (natBE (aesEncK ks (nonce ++ bytesBE 4 1))))

/-! ### XTS -/

/-- Multiplication of a tweak by x. -/
def xtsDouble (t : Bytes) : Bytes :=
  let n := natLE t
  bytesLE 16 (Nat.xor (n * 2 % 2 ^ 128) (if 2 ^ 127 ≤ n then 0x87 else 0))
def xtsBlock (enc : Bool) (ks : List Bytes) (t b : Bytes) : Bytes :=
  xorB (if enc then aesEncK ks (xorB b t) else aesDecK ks (xorB b t)) t
/-- XTS over blocks, the last two by ciphertext stealing where the last is short. -/
def xtsBlocks (enc : Bool) (ks : List Bytes) : Bytes → List Bytes → Bytes
  | _, [] => []
  | t, [b] => xtsBlock enc ks t b
  | t, [a, b] =>
    if b.length = 16 then xtsBlock enc ks t a ++ xtsBlock enc ks (xtsDouble t) b
    else
      let t1 := if enc then t else xtsDouble t
      let t2 := if enc then xtsDouble t else t
      let c := xtsBlock enc ks t1 a
      xtsBlock enc ks t2 (b ++ c.drop b.length) ++ c.take b.length
  | t, a :: b :: r => xtsBlock enc ks t a ++ xtsBlocks enc ks (xtsDouble t) (b :: r)
/-- AES-XTS of a data unit of at least 16 bytes. -/
def aesXts (enc : Bool) (k1 k2 tweak data : Bytes) : Bytes :=
  xtsBlocks enc (aesKeys k1) (aesEnc k2 tweak) (chunk 16 data)

/-! ### Key wrap with padding (NIST SP 800-38F) -/

/-- The wrapping steps `t`, `t + 1`, …: the register A and the semiblocks. -/
def kwSteps (ks : List Bytes) : Nat → Nat → Bytes × List Bytes → Bytes × List Bytes
  | _, 0, x => x
  | t, n + 1, (a, r) =>
    match r with
    | [] => (a, [])
    | r0 :: rs =>
      let b := aesEncK ks (a ++ r0)
      kwSteps ks (t + 1) n (xorB (b.take 8) (bytesBE 8 t), rs ++ [b.drop 8])
/-- The unwrapping steps `t`, `t - 1`, …, the semiblocks reversed. -/
def kwInv (ks : List Bytes) : Nat → Bytes × List Bytes → Bytes × List Bytes
  | 0, x => x
  | t + 1, (a, r) =>
    match r with
    | [] => (a, [])
    | r0 :: rs =>
      let b := aesDecK ks (xorB a (bytesBE 8 (t + 1)) ++ r0)
      kwInv ks t (b.take 8, rs ++ [b.drop 8])
/-- KWP of a plaintext. -/
def kwpWrap (key p : Bytes) : Bytes :=
  let ks := aesKeys key
  let icv : Bytes := [0xA6, 0x59, 0x59, 0xA6] ++ bytesBE 4 p.length
  let q := p ++ zeros ((8 - p.length % 8) % 8)
  if q.length ≤ 8 then aesEncK ks (icv ++ q)
  else
    let r := kwSteps ks 1 (6 * (q.length / 8)) (icv, chunk 8 q)
    r.1 ++ r.2.flatten
/-- KWP unwrapping; none where the integrity check fails. -/
def kwpUnwrap (key c : Bytes) : Option Bytes :=
  let ks := aesKeys key
  if c.length % 8 != 0 || c.length < 16 then none
  else
    let r := if c.length = 16 then let b := aesDecK ks c; (b.take 8, [b.drop 8])
      else kwInv ks (6 * (c.length / 8 - 1)) (c.take 8, (chunk 8 (c.drop 8)).reverse)
    let p := (if c.length = 16 then r.2 else r.2.reverse).flatten
    let n := natBE (r.1.drop 4)
    if r.1.take 4 == [0xA6, 0x59, 0x59, 0xA6] && n ≤ p.length && p.length < n + 8 && (p.drop n).all (· == 0) then
      some (p.take n)
    else none

/-! ### CTR_DRBG (NIST SP 800-90A, AES-256 with a derivation function) -/

/-- Key and V of an instance. -/
abbrev DrbgKV := Bytes × Bytes

/-- Output blocks of the counter from V. -/
def drbgBlocks (ks : List Bytes) : Nat → Nat → Bytes
  | 0, _ => []
  | n + 1, v => aesEncK ks (bytesBE 16 ((v + 1) % 2 ^ 128)) ++ drbgBlocks ks n (v + 1)
/-- The update function. -/
def drbgUpdate (x : DrbgKV) (data : Bytes) : DrbgKV :=
  let t := xorB (drbgBlocks (aesKeys x.1) 3 (natBE x.2)) data
  (t.take 32, t.drop 32)
/-- The chaining of the derivation function. -/
def drbgBcc (ks : List Bytes) (l : Bytes) : Bytes := (chunk 16 l).foldl (fun c b => aesEncK ks (xorB c b)) (zeros 16)
/-- The output blocks of the derivation function. -/
def drbgDfOut (ks : List Bytes) : Nat → Bytes → Bytes
  | 0, _ => []
  | n + 1, x => let y := aesEncK ks x; y ++ drbgDfOut ks n y
/-- The derivation function, with a result of 48 bytes. -/
def drbgDf (input : Bytes) : Bytes :=
  let s := pad16 (bytesBE 4 input.length ++ bytesBE 4 48 ++ input ++ [0x80])
  let ks := aesKeys ((List.range 32).map fun i => BitVec.ofNat 8 i)
  let t := (List.range 3).flatMap fun i => drbgBcc ks (bytesBE 4 i ++ zeros 12 ++ s)
  drbgDfOut (aesKeys (t.take 32)) 3 ((t.drop 32).take 16)
def drbgInstantiate (entropy pers : Bytes) : DrbgKV := drbgUpdate (zeros 32, zeros 16) (drbgDf (entropy ++ pers))
def drbgReseedKV (x : DrbgKV) (entropy : Bytes) : DrbgKV := drbgUpdate x (drbgDf entropy)
/-- One generate request of `n` bytes. -/
def drbgGenerate (x : DrbgKV) (n : Nat) : Bytes × DrbgKV :=
  let ks := aesKeys x.1
  let k := (n + 15) / 16
  ((drbgBlocks ks k (natBE x.2)).take n, drbgUpdate (x.1, bytesBE 16 ((natBE x.2 + k) % 2 ^ 128)) (zeros 48))

end Sys2Proof.Machine
end

