-- ==== Sys2Proof/Machine/Line.lean ====
section
/-!
DEFINITION. A line in DRAM: the plaintext of a codeword, its encryption (R266), the line code over the ciphertext (R267, R268)
and where its bits stand in the burst (R63).
-/
namespace Sys2Proof.Machine

/-! ### The data unit (R63, R266) -/

/-- R266: the 36 bytes of a codeword of four words: the payloads, then the tags. -/
def cwBytes (ws : List Word) : Bytes := ws.flatMap (fun w => bytesLE 8 w.pay.toNat) ++ ws.map Word.tag
/-- R266: the four words of such bytes. -/
def bytesCw (b : Bytes) : List Word :=
  (List.range 4).map fun k => ⟨b.getD (32 + k) 0, BitVec.ofNat 64 (natLE ((b.drop (8 * k)).take 8))⟩
/-- R266: the tweak of codeword `cw` of line `l`, and the address value of R267. -/
def cwAddr (l cw : Nat) : Nat := l * 2 + cw
/-- R266: the encryption of a codeword's data unit under a cell key. -/
def cwCrypt (enc : Bool) (key : BitVec 512) (l cw : Nat) (b : Bytes) : Bytes :=
  let k := bytesLE 64 key.toNat
  aesXts enc (k.take 32) (k.drop 32) (bytesLE 16 (cwAddr l cw)) b
/-- R63, R267: D(0) to D(35): byte D(9k + d) holds what device `d` carries in beat pair `k`, a nibble of the payload's upper
half, sent in the odd beat, above one of its lower half; device 8 carries the tag. -/
def cwData (b : Bytes) : Bytes :=
  (List.range 4).flatMap fun k =>
    let p := natLE ((b.drop (8 * k)).take 8)
    (List.range 8).map (fun d => BitVec.ofNat 8 (p / 2 ^ (4 * d + 32) % 16 * 16 + p / 2 ^ (4 * d) % 16)) ++ [b.getD (32 + k) 0]
/-- The data unit whose bytes D are given. -/
def dataCw (d : Bytes) : Bytes :=
  let at_ := fun (k i : Nat) => (d.getD (9 * k + i) 0).toNat
  (List.range 4).flatMap (fun k => bytesLE 8 ((List.range 8).foldl (fun p i =>
    p + at_ k i / 16 * 2 ^ (4 * i + 32) + at_ k i % 16 * 2 ^ (4 * i)) 0)) ++ (List.range 4).map fun k => d.getD (9 * k + 8) 0

/-! ### The line code (R267, R268) -/

/-- Product in GF(2^8) with x^8 + x^4 + x^3 + x^2 + 1. -/
def gfMul (a b : Nat) : Nat :=
  (List.range 8).foldl (fun (st : Nat × Nat) i =>
    (if b / 2 ^ i % 2 == 1 then Nat.xor st.1 st.2 else st.1,
     if st.2 ≥ 128 then Nat.xor (st.2 * 2 % 256) 0x1D else st.2 * 2)) (0, a % 256) |>.1
/-- α^m. -/
def gfPow (m : Nat) : Nat := iter (gfMul 2) (m % 255) 1

/-- What a codeword decodes to. -/
inductive CwOut where
  | clean
  | corrected (p : Nat) (v : Nat)
  | address
  | uncorrectable
  deriving DecidableEq, Repr

/-- The errors of a codeword by byte position, merged, none zero. -/
def normErr (e : List (Nat × BitVec 8)) : List (Nat × BitVec 8) :=
  (List.range 45).filterMap fun p =>
    let v := e.foldl (fun (x : BitVec 8) q => if q.1 == p then x ^^^ q.2 else x) 0
    if v == 0 then none else some (p, v)

/-- R268: S_m of an error pattern; the code is linear, so the rest of the codeword adds nothing. -/
def syndrome (e : List (Nat × BitVec 8)) (m : Nat) : Nat :=
  e.foldl (fun x q => Nat.xor x (gfMul q.2.toNat (gfPow (m * q.1)))) 0

/-- R268: the outcome of a codeword with the errors given. -/
def cwOutcome (e : List (Nat × BitVec 8)) : CwOut :=
  let s := (List.range 4).map (syndrome e)
  let v := s.getD 0 0
  if s.all (· == 0) then .clean
  else match (List.range 45).find? fun p => v != 0 && (List.range 4).all fun m => s.getD m 0 == gfMul v (gfPow (m * p)) with
    | some p => if p < 40 then .corrected p v else .address
    | none => .uncorrectable

/-- R268: the errors that are left in a codeword after decoding: a clean one is used as it stands, a corrected one with its
byte repaired. -/
def CwOut.left (o : CwOut) (e : List (Nat × BitVec 8)) : List (Nat × BitVec 8) :=
  match o with
  | .corrected p v => normErr ((p, BitVec.ofNat 8 v) :: e)
  | _ => e

/-- The errors of codeword `cw` in an operand: byte p of codeword 0 is p, of codeword 1 is 64 + p. -/
def errOf (cw : Nat) (e : List (Nat × BitVec 8)) : List (Nat × BitVec 8) :=
  (e.filter fun q => q.1 / 64 == cw).map fun q => (q.1 % 64, q.2)

/-! ### The check bytes (R267) -/

/-- The product of (x + α^0) to (x + α^3), without its leading term, highest power first. -/
def lineGen : List Nat :=
  ((List.range 4).foldl (fun g m => (List.range (g.length + 1)).map fun i =>
    Nat.xor (g.getD i 0) (if i = 0 then 0 else gfMul (g.getD (i - 1) 0) (gfPow m))) [1]).drop 1
/-- R267: C(0) to C(3): the bytes that make c(x) vanish at α^0 to α^3, for data bytes D and address bytes A. -/
def lineCheck (d : Bytes) (addr : Nat) : Bytes :=
  let msg := ((bytesLE 5 addr).reverse ++ d.reverse).map BitVec.toNat
  ((msg.foldl (fun r m =>
    let f := Nat.xor m (r.headD 0)
    (List.range 4).map fun i => Nat.xor (r.getD (i + 1) 0) (gfMul f (lineGen.getD i 0))) (List.replicate 4 0)).reverse).map
      (BitVec.ofNat 8)
/-- R267: the 45 bytes of a codeword of four words, by power of x: the check bytes, D over the ciphertext, the address. -/
def lineCode (key : BitVec 512) (l cw : Nat) (ws : List Word) : Bytes :=
  let d := cwData (cwCrypt true key l cw (cwBytes ws))
  lineCheck d (cwAddr l cw) ++ d ++ bytesLE 5 (cwAddr l cw)
/-- R63: the nibble that device `dev` carries in beat `b` of a burst, whose two codewords are given. -/
def burstNibble (c0 c1 : Bytes) (b dev : Nat) : Nat :=
  let k := b % 8 / 2
  let v := ((if b < 8 then c0 else c1).getD (if dev = 9 then k else 4 + 9 * k + dev) 0).toNat
  if b % 2 = 1 then v / 16 else v % 16

end Sys2Proof.Machine
end

