-- ==== Sys2Proof/Machine/Mem.lean ====
section
/-!
DEFINITION. External memory (chapter 10): the address map, the line code, the fresh-region map and its fill engine, error
records, the flip-mask test and the Hoe.
-/
namespace Sys2Proof.Machine

/-! ### Address map (R262, R264, R207) -/

/-- The cell of a physical line. -/
def cellOfLine (l : Nat) : Nat := l / 2 ^ 34
/-- R264: the cell line address. -/
def lineInCell (l : Nat) : Nat := l % 2 ^ 34
/-- R283: MEM_CFG of a cell: that of its first channel, since all are populated alike (R262). -/
def State.memCfg (s : State) (n : Nat) : BitVec 32 := s.rd .memCfg (n * s.build.chanPerCell)
/-- R262: r. -/
def State.rowBits (s : State) (n : Nat) : Nat := 16 + fld (s.memCfg n) 4 4
/-- R262: k. -/
def State.rankBits (s : State) (n : Nat) : Nat := fld (s.memCfg n) 9 8
/-- R262: the lines of a cell. -/
def State.capLines (s : State) (n : Nat) : Nat :=
  if fld (s.memCfg n) 13 12 == 0 then 0 else 2 ^ (s.build.subLog + s.rowBits n + 12 + s.rankBits n)
/-- R264: the bank index of a cell line address. -/
def State.bankIndex (s : State) (n x : Nat) : Nat :=
  let b := s.build.subLog + s.rowBits n
  x / 2 ^ (b + 12) % 2 ^ s.rankBits n * 32 + x / 2 ^ (b + 9) % 8 * 4 + x / 2 ^ (b + 7) % 4
/-- R264: SUB. -/
def State.subIndex (s : State) (n x : Nat) : Nat :=
  let k := s.build.subLog
  Nat.xor (x % 2 ^ k) (x / 2 ^ (k + 7) % 2 ^ s.rowBits n % 2 ^ k)
/-- R264: the global channel of a line. -/
def State.chanOfLine (s : State) (l : Nat) : Nat :=
  cellOfLine l * s.build.chanPerCell + s.subIndex (cellOfLine l) (lineInCell l) / 2
/-- R440: the PHY group of a channel. -/
def State.phyOf (s : State) (ch : Nat) : Nat := match s.build with | .t48 => ch / 3 | .t16 => ch
/-- R29: the channel is inside its calibration slot. -/
def State.chanCal (s : State) (ch : Nat) : Bool := (s.cell (s.build.cellOfChan ch)).cal.getLsbD (ch % s.build.chanPerCell)
/-- R29, R446: the channel returns no data: it calibrates, or the PLL of its PHY group has lost lock. -/
def State.chanHeld (s : State) (ch : Nat) : Bool :=
  s.chanCal ch || (2 ≤ s.pwr.stage && !s.pwr.lock.getLsbD (3 + s.phyOf ch))
/-- R280: the bank is excluded. -/
def State.bankExcluded (s : State) (n bank : Nat) : Bool :=
  (Tab.get (fun _ => (0 : BitVec 32)) (s.cell n).exclOn (bank / 32)).getLsbD (bank % 32)
/-- R207, R264, R280: the line lies in the populated memory of an existing cell. -/
def State.linePopulated (s : State) (l : Nat) : Bool :=
  let n := cellOfLine l
  n < s.build.cells && lineInCell l < s.capLines n && !s.bankExcluded n (s.bankIndex n (lineInCell l))
/-- R281: the descriptor in force. -/
def State.birOn (s : State) (n d : Nat) : BitVec 32 := Tab.get (fun _ => (0 : BitVec 32)) (s.cell n).birOn d
/-- R281: the cell lines of a descriptor: the first and their number. -/
def State.birRange (s : State) (n : Nat) (v : BitVec 32) : Nat × Nat :=
  let b := s.build.subLog + s.rowBits n
  (fld v 21 20 * 2 ^ (b + 12) + fld v 18 16 * 2 ^ (b + 9), 2 ^ (b + 9))
/-- R281: the cell line lies in the range of a valid descriptor, whose number is answered. -/
def State.birOf (s : State) (n x : Nat) : Option Nat :=
  (List.range 8).find? fun d =>
    let v := s.birOn n d
    let r := s.birRange n v
    v.getLsbD 31 && r.1 ≤ x && x < r.1 + r.2
/-- R282: a running job holds the descriptor's region. -/
def State.birBusy (s : State) (n d : Nat) : Bool :=
  s.jobs.any fun e => match e.2 with
    | some j => (j.st == .running || j.st == .computed) && j.bir == some d && s.build.cellOfClu j.clu == n
    | none => false

/-! ### DRAM lines -/

def State.memWord (s : State) (pa : Nat) : Word := Tab.get (fun _ => Word.empty) s.mem pa
def State.setMemWord (s : State) (pa : Nat) (w : Word) : State :=
  { s with mem := Tab.set (fun _ => Word.empty) s.mem pa w }
/-- The eight words of a line as last written to DRAM. -/
def State.memLine (s : State) (l : Nat) : List Word := (List.range 8).map fun i => s.memWord (l * 8 + i)
def State.cwErr (s : State) (l cw : Nat) : List (Nat × BitVec 8) := Tab.get (fun _ => []) s.memErr (l * 2 + cw)
def State.setCwErr (s : State) (l cw : Nat) (e : List (Nat × BitVec 8)) : State :=
  { s with memErr := Tab.set (fun _ => []) s.memErr (l * 2 + cw) e }

/-- R276: the errors that the flip mask puts into a codeword: bits 8k to 8k+7 of the mask fall on byte k of the device. -/
def flipErr (mask : BitVec 32) (lane : Nat) : List (Nat × BitVec 8) :=
  normErr ((List.range 4).map fun k =>
    ((if lane == 9 then k else 4 + 9 * k + lane), BitVec.ofNat 8 (fld mask (8 * k + 7) (8 * k))))

/-- R276: the channel of the line is armed for it. -/
def State.flipArmed (s : State) (l : Nat) : Bool :=
  let c := s.chanOfLine l
  let v := s.rd .memFlipctl c
  v.getLsbD 31 && fld v 3 0 < 10 && (s.rd .memFlipline c).toNat + fld (s.rd .memFliplineh c) 3 0 * 2 ^ 32 == l

/-- R276: what an armed flip mask does to a write of the line. -/
def State.flip (s : State) (l : Nat) : State :=
  if s.flipArmed l then
    let c := s.chanOfLine l
    let v := s.rd .memFlipctl c
    (s.setCwErr l (fld v 16 16) (flipErr (s.rd .memFlipmask c) (fld v 3 0))).wr .memFlipctl c 0
      ((v &&& 0x7FFFFFFF) ||| 0x40000000)
  else s

/-- Store words from a physical word address upward. -/
def storeWords (s : State) (pa : Nat) : List Word → State
  | [] => s
  | w :: t => storeWords (s.setMemWord pa w) (pa + 1) t

/-- A write of a whole line: new codewords (R266, R267), and the flip-mask test. -/
def State.dramWrite (s : State) (l : Nat) (ws : List Word) : State :=
  (((storeWords s (l * 8) (ws.take 8)).setCwErr l 0 []).setCwErr l 1 []).flip l

/-- R278: record a memory event of a line: source, type, codeword, position, error value. -/
def State.memEvent (s : State) (l src type cw pos eval : Nat) : State :=
  let c := s.chanOfLine l
  let arg := BitVec.ofNat 32 (2 ^ 31 + src * 2 ^ 24 + type * 2 ^ 20 + cw * 2 ^ 16 + pos * 2 ^ 8 + eval)
  let ue := type == 2 || type == 3
  let s := s.inc32 (if ue then .memUecnt else .memCecnt) c
  let v := s.rd .memErrstat c
  let put := fun (s : State) (esc : Bool) =>
    (((s.wr .memErrstat c 0 (arg ||| (v &&& 0x40000000) ||| (if esc then 0x20000000 else v &&& 0x20000000))).wr
      .memErraddr c 0 (BitVec.ofNat 32 l)).wr .memErraddrh c 0 (BitVec.ofNat 32 (l / 2 ^ 32 % 16))).wr
      .memErrfrm c 0 (BitVec.ofNat 32 s.frame)
  let s :=
    if !v.getLsbD 31 then put s false
    else if (fld v 23 20 == 1 || fld v 23 20 == 4) && ue then put s true
    else s.wr .memErrstat c 0 (v ||| 0x40000000)
  s.elogEnter (cellOfLine l) 0x40 c (if ue then 3 else 2) arg l

/-- R266, R268: the words that a codeword delivers, with the errors `left` in it after decoding: those written, or, where the
code was deceived in data bytes, what the decryption of the ciphertext so changed gives. -/
def State.cwWords (s : State) (l cw : Nat) (left : List (Nat × BitVec 8)) : List Word :=
  let ws := (List.range 4).map fun i => s.memWord (l * 8 + cw * 4 + i)
  let e := left.filter fun x => 4 ≤ x.1 && x.1 < 40
  if e.isEmpty then ws
  else
    let key := (s.cell (cellOfLine l)).key
    let d := cwData (cwCrypt true key l cw (cwBytes ws))
    bytesCw (cwCrypt false key l cw (dataCw (d.mapIdx fun i b => e.foldl (fun b x => if x.1 == 4 + i then b ^^^ x.2 else b) b)))

/-- One codeword of a read. -/
structure CwRead where
  ws : List Word
  /-- The line is to be written back. -/
  fixed : Bool
  /-- R269: still uncorrectable after the second read. -/
  bad : Bool
  deriving DecidableEq, Repr

/-- R269: a codeword of a read of line `l` by source `src`, with errors `e1` on the first read and `e2` on a second one
beside those stored. An uncorrectable codeword is delivered as `POISON` of SUB `sub`; TYPE is that of the first read where the
second fails otherwise (DESIGN CHOICE, log 53: the rule does not say which is logged). -/
def State.readCw (s : State) (l cw src sub : Nat) (e1 e2 : List (Nat × BitVec 8)) : CwRead × State :=
  let a := normErr (s.cwErr l cw ++ errOf cw e1)
  match cwOutcome a with
  | .clean =>
    (⟨s.cwWords l cw a, false, false⟩, s)
  | .corrected p v =>
    (⟨s.cwWords l cw ((CwOut.corrected p v).left a), true, false⟩, s.memEvent l src 1 cw p v)
  | o =>
    let b := normErr (s.cwErr l cw ++ errOf cw e2)
    let o2 := cwOutcome b
    if o2 == .clean || (match o2 with | .corrected _ _ => true | _ => false) then
      (⟨s.cwWords l cw (o2.left b), o2 != .clean, false⟩, s.memEvent l src 4 cw 0x3F 0)
    else
      (⟨(List.range 4).map (fun i => Word.poison sub (l * 8 + cw * 4 + i)), true, true⟩,
       s.memEvent l src (if o == .address then 3 else 2) cw 0x3F 0)

/-- R269: whether a read with the errors `e1` needs a second read. -/
def State.needsReread (s : State) (l : Nat) (e1 : List (Nat × BitVec 8)) : Bool :=
  [0, 1].any fun cw => match cwOutcome (normErr (s.cwErr l cw ++ errOf cw e1)) with
    | .address | .uncorrectable => true
    | _ => false

/-- R269: a read of a line that lies in a filled region: its words, and the line written back where a codeword was repaired
or poisoned. -/
def State.dramRead (s : State) (l src : Nat) (e1 e2 : List (Nat × BitVec 8)) : List Word × State :=
  let a := s.readCw l 0 src 0 e1 e2
  let b := a.2.readCw l 1 src 0 e1 e2
  let ws := a.1.ws ++ b.1.ws
  (ws, if a.1.fixed || b.1.fixed then b.2.dramWrite l ws else b.2)

/-- R273: the words under a partial write: an uncorrectable codeword is `POISON` of SUB 1, and nothing is written back here. -/
def State.dramReadPartial (s : State) (l : Nat) (e1 e2 : List (Nat × BitVec 8)) : List Word × State :=
  let a := s.readCw l 0 1 1 e1 e2
  let b := a.2.readCw l 1 1 1 e1 e2
  (a.1.ws ++ b.1.ws, b.2)

/-! ### The fresh-region map and the fill engine (R270 to R272) -/

/-- Words of eight `EMPTY`. -/
def emptyLine : List Word := List.replicate 8 Word.empty
/-- The region of a cell line. -/
def regionOf (x : Nat) : Nat := x / 16384
def State.isFilled (s : State) (n r : Nat) : Bool := Tab.get (fun _ => false) s.filled (n * 2 ^ 20 + r)
def State.setFilled (s : State) (n r : Nat) (b : Bool) : State :=
  { s with filled := Tab.set (fun _ => false) s.filled (n * 2 ^ 20 + r) b }
/-- The region of a line is filled. -/
def State.lineFilled (s : State) (l : Nat) : Bool := s.isFilled (cellOfLine l) (regionOf (lineInCell l))
/-- The filled regions of a cell, ascending. -/
def State.filledRegions (s : State) (n : Nat) : List Nat :=
  (s.filled.filter fun e => e.1 / 2 ^ 20 == n && e.2).map fun e => e.1 % 2 ^ 20
/-- The contents of a region are lost. -/
def State.dropRegion (s : State) (n r : Nat) : State :=
  let a := (n * 2 ^ 34 + r * 16384) * 8
  { s with mem := Tab.drop (fun k => a ≤ k && k < a + 131072) s.mem
           memErr := Tab.drop (fun k => a / 4 ≤ k && k < a / 4 + 32768) s.memErr }
/-- R272: the map bit of a region cleared, and its contents with it. -/
def State.clearRegion (s : State) (n r : Nat) : State := (s.dropRegion n r).setFilled n r false
/-- R272: the map of a cell cleared. -/
def State.clearMap (s : State) (n : Nat) : State :=
  { s with filled := Tab.drop (fun k => k / 2 ^ 20 == n) s.filled
           mem := Tab.drop (fun k => k / 2 ^ 37 == n) s.mem
           memErr := Tab.drop (fun k => k / 2 ^ 35 == n) s.memErr }
/-- R271: a region filled with `EMPTY`: its map bit set, and the flip mask applied where it names one of its lines. -/
def State.fillRegion (s : State) (n r : Nat) : State :=
  let s := (s.dropRegion n r).setFilled n r true
  (List.range s.build.chanPerCell).foldl (fun s i =>
    let c := n * s.build.chanPerCell + i
    let l := (s.rd .memFlipline c).toNat + fld (s.rd .memFliplineh c) 3 0 * 2 ^ 32
    if cellOfLine l == n && regionOf (lineInCell l) == r && s.chanOfLine l == c then s.flip l else s) s
/-- The region may be filled: within capacity and in no excluded bank. -/
def State.regionUsable (s : State) (n r : Nat) : Bool :=
  r * 16384 < s.capLines n && !s.bankExcluded n (s.bankIndex n (r * 16384))

/-- R271: the region is queued or being filled. -/
def Cell.fillKnown (k : Cell) (r : Nat) : Bool := k.fillq.contains r || k.filling == some r
/-- R271: requests that waited for room enter the queue, oldest first. -/
def Cell.fillRoom (k : Cell) : Cell :=
  let n := 16 - k.fillq.length
  { k with fillq := k.fillq ++ k.fillLate.take n, fillLate := k.fillLate.drop n }
/-- R271: an idle fill engine takes the oldest request. -/
def Cell.fillStart (k : Cell) : Cell :=
  match k.filling, k.fillq with
  | none, r :: t => ({ k with filling := some r, fillq := t } : Cell).fillRoom
  | _, _ => k

/-- R271: a write asks for the fill of its region: merged, queued, or left to wait while the queue is full. -/
def State.askFill (s : State) (n r : Nat) : State :=
  let k := s.cell n
  let at0 := Tab.get (fun _ => 0) k.fillAt r
  let k := if at0 == 0 then { k with fillAt := Tab.set (fun _ => 0) k.fillAt r (s.clock + 1) } else k
  s.setCell n (if k.fillKnown r || k.fillLate.contains r then k
    else ({ k with fillLate := k.fillLate ++ [r] } : Cell).fillRoom)

/-- REGION_FILL_START (R271): an idle fill engine takes the oldest request. -/
def execRegionFillStart (n : Nat) (s : State) : Out :=
  onCell s n (s.modCell n Cell.fillStart)

/-- R271, R284: the fill being made ends: the region is filled and the longest wait of a write is kept. -/
def State.fillDone (s : State) (n : Nat) : State :=
  match (s.cell n).filling with
  | none => s
  | some r =>
    let at0 := Tab.get (fun _ => 0) (s.cell n).fillAt r
    let s := s.modCell n fun k => { k with filling := none, fillAt := Tab.set (fun _ => 0) k.fillAt r 0 }
    let s := if s.regionUsable n r && !s.isFilled n r then s.fillRegion n r else s
    let wait := s.clock + 1 - at0
    if at0 != 0 && (s.rd .homeFillmax (4 * n)).toNat < wait then
      s.wr .homeFillmax (4 * n) 0 (BitVec.ofNat 32 (min wait (2 ^ 32 - 1)))
    else s

/-- R284: a write of HOME_FILLREQ. -/
def fillreqWrite (n : Nat) (v : BitVec 32) (s : State) : State :=
  let r := fld v 19 0
  let k := s.cell n
  if v.getLsbD 31 && !s.isFilled n r && s.regionUsable n r && (s.birOf n (r * 16384)).isNone
      && !k.fillKnown r && k.fillq.length < 16 then
    s.setCell n { k with fillq := k.fillq ++ [r] }
  else s

/-- FILL_REQUEST (R271, R284). -/
def execFillRequest (w : Who) (n : Nat) (v : BitVec 32) (s : State) : Out :=
  .next (s.writeReg w .homeFillreq (4 * n) 0 (fillreqWrite n v))

/-- FLIP_MASK_WRITE (R276): a write of an armed line, with the words it holds. -/
def execFlipMaskWrite (line : Nat) (s : State) : Out :=
  .next (if s.flipArmed line && s.linePopulated line && s.lineFilled line then s.dramWrite line (s.memLine line) else s)

/-- REFRESH (R265): an all-bank refresh keeps every stored bit; only time passes. -/
def execRefresh (ch rank : Nat) (s : State) : Out :=
  .next s

/-! ### The Hoe (R274, R275) -/

/-- R274: the Hoe reads line `l`: cached lines are logged alone, others are repaired or poisoned. -/
def State.hoeLineRead (s : State) (l : Nat) (cached : Bool) (e1 e2 : List (Nat × BitVec 8)) : State :=
  if cached then
    let a := s.readCw l 0 2 0 e1 e2
    (a.2.readCw l 1 2 0 e1 e2).2
  else (s.dramRead l 2 e1 e2).2

/-- The home holds the line in S or X, or a transaction holds its entry. -/
def State.lineHeld (s : State) (l : Nat) : Bool :=
  let e := Tab.get (fun _ => ({} : DirEnt)) s.dir l
  e.st != 0 || e.trans != 0

/-- R275: the Hoe skips region `r` in this lap. -/
def State.hoeSkips (s : State) (n r : Nat) : Bool :=
  (s.cell n).fillKnown r || !s.regionUsable n r
    || (match s.birOf n (r * 16384) with | some d => s.birBusy n d | none => false)

/-- R264: the regions of a bank index: the first and their number. -/
def State.bankRegions (s : State) (n b : Nat) : Nat × Nat :=
  let q := s.build.subLog + s.rowBits n
  ((b / 32 * 2 ^ (q + 12) + b / 4 % 8 * 2 ^ (q + 9) + b % 4 * 2 ^ (q + 7)) / 16384, 2 ^ (q + 7) / 16384)
/-- R274, R275: the first region from `pos` on that the lap comes to: one that is filled, one queued for fill or being filled,
or one in an excluded bank. -/
def State.hoeNext (s : State) (n pos : Nat) : Option Nat :=
  let k := s.cell n
  let a := s.filledRegions n ++ k.fillq ++ k.filling.toList
  let b := ((List.range (32 * 2 ^ s.rankBits n)).filter (s.bankExcluded n)).filterMap fun i =>
    let r := s.bankRegions n i
    if pos < r.1 + r.2 then some (max pos r.1) else none
  ((a.filter fun r => pos ≤ r) ++ b).min?
/-- HOE_READ (R274, R275): the next line of the lap is read, or a region passed over; a calibration slot of the line's channel
pauses the Hoe. -/
def hoeStep (n : Nat) (err err2 : List (Nat × BitVec 8)) (s : State) : State :=
  let k := s.cell n
  if !(s.rd .homeHoectl (4 * n)).getLsbD 0 || k.st == 4 then s
  else match s.hoeNext n k.hoePos with
    | none => s
    | some r =>
      if s.hoeSkips n r then
        s.modCell n fun k => { k with hoePos := r + 1, hoeLine := 0, hoeSkip := satInc 16 k.hoeSkip }
      else
        let x := if r == k.hoePos then k.hoeLine else 0
        let l := n * 2 ^ 34 + r * 16384 + x
        if s.chanHeld (s.chanOfLine l) then s
        else
          let s := s.hoeLineRead l (s.lineHeld l) err err2
          s.modCell n fun k =>
            if x + 1 == 16384 then { k with hoePos := r + 1, hoeLine := 0 } else { k with hoePos := r, hoeLine := x + 1 }

/-- HOE_READ (R274). -/
def execHoeRead (n : Nat) (err err2 : List (Nat × BitVec 8)) (s : State) : Out := onCell s n (hoeStep n err err2 s)

/-- HOE_LAP_COMPLETE (R274): the lap's length is recorded, one beyond LAPWARN logged, and the next lap begins. -/
def hoeLap (n : Nat) (s : State) : State :=
  let k := s.cell n
  if (s.hoeNext n k.hoePos).isSome then s
  else
    let len := min (s.frame - k.hoeStart) (2 ^ 32 - 1)
    let s := s.wr .homeHoelap (4 * n) 0 (BitVec.ofNat 32 len)
    let s := s.modCell n fun k =>
      { k with hoePos := 0, hoeLine := 0, hoeStart := s.frame, hoeSkip := 0, hoeLaps := (k.hoeLaps + 1) % 2 ^ 16 }
    let warn := s.rdf .homeHoectl (4 * n) 0 31 16
    if warn != 0 && len > warn * 1024 then s.elogEnter n 0x41 n 2 (s.rd .homeHoelap (4 * n)) len else s

/-- HOE_LAP_COMPLETE (R274). -/
def execHoeLapComplete (n : Nat) (s : State) : Out := onCell s n (hoeLap n s)

end Sys2Proof.Machine
end

