-- ==== Sys2Proof/Machine/Coherence.lean ====
section
/-!
DEFINITION. Caches and cell coherence (chapter 09): the L2s, the directories of the home slices, the messages between them
(R242 to R254), and whole transactions made of those messages, which loads and stores use.
-/
namespace Sys2Proof.Machine

/-! ### Geometry -/

/-- R231: the L2 set of a physical line. -/
def l2Set (l : Nat) : Nat :=
  Nat.xor (Nat.xor (l % 2048) (l / 2 ^ 11 % 2048)) (Nat.xor (l / 2 ^ 22 % 2048) (l / 2 ^ 33 % 8))
/-- R242: the home slice within the cell. -/
def homeSlice (l : Nat) : Nat := Nat.xor (Nat.xor (l % 4) (l / 2 ^ 8 % 4)) (l / 2 ^ 16 % 4)
/-- The home slice of the part: four to a cell. -/
def homeOf (l : Nat) : Nat := cellOfLine l * 4 + homeSlice l
/-- R242: the directory set. -/
def dirSet (b : Build) (l : Nat) : Nat :=
  match b with
  | .t48 => Nat.xor (Nat.xor (l / 4 % 2048) (l / 2 ^ 13 % 2048)) (l / 2 ^ 24 % 2048)
  | .t16 => Nat.xor (Nat.xor (l / 4 % 1024) (l / 2 ^ 12 % 1024)) (l / 2 ^ 22 % 1024)

def l2Key (m l : Nat) : Nat := m * 2 ^ 36 + l
def State.l2Line (s : State) (m l : Nat) : L2Line := Tab.get (fun _ => {}) s.l2 (l2Key m l)
def State.setL2 (s : State) (m l : Nat) (x : L2Line) : State := { s with l2 := Tab.set (fun _ => {}) s.l2 (l2Key m l) x }
def L2Line.word (x : L2Line) (i : Nat) : Word := Tab.get (fun _ => Word.empty) x.ws i
def L2Line.words (x : L2Line) : List Word := (List.range 8).map x.word
def L2Line.setWord (x : L2Line) (i : Nat) (w : Word) : L2Line := { x with ws := Tab.set (fun _ => Word.empty) x.ws i w }
/-- The table of eight words. -/
def lineTab (ws : List Word) : Tab Word :=
  (List.range 8).foldl (fun t i => Tab.set (fun _ => Word.empty) t i (ws.getD i Word.empty)) []
def State.dirEnt (s : State) (l : Nat) : DirEnt := Tab.get (fun _ => {}) s.dir l
def State.setDir (s : State) (l : Nat) (e : DirEnt) : State := { s with dir := Tab.set (fun _ => {}) s.dir l e }
def State.mshrOf (s : State) (m l : Nat) : Option Mshr := Tab.get (fun _ => none) s.mshr (l2Key m l)
def State.setMshr (s : State) (m l : Nat) (x : Option Mshr) : State :=
  { s with mshr := Tab.set (fun _ => none) s.mshr (l2Key m l) x }
/-- The cluster's index within its cell. -/
def State.cluIdx (s : State) (m : Nat) : Nat := m % s.build.cluPerCell
/-- The cluster with index `j` of the cell of a line. -/
def State.cluAt (s : State) (l j : Nat) : Nat := cellOfLine l * s.build.cluPerCell + j
/-- One bit of a sharer vector. -/
def cbit (j : Nat) : BitVec 4 := BitVec.ofNat 4 (2 ^ (j % 4))
/-- The clusters of a sharer vector. -/
def bitsOf (v : BitVec 4) : List Nat := (List.range 4).filter fun j => v.getLsbD j
/-- R259: WAYSj and SEALj in force. -/
def State.scratchWays (s : State) (m : Nat) : Nat :=
  let j := s.cluIdx m
  fld (s.cell (s.build.cellOfClu m)).l2cfg (4 * j + 3) (4 * j)
def State.scratchSealed (s : State) (m : Nat) : Bool := (s.cell (s.build.cellOfClu m)).l2cfg.getLsbD (16 + s.cluIdx m)
def State.failWays (s : State) (m : Nat) : BitVec 16 := (s.rd .cluL2stat m).setWidth 16

/-! ### Tree pseudo-LRU -/

/-- The bits of the tree after an access to way `w` of 2^k: each node on the way's path points away from it. -/
def plruTouch (k bits w : Nat) : Nat :=
  (List.range k).foldl (fun (st : Nat × Nat) i =>
    let b := w / 2 ^ (k - 1 - i) % 2
    let v := st.2 / 2 ^ st.1 % 2
    (st.1 * 2 + b, st.2 - v * 2 ^ st.1 + (1 - b) * 2 ^ st.1)) (1, bits) |>.2
/-- The way that the tree points to. -/
def plruVictim (k bits : Nat) : Nat :=
  (List.range k).foldl (fun (st : Nat × Nat) _ =>
    let b := bits / 2 ^ st.1 % 2
    (st.1 * 2 + b, st.2 * 2 + b)) (1, 0) |>.2

/-! ### First-level caches (R232, R233) -/

/-- R232: every L1 copy of line `l` in cluster `m` goes; a locked line that goes is to be read again (R255). -/
def State.l1Drop (s : State) (m l : Nat) : State :=
  (coresOfClu m).foldl (fun s c => s.modCore c fun k =>
    { k with l1d := k.l1d.filter (fun e => e.2 != l + 1), l1i := k.l1i.filter (fun e => e.2 != l + 1),
             locks := k.locks.filter (· != l),
             relock := if k.locks.contains l then k.relock ++ [l] else k.relock }) s

/-- R230: the L1D set of a virtual word address. -/
def l1dSet (va : Nat) : Nat := Nat.xor (va / 8 % 64) (va / 512 % 64)

/-- R232, R234: core `c` fills its L1D with line `l` at the index of `va`, after dropping a copy under another index. -/
def Core.l1dFill (k : Core) (va l : Nat) : Core :=
  let set := l1dSet va
  let find := fun (d : Tab Nat) => (List.range 8).find? fun w => Tab.get (fun _ => 0) d (set * 8 + w) == l + 1
  let tree := Tab.get (fun _ => 0) k.l1p set
  match find k.l1d with
  | some w => { k with l1p := Tab.set (fun _ => 0) k.l1p set (plruTouch 3 tree w) }
  | none =>
    let d := k.l1d.filter fun e => e.2 != l + 1
    let w := ((List.range 8).find? fun w => Tab.get (fun _ => 0) d (set * 8 + w) == 0).getD (plruVictim 3 tree)
    { k with l1d := Tab.set (fun _ => 0) d (set * 8 + w) (l + 1),
             l1p := Tab.set (fun _ => 0) k.l1p set (plruTouch 3 tree w) }

/-- R230: core `c` fills its L1I with line `l` at the index of `va`. -/
def Core.l1iFill (k : Core) (va l : Nat) : Core :=
  let set := va / 8 % 256
  let find := fun (n : Nat) => (List.range 4).find? fun w => Tab.get (fun _ => 0) k.l1i (set * 4 + w) == n
  let tree := Tab.get (fun _ => 0) k.l1ip set
  let w := (find (l + 1)).getD ((find 0).getD (plruVictim 2 tree))
  { k with l1i := Tab.set (fun _ => 0) k.l1i (set * 4 + w) (l + 1), l1ip := Tab.set (fun _ => 0) k.l1ip set (plruTouch 2 tree w) }
/-- R230: an L1 lookup of line `l` at `va` hits: in the L1I for a fetch, else in the L1D. -/
def Core.l1Has (k : Core) (fetch : Bool) (va l : Nat) : Bool :=
  if fetch then (List.range 4).any fun w => Tab.get (fun _ => 0) k.l1i (va / 8 % 256 * 4 + w) == l + 1
  else (List.range 8).any fun w => Tab.get (fun _ => 0) k.l1d (l1dSet va * 8 + w) == l + 1
/-- R233: the L1 copies of line `l` in one cache of a core are discarded. -/
def Core.l1Lose (k : Core) (fetch : Bool) (l : Nat) : Core :=
  if fetch then { k with l1i := k.l1i.filter fun e => e.2 != l + 1 } else { k with l1d := k.l1d.filter fun e => e.2 != l + 1 }

/-! ### Messages -/

def State.send (s : State) (k : MsgKind) (m l : Nat) (d : Option (List Word) := none) : State :=
  { s with net := s.net ++ [⟨k, m, l, d⟩] }

/-- The kinds that a home sends. -/
def MsgKind.fromHome : MsgKind → Bool
  | .snps | .snpi | .snpd | .grantE | .grantS | .grantM | .wback | .retry => true
  | _ => false

/-- The oldest message between cluster `m` and the home about line `l` in one direction, taken out of the network; messages
of one direction stay in order. -/
def State.takeMsg (s : State) (home : Bool) (m l : Nat) : Option (Msg × State) :=
  let is := fun (x : Msg) => x.clu == m && x.line == l && x.kind.fromHome == home
  match s.net.find? is with
  | none => none
  | some x => some (x, { s with net := s.net.eraseP is })

/-! ### Evictions (R250) -/

def State.evEntry (s : State) (m l : Nat) : Option EvEnt := (s.clu m).evb.find? fun e => e.line == l
def State.dropEv (s : State) (m l : Nat) : State :=
  s.modClu m fun k => { k with evb := k.evb.filter fun e => e.line != l }

/-- R250: cluster `m` evicts line `l`: the line goes to the eviction buffer, and WbD or EvC is on its way. -/
def State.evict (s : State) (m l : Nat) : State :=
  let x := s.l2Line m l
  if x.st == .I || (s.clu m).evb.length ≥ 16 then s
  else
    let s := (s.setL2 m l {}).l1Drop m l
    s.modClu m fun k => { k with evb := k.evb ++ [⟨l, x.st == .M, x.words⟩] }

/-- R230, R255: the lines of an L2 set. -/
def State.l2InSet (s : State) (m set : Nat) : List (Nat × L2Line) :=
  (s.l2.filter fun e => e.1 / 2 ^ 36 == m && l2Set (e.1 % 2 ^ 36) == set && e.2.st != .I).map fun e => (e.1 % 2 ^ 36, e.2)

/-- A line locked by a core of the cluster (R255). -/
def State.l2Locked (s : State) (m l : Nat) : Bool := (coresOfClu m).any fun c => (s.core c).locks.contains l

/-- R237, R254: way `w` of cluster `m` caches. -/
def State.wayUsable (s : State) (m w : Nat) : Bool := w < 16 - s.scratchWays m && !(s.failWays m).getLsbD w

/-- R230: touch the replacement tree of a line's set. -/
def State.l2Touch (s : State) (m l w : Nat) : State :=
  s.modClu m fun k =>
    { k with l2p := Tab.set (fun _ => 0) k.l2p (l2Set l) (plruTouch 4 (Tab.get (fun _ => 0) k.l2p (l2Set l)) w) }

/-- A way for line `l`: one that holds nothing, or that of the victim: the way the tree names where it may be taken, else a
free choice among those that may (R255: a locked line is never taken). The victim's line goes with it. -/
def State.pickWay (s : State) (m l : Nat) : Option (Nat × Option Nat) × State :=
  let ls := s.l2InSet m (l2Set l)
  let ways := (List.range 16).filter (s.wayUsable m)
  match ways.find? fun w => !ls.any fun e => e.2.way == w with
  | some w => (some (w, none), s)
  | none =>
    let may := ways.filter fun w => ls.any fun e =>
      e.2.way == w && !s.l2Locked m e.1 && (s.mshrOf m e.1).isNone
    if may.isEmpty then (none, s)
    else
      let t := plruVictim 4 (Tab.get (fun _ => 0) (s.clu m).l2p (l2Set l))
      let lineAt := fun w => (ls.find? fun e => e.2.way == w).map Prod.fst
      if may.contains t then (some (t, lineAt t), s)
      else
        let f := s.fresh
        let w := may.getD (f.1.toNat % may.length) 0
        (some (w, lineAt w), f.2)

/-- A grant installs a line in the L2 of cluster `m`; none where no way can be had yet (R250: the eviction buffer is full). -/
def State.install (s : State) (m l : Nat) (st : L2St) (d : Option (List Word)) : Option State :=
  let x := s.l2Line m l
  if x.st != .I then
    let x := match d with | some ws => { x with ws := lineTab ws } | none => x
    some ((s.setL2 m l { x with st := st }).l2Touch m l x.way)
  else
    let p := s.pickWay m l
    match p.1 with
    | none => none
    | some (w, v) =>
      let go := fun (s : State) => (s.setL2 m l ⟨st, w, lineTab (d.getD emptyLine)⟩).l2Touch m l w
      match v with
      | none => some (go p.2)
      | some v => if (p.2.clu m).evb.length ≥ 16 then none else some (go (p.2.evict m v))

/-! ### Events of the homes -/

/-- R252, R254, R260: a coherence event is recorded and logged. -/
def State.cohEvent (s : State) (l kind agent : Nat) : State :=
  let n := cellOfLine l
  let body := BitVec.ofNat 32 (kind * 2 ^ 24 + agent * 2 ^ 16 + homeSlice l)
  let first := !(s.rd .cellCoherr n).getLsbD 31
  let s := s.record .cellCoherr n body
  let s := if first then (s.wr .cellCohaddr n 0 (BitVec.ofNat 32 l)).wr .cellCohaddrh n 0 (BitVec.ofNat 32 (l / 2 ^ 32 % 16))
    else s
  s.elogEnter n 0x30 n 3 (body ||| 0x80000000) l

/-- R250, R252: a protocol error or a dead agent declares the cell down. -/
def State.cohFatal (s : State) (l kind agent : Nat) : State := (s.cohEvent l kind agent).cellDown (cellOfLine l) 2 0

/-- R253, R254, R240: an L2 error of cluster `m` is recorded and logged. -/
def State.l2Error (s : State) (m kind way set : Nat) : State :=
  let body := BitVec.ofNat 32 (kind * 2 ^ 24 + way * 2 ^ 20 + set)
  (s.record .cluL2err m body).elogEnter (s.build.cellOfClu m) 0x23 m 2 (body ||| 0x80000000) 0

/-! ### Transactions at a home (R245, R248, R249, R251, R270) -/

/-- R270: requests that write. -/
def ReqKind.writes : ReqKind → Bool
  | .rdx | .upg | .zown | .ncwr | .ncwrp | .cas | .aor => true
  | _ => false

/-- R244: requests of an L2; `agent` is then the cluster's index. -/
def ReqKind.ofL2 : ReqKind → Bool
  | .rds | .rdx | .upg | .zown | .wbd | .evc => true
  | _ => false

/-- A snoop of one kind to the clusters of a vector; the entry waits in state `trans`. -/
def State.snoop (s : State) (l : Nat) (e : DirEnt) (r : HReq) (trans : Nat) (k : MsgKind) (v : BitVec 4) : State :=
  let s := s.setDir l { e with trans := trans, req := some r, need := v, eif := 0, data := none, fillWait := false }
  (bitsOf v).foldl (fun s j => s.send k (s.cluAt l j) l) s

/-- The grant of a line to the requesting cluster; `x` is the new home state and its sharers. -/
def State.grant (s : State) (l : Nat) (r : HReq) (k : MsgKind) (d : Option (List Word)) (st : Nat) (shr : BitVec 4) : State :=
  let e := s.dirEnt l
  let s := s.setDir l { e with st := st, shr := shr, trans := 0, req := none, need := 0, eif := 0, data := none,
                               fillWait := false, reread := none }
  s.send k (s.cluAt l r.agent) l d

/-- The new words of a line after a non-caching write or a home atomic (R248, R249, R273). -/
def HReq.apply (r : HReq) (old : List Word) : List Word :=
  match r.kind with
  | .ncwr => r.data.take 8
  | .ncwrp => (List.range 8).map fun i =>
      if r.mask.getLsbD i then r.data.getD i Word.empty else old.getD i Word.empty
  | .cas | .aor => (List.range 8).map fun i =>
      let w := old.getD i Word.empty
      if r.mask.getLsbD i then
        if r.kind == .cas then (if w == r.old then r.data.getD 0 Word.empty else w)
        else ⟨w.tag, w.pay ||| (r.data.getD 0 Word.empty).pay⟩
      else w
  | _ => old

/-- R248, R249: the answer to a non-caching request or a home atomic is on its way; `d` is the line as it was. -/
def State.ncReply (s : State) (l : Nat) (r : HReq) (d : List Word) : State :=
  let wrote := r.kind == .cas && (List.range 8).any fun i => r.mask.getLsbD i && d.getD i Word.empty == r.old
  { s with ncNet := s.ncNet ++ [{ retry := false, req := r, line := l, data := if r.kind == .ncrd then d else [], wrote }] }
/-- The entry of a finished non-caching transaction: state U, or what it was (NcRd). -/
def State.ncDone (s : State) (l : Nat) (keep : Bool) : State :=
  let e := s.dirEnt l
  s.setDir l { e with trans := 0, req := none, need := 0, eif := 0, data := none, fillWait := false, reread := none,
                      st := if keep then e.st else 0, shr := if keep then e.shr else 0 }
/-- R248, R249: a non-caching request ends, the line having been `d`: memory is written unless it reads. -/
def State.ncEnd (s : State) (l : Nat) (r : HReq) (d : List Word) : State :=
  if r.kind == .ncrd then (s.ncDone l true).ncReply l r d
  else ((s.dramWrite l (r.apply d)).ncDone l false).ncReply l r d

/-- R252: the transaction of an entry waits for the data of its request. -/
def DirEnt.noData (e : DirEnt) : Bool := match e.req with | some r => r.noData | none => false
/-- The answers a transaction waited for have come: what follows without a DRAM read, or the wait for one. -/
def State.advance (s : State) (l : Nat) : State :=
  let e := s.dirEnt l
  if e.trans == 0 || e.trans == 5 || e.need != 0 || e.eif != 0 || e.fillWait || e.noData then s
  else if e.trans == 6 then
    let s := match e.data with | some d => s.dramWrite l d | none => s
    s.setDir l { queue := e.queue, way := e.way, hdr := e.hdr }
  else match e.req with
    | none => s
    | some r =>
      let me := cbit r.agent
      match r.kind, e.data with
      | .rds, some d =>
        let s := s.dramWrite l d
        if e.shr &&& ~~~me == 0 then s.grant l r .grantE (some d) 2 me else s.grant l r .grantS (some d) 1 (e.shr ||| me)
      | .rdx, some d => s.grant l r .grantM (some d) 2 me
      | .upg, some d => s.grant l r .grantM (some d) 2 me
      | .zown, _ => s.grant l r .grantM (some emptyLine) 2 me
      | .upg, none => if e.shr == me then s.grant l r .grantM none 2 me else s.setDir l { e with trans := 1 }
      | .ncwr, _ => s.ncEnd l r []
      | .ncrd, some d | .ncwrp, some d | .cas, some d | .aor, some d => s.ncEnd l r d
      | .ncwrp, none | .cas, none | .aor, none => s
      | _, none => s.setDir l { e with trans := 1 }
      | _, _ => s

/-- The transaction of a line waits for its DRAM data. -/
def DirEnt.wantsDram (e : DirEnt) : Bool :=
  (e.trans == 1 || e.trans == 4) && e.need == 0 && e.eif == 0 && !e.fillWait && e.data.isNone && !e.noData

/-- R254: a line that cluster `m` has lost in a failed way: the home writes `POISON` for an owner, takes the cluster from the
sharers and records the line. -/
def State.lostLine (s : State) (m l : Nat) : State :=
  let s := s.cohEvent l 3 (s.cluIdx m)
  let e := s.dirEnt l
  let s := if e.st == 2 then s.dramWrite l ((List.range 8).map fun i => Word.poison 2 (l * 8 + i)) else s
  let e := { e with shr := e.shr &&& ~~~cbit (s.cluIdx m) }
  s.setDir l (if e.shr == 0 then { e with st := 0 } else e)
/-- R254: the home names the cluster that asks, which holds the line in no way that works: its request comes with LOST. -/
def State.lostAsk (s : State) (l : Nat) (r : HReq) : Bool :=
  let m := s.cluAt l r.agent
  r.kind.ofL2 && (s.dirEnt l).shr &&& cbit r.agent != 0 && (s.l2Line m l).st == .I && (s.evEntry m l).isNone && s.failWays m != 0

/-- R248: the request `r` starts on a line whose entry is stable. -/
def State.startReq (s : State) (l : Nat) (r : HReq) : State :=
  let s := if s.lostAsk l r then s.lostLine (s.cluAt l r.agent) l else s
  let e := s.dirEnt l
  let me := cbit r.agent
  if r.kind.writes && !s.lineFilled l then
    (s.setDir l { e with trans := if r.kind.ofL2 then 1 else 4, req := some r, fillWait := true, need := 0, eif := 0 }).askFill
      (cellOfLine l) (regionOf (lineInCell l))
  else match r.kind with
    | .rds =>
      if e.st == 2 then s.snoop l e r 2 .snps e.shr
      else if !s.lineFilled l then s.grant l r .grantS (some emptyLine) 1 (e.shr ||| me)
      else s.setDir l { e with trans := 1, req := some r }
    | .rdx | .upg | .zown =>
      if e.st == 2 && e.shr != me then s.snoop l e r 2 .snpi e.shr
      else if e.st == 1 && e.shr &&& ~~~me != 0 then s.snoop l e r 3 .snpi (e.shr &&& ~~~me)
      else if r.kind == .upg && e.st == 1 && e.shr == me then s.grant l r .grantM none 2 me
      else if r.kind == .zown then s.grant l r .grantM (some emptyLine) 2 me
      else s.setDir l { e with trans := 1, req := some r }
    | .ncrd =>
      if e.st == 2 then s.snoop l e r 2 .snpd e.shr
      else if !s.lineFilled l then s.ncReply l r emptyLine
      else s.setDir l { e with trans := 1, req := some r }
    | .ncwr | .ncwrp | .cas | .aor => (s.snoop l e r 4 .snpi e.shr).advance l
    | .wbd | .evc => s

/-- R245, R250: a WbD or EvC of cluster index `j` is absorbed: its data is written to memory, the cluster leaves the sharers,
and WbAck is on its way; the entry stays in WB until it has arrived (DESIGN CHOICE, log 52: the table has no row for the end of
the memory write). -/
def State.absorb (s : State) (l j : Nat) (d : Option (List Word)) : State :=
  let e := s.dirEnt l
  let s := match d with | some ws => s.dramWrite l ws | none => s
  let shr := e.shr &&& ~~~cbit j
  let r : HReq := { kind := if d.isSome then .wbd else .evc, agent := j }
  (s.setDir l { e with shr := shr, st := if shr == 0 then 0 else e.st, trans := 5, req := some r, hdr := e.hdr &&& ~~~cbit j }).send
    .wback (s.cluAt l j) l
/-- R252: the entry holds the header of a WbD of cluster index `j` without its data. -/
def DirEnt.wbHeld (e : DirEnt) (j : Nat) : Bool :=
  e.trans == 5 && (match e.req with | some r => r.noData && r.agent == j | none => false)

/-- R245: entries of the directory set of line `l`. -/
def State.dirInSet (s : State) (l : Nat) : List (Nat × DirEnt) :=
  s.dir.filter fun e => homeOf e.1 == homeOf l && dirSet s.build e.1 == dirSet s.build l && (e.2.st != 0 || e.2.trans != 0)
/-- R245: requests waiting at a slice. -/
def State.sliceQueue (s : State) (l : Nat) : Nat :=
  s.dir.foldl (fun k e => if homeOf e.1 == homeOf l then k + e.2.queue.length else k) 0

/-- The directory set of a line, of the whole part. -/
def State.dirKey (s : State) (l : Nat) : Nat := homeOf l * 2048 + dirSet s.build l
/-- R251: the tree of a line's directory set sees an access to the line's way. -/
def State.dirTouch (s : State) (l : Nat) : State :=
  let k := s.dirKey l
  { s with dirP := Tab.set (fun _ => 0) s.dirP k (plruTouch 4 (Tab.get (fun _ => 0) s.dirP k) (s.dirEnt l).way) }
/-- R251: the reservations of other lines in the directory set of a line. -/
def State.resOthers (s : State) (l : Nat) : List Reserve := s.dirRes.filter fun x => x.line != l && s.dirKey x.line == s.dirKey l
/-- R251: a reservation for the request of a line. -/
def State.reserve (s : State) (l : Nat) (w : Option Nat) : State := { s with dirRes := s.dirRes.filter (fun x => x.line != l) ++ [⟨l, w⟩] }
/-- R251: the entry of line `l` leaves its transient state: the oldest reservation of its set that has no way gets this one. -/
def State.resGive (s : State) (l : Nat) : State :=
  match s.dirRes.find? fun x => x.way.isNone && s.dirKey x.line == s.dirKey l with
  | some x => { s with dirRes := s.dirRes.map fun y => if y == x then { y with way := some (s.dirEnt l).way } else y }
  | none => s
/-- R251: a Retry answer; the eighth reserves a way. -/
def State.retryTo (s : State) (l : Nat) (r : HReq) : State :=
  let h := homeOf l
  let k := r.retries + 1
  let s := s.incf .homeRetry h 0 31 16
  let s := if s.rdf .homeRetry h 0 3 0 < k then s.wrf .homeRetry h 0 3 0 k else s
  let s := if k == 8 then s.reserve l none else s
  if r.kind.ofL2 then s.send .retry (s.cluAt l r.agent) l
  else { s with ncNet := s.ncNet ++ [{ retry := true, req := { r with retries := k }, line := l }] }

/-- The request waits in its line's queue. -/
def State.enqueue (s : State) (l : Nat) (r : HReq) : State :=
  let e := s.dirEnt l
  s.setDir l { e with queue := e.queue ++ [r] }

/-- R248: a request is served by the entry of its line, or by a line that needs none. -/
def State.serve (s : State) (l : Nat) (r : HReq) : State :=
  (if (s.dirEnt l).st != 0 then s.dirTouch l else s).startReq l r
/-- R251: line `l` takes way `w` of its set, and its request starts. -/
def State.useWay (s : State) (l w : Nat) (r : HReq) : State :=
  let s : State := { s with dirRes := s.dirRes.filter fun x => x.line != l }
  ((s.setDir l { s.dirEnt l with way := w }).dirTouch l).startReq l r
/-- R251: the entry of line `v` is recalled for the request of line `l`, which waits in its queue. -/
def State.recall (s : State) (l v : Nat) (r : HReq) : State :=
  let e := s.dirEnt v
  let s := (s.inc32 .homeBackinv (homeOf l)).setDir v { e with trans := 6, need := e.shr, forLine := some l }
  let s := (bitsOf e.shr).foldl (fun s j => s.send .snpi (s.cluAt v j) v) s
  (s.reserve l (some e.way)).enqueue l r
/-- R251: the ways of its set that line `l` may take: the one reserved for it, else those reserved for none. -/
def State.waysFor (s : State) (l : Nat) : List Nat :=
  match s.dirRes.find? fun x => x.line == l with
  | some x => x.way.toList
  | none => (List.range 16).filter fun w => !(s.resOthers l).any fun x => x.way == some w
/-- R251: line `l`, at the head of whose queue a request waits for a way, takes an invalid way, or a victim among the stable
entries: the one that the tree points to, else a free choice where that one is in a transient state; none where there is no
such way. -/
def State.takeWay (s : State) (l : Nat) (r : HReq) : Option State :=
  let ls := s.dirInSet l
  let ways := s.waysFor l
  match ways.find? fun w => !ls.any fun e => e.2.way == w with
  | some w => some (s.useWay l w r)
  | none =>
    let may := ls.filter fun e => e.2.trans == 0 && e.2.queue.isEmpty && ways.contains e.2.way
    if may.isEmpty then none
    else
      match may.find? fun e => e.2.way == plruVictim 4 (Tab.get (fun _ => 0) s.dirP (s.dirKey l)) with
      | some v => some (s.recall l v.1 r)
      | none =>
        let f := s.fresh
        some (f.2.recall l ((may.map Prod.fst).getD (f.1.toNat % may.length) 0) r)

/-- R251: a request that may still be answered Retry. -/
def HReq.mayRetry (r : HReq) : Bool := r.retries < 8

/-- R245, R251: a request arrives at its home. -/
def State.arrive (s : State) (l : Nat) (r : HReq) : State :=
  let e := s.dirEnt l
  let wbOnWay := r.kind.ofL2 && (s.evEntry (s.cluAt l r.agent) l).isSome
  if e.trans != 0 || !e.queue.isEmpty || wbOnWay then
    if s.sliceQueue l ≥ 256 && r.mayRetry then s.retryTo l r else s.enqueue l r
  else if e.st != 0 || r.kind == .ncrd && !s.lineFilled l then s.serve l r
  else match s.takeWay l r with
    | some t => t
    | none => if r.mayRetry then s.retryTo l r else s.enqueue l r

/-- The next request of a line whose entry is stable starts, unless a writeback of its own cluster is still on its way. -/
def State.kickLine (s : State) (l : Nat) : State :=
  let e := s.dirEnt l
  match e.queue with
  | [] => s
  | r :: t =>
    if e.trans != 0 then s
    else if r.kind == .wbd || r.kind == .evc then
      (s.setDir l { e with queue := t }).absorb l r.agent (if r.kind == .wbd then some r.data else none)
    else if r.kind.ofL2 && (s.evEntry (s.cluAt l r.agent) l).isSome then s
    else
      let s := s.setDir l { e with queue := t }
      if e.st != 0 then s.serve l r
      else match s.takeWay l r with
        | some u => u
        | none => s.setDir l e

/-- After an entry has left its transaction: the next request of the line, and those of its directory set that wait for a
way. -/
def State.kick (s : State) (l : Nat) : State :=
  let waiting := (s.dir.filter fun e => homeOf e.1 == homeOf l && dirSet s.build e.1 == dirSet s.build l
    && e.2.trans == 0 && !e.2.queue.isEmpty).map Prod.fst
  (l :: waiting.filter (· != l)).foldl State.kickLine (s.resGive l)

/-- After a step of the transaction of line `l`: the queue moves if the entry is stable. -/
def State.after (s : State) (l : Nat) : State := if (s.dirEnt l).trans == 0 then s.kick l else s

/-- An answer of cluster index `j` counts: the snoop is answered; `gone` takes the cluster from the sharers. -/
def State.answered (s : State) (l j : Nat) (gone : Bool) (d : Option (List Word)) : State :=
  let e := s.dirEnt l
  let b := cbit j
  let e := { e with need := e.need &&& ~~~b, shr := if gone then e.shr &&& ~~~b else e.shr,
                    data := if d.isSome then d else e.data }
  ((s.setDir l e).advance l).after l

/-- Whether the snoop of a transaction invalidates: all but the reads. -/
def DirEnt.invalidates (e : DirEnt) : Bool :=
  e.trans == 6 || (match e.req with | some r => r.kind != .rds && r.kind != .ncrd | none => true)

/-- R250: both halves of an EIF pair are there. Under an NcRd, which leaves the line's data where it is (R248), the data of the
WbD goes to memory as that of any writeback. -/
def State.pairEif (s : State) (l j : Nat) (d : Option (List Word)) : State :=
  let e := s.dirEnt l
  let b := cbit j
  let s := s.inc32 .homeEif (homeOf l)
  let e := { e with need := e.need &&& ~~~b, eif := e.eif &&& ~~~b, half := e.half &&& ~~~b,
                    shr := e.shr &&& ~~~b, data := if d.isSome then d else e.data }
  let s := match e.req, d with
    | some r, some ws => if r.kind == ReqKind.ncrd then s.dramWrite l ws else s
    | _, _ => s
  let e := if e.shr == 0 then { e with st := 0 } else e
  (((s.setDir l e).send .wback (s.cluAt l j) l).advance l).after l

/-- R250: the WbD or EvC of cluster `m` for line `l` arrives at the home. -/
def State.wbArrive (s : State) (m l : Nat) : State :=
  let j := s.cluIdx m
  let b := cbit j
  let e := s.dirEnt l
  match s.evEntry m l with
  | none => s
  | some v =>
    let d := if v.dirty then some v.data else none
    let sent := s.net.any fun x => x.kind == .wback && x.clu == m && x.line == l
    if sent || e.half &&& b != 0 || e.queue.any (fun q => (q.kind == .wbd || q.kind == .evc) && q.agent == j) then s
    else if e.trans == 0 || e.wbHeld j then s.absorb l j d
    else
    let e := { e with hdr := e.hdr &&& ~~~b }
    let s := s.setDir l e
    if e.eif &&& b != 0 then s.pairEif l j d
    else if e.need &&& b != 0 then s.setDir l { e with half := e.half ||| b }
    else s.enqueue l { kind := if v.dirty then .wbd else .evc, agent := j, data := v.data }
/-- R250, R252: the header of a WbD of cluster `m` arrives ahead of its data. -/
def State.wbHeader (s : State) (m l : Nat) : State :=
  let j := s.cluIdx m
  let b := cbit j
  let e := s.dirEnt l
  match s.evEntry m l with
  | none => s
  | some v =>
    let sent := s.net.any fun x => x.kind == .wback && x.clu == m && x.line == l
    if !v.dirty || sent || (e.half ||| e.hdr) &&& b != 0 || e.wbHeld j
        || e.queue.any (fun q => (q.kind == .wbd || q.kind == .evc) && q.agent == j) then s
    else if e.trans == 0 then s.setDir l { e with trans := 5, req := some { kind := .wbd, agent := j, noData := true } }
    else s.setDir l { e with hdr := e.hdr ||| b }

/-- R250: an EIF of cluster index `j` arrives: the pair completes, or its second half is awaited. -/
def State.eifArrive (s : State) (m l : Nat) : State :=
  let j := s.cluIdx m
  let b := cbit j
  let e := s.dirEnt l
  if e.half &&& b != 0 then
    s.pairEif l j (match s.evEntry m l with | some v => if v.dirty then some v.data else none | none => none)
  else s.setDir l { e with need := e.need &&& ~~~b, eif := e.eif ||| b }

/-- R254: a LOST answer to a snoop. -/
def State.lostArrive (s : State) (m l : Nat) : State := (s.lostLine m l).answered l (s.cluIdx m) true none

/-- R248: an answer of cluster `m` arrives at the home. -/
def State.homeTakes (s : State) (x : Msg) : State :=
  let j := s.cluIdx x.clu
  match x.kind with
  | .ack => s.answered x.line j (s.dirEnt x.line).invalidates none
  | .ackd => s.answered x.line j (s.dirEnt x.line).invalidates x.data
  | .eif => s.eifArrive x.clu x.line
  | .lost => s.lostArrive x.clu x.line
  | _ => s

/-- R243, R250, R254: a snoop reaches the L2 of cluster `m`. -/
def State.l2Snooped (s : State) (x : Msg) : State :=
  let m := x.clu
  let l := x.line
  let y := s.l2Line m l
  let d := if y.st == .M then some y.words else none
  let ans := fun (s : State) => s.send (if d.isSome then .ackd else .ack) m l d
  if y.st != .I then
    match x.kind with
    | .snps => ans (s.setL2 m l { y with st := .S })
    | .snpi => ans ((s.setL2 m l {}).l1Drop m l)
    | _ => ans s
  else if (s.evEntry m l).isSome then s.send .eif m l
  else if s.failWays m != 0 then s.send .lost m l
  else s.cohFatal l 2 (s.cluIdx m)

/-- R245: the writeback of cluster `m` has been written to memory and acknowledged: the entry leaves WB. -/
def State.wbEnd (s : State) (m l : Nat) : State :=
  let e := s.dirEnt l
  let mine := e.trans == 5 && (match e.req with | some r => !r.noData && r.agent == s.cluIdx m | none => false)
  (if mine then s.setDir l { e with trans := 0, req := none } else s).kick l
/-- R244, R251: a message of a home reaches cluster `x.clu`; none where the cluster cannot take it yet. -/
def State.l2Takes (s : State) (x : Msg) : Option State :=
  match x.kind with
  | .snps | .snpi | .snpd => some (s.l2Snooped x)
  | .grantE => (s.install x.clu x.line .E x.data).map fun s => s.setMshr x.clu x.line none
  | .grantS => (s.install x.clu x.line .S x.data).map fun s => s.setMshr x.clu x.line none
  | .grantM => (s.install x.clu x.line .M x.data).map fun s =>
      (if x.data.isSome then s.l1Drop x.clu x.line else s).setMshr x.clu x.line none
  | .wback => some ((s.dropEv x.clu x.line).wbEnd x.clu x.line)
  | .retry =>
    match s.mshrOf x.clu x.line with
    | some q => some (s.setMshr x.clu x.line (some { q with retries := q.retries + 1, backoff := true }))
    | none => some s
  | _ => some s

/-- R269: the DRAM data of the transaction of line `l` has come, decoded: the transaction ends. -/
def State.dramDone (s : State) (l : Nat) (e1 e2 : List (Nat × BitVec 8)) : State :=
  let e := s.dirEnt l
  match e.req with
  | none => s
  | some r =>
    let me := cbit r.agent
    let others := e.shr &&& ~~~me
    if r.kind == .ncwrp then
      let q := s.dramReadPartial l e1 e2
      (q.2.ncEnd l r q.1).after l
    else
      let q := s.dramRead l 0 e1 e2
      let s := q.2
      (match r.kind with
        | .rds => if others == 0 then s.grant l r .grantE (some q.1) 2 me else s.grant l r .grantS (some q.1) 1 (e.shr ||| me)
        | .rdx | .upg => s.grant l r .grantM (some q.1) 2 me
        | .cas | .aor | .ncrd => s.ncEnd l r q.1
        | _ => s.ncDone l true).after l

/-- R269: the DRAM read of line `l` returns with the errors given beside those stored: decoded, or read once more. -/
def State.dramReturn (s : State) (l : Nat) (err : List (Nat × BitVec 8)) : State :=
  let e := s.dirEnt l
  if e.wantsDram && e.reread.isNone && !s.chanHeld (s.chanOfLine l) then
    if s.needsReread l err then s.setDir l { e with reread := some err } else s.dramDone l err []
  else s

/-- R269: the second read returns. -/
def State.dramReturn2 (s : State) (l : Nat) (err : List (Nat × BitVec 8)) : State :=
  let e := s.dirEnt l
  match e.reread with
  | some e1 =>
    if e.wantsDram && !s.chanHeld (s.chanOfLine l) then (s.setDir l { e with reread := none }).dramDone l e1 err else s
  | none => s

/-- R270, R271: the transactions that wait for a fill of cell `n` go on where their region is filled. -/
def State.fillKick (s : State) (n : Nat) : State :=
  let ls := (s.dir.filter fun e => e.2.fillWait && cellOfLine e.1 == n).map Prod.fst
  ls.foldl (fun s l =>
    if s.lineFilled l then
      let e := s.dirEnt l
      match e.req with
      | some r => ((s.setDir l { e with trans := 0, req := none, fillWait := false }).startReq l r).after l
      | none => s
    else s.askFill n (regionOf (lineInCell l))) s

/-! ### Whole transactions -/

/-- A request of cluster `m` for line `l` goes to the home. -/
def State.request (s : State) (m l : Nat) (k : ReqKind) : State :=
  let n := ((s.mshrOf m l).map Mshr.retries).getD 0
  (s.setMshr m l (some ⟨k, n, false⟩)).arrive l { kind := k, agent := s.cluIdx m, retries := n }

/-- One thing that can happen next to line `l` without outside help: a message arrives, DRAM data returns, a writeback
lands. -/
def State.settle1 (s : State) (l : Nat) : Option State :=
  match s.net.find? fun x => x.line == l && x.kind != .retry with
  | some x =>
    let t := { s with net := s.net.erase x }
    if x.kind.fromHome then t.l2Takes x else some (t.homeTakes x)
  | none =>
    let e := s.dirEnt l
    if e.wantsDram && !s.chanHeld (s.chanOfLine l) then some (if e.reread.isSome then s.dramReturn2 l [] else s.dramReturn l [])
    else match (List.range s.build.cluPerCell).find? fun j => (s.evEntry (s.cluAt l j) l).isSome
        && (e.trans == 0 || e.wbHeld j || e.eif &&& cbit j != 0) with
      | some j => some (s.wbArrive (s.cluAt l j) l)
      | none => none

/-- The lines whose progress line `l` waits for: itself and the victims recalled for it. -/
def State.settleLines (s : State) (l : Nat) : List Nat :=
  l :: (s.dir.filter fun e => e.2.forLine == some l && e.2.trans == 6).map Prod.fst

/-- Let the transaction of line `l` run to its end, or to where it must wait for a fill or a retry. -/
def settle : Nat → State → Nat → State
  | 0, s, _ => s
  | n + 1, s, l =>
    match (s.settleLines l).findSome? s.settle1 with
    | some t => settle n t l
    | none => s

/-- R250: the writebacks on their way from cluster `m` land. -/
def State.landWb (s : State) (m : Nat) : State :=
  ((s.clu m).evb.map EvEnt.line).foldl (fun s l => settle 8 s l) s

/-- Nothing about the line is under way in the cell. -/
def State.lineQuiet (s : State) (l : Nat) : Bool :=
  let e := s.dirEnt l
  e.trans == 0 && e.queue.isEmpty && !s.net.any fun x => x.line == l

/-- R246, R248: cluster `m` obtains line `l` to read, whole; false where the core must wait. -/
def State.acquireS (s : State) (m l : Nat) : State × Bool :=
  if (s.l2Line m l).st != .I then (s, true)
  else if !s.lineQuiet l && (s.mshrOf m l).isNone then (s, false)
  else
    let s := (settle 64 (if (s.mshrOf m l).isSome then s else s.request m l .rds) l).landWb m
    (s, (s.l2Line m l).st != .I)

/-- R246, R248: cluster `m` obtains line `l` in M; `zero` asks for it without data (R241). -/
def State.acquireM (s : State) (m l : Nat) (zero : Bool := false) : State × Bool :=
  let x := s.l2Line m l
  if x.st == .M then (s, true)
  else if x.st == .E && !zero then (s.setL2 m l { x with st := .M }, true)
  else if !s.lineQuiet l && (s.mshrOf m l).isNone then (s, false)
  else
    let k : ReqKind := if zero then .zown else if x.st == .S then .upg else .rdx
    let s := (settle 64 (if (s.mshrOf m l).isSome then s else s.request m l k) l).landWb m
    (s, (s.l2Line m l).st == .M)

/-- R248: the M data of a line in the cell, if an L2 holds it so. -/
def State.dirtyData (s : State) (l : Nat) : Option (List Word) :=
  (List.range s.build.cluPerCell).findSome? fun j =>
    let m := s.cluAt l j
    let x := s.l2Line m l
    if x.st == .M then some x.words
    else match s.evEntry m l with | some v => if v.dirty then some v.data else none | none => none

/-- R248: a coherent read by a non-caching agent, whole; none where it must wait. -/
def State.ncRead (s : State) (l : Nat) : Option (List Word × State) :=
  if (s.dirEnt l).trans != 0 then none
  else match s.dirtyData l with
    | some d => some (d, s)
    | none => if s.lineFilled l then some (s.dramRead l 0 [] []) else some (emptyLine, s)

/-- Every copy of line `l` in the cell goes, and the directory entry with it. -/
def State.purgeLine (s : State) (l : Nat) : State :=
  let s := (List.range s.build.cluPerCell).foldl (fun s j =>
    let m := s.cluAt l j
    ((s.setL2 m l {}).l1Drop m l).dropEv m l) s
  let e := s.dirEnt l
  s.setDir l { e with st := 0, shr := 0 }

/-- R248, R249, R273: a write, partial write or atomic by a non-caching agent, whole; none where it must wait, its region's
fill asked for (R270). -/
def State.ncWrite (s : State) (l : Nat) (r : HReq) : State × Bool :=
  if (s.dirEnt l).trans != 0 then (s, false)
  else if !s.lineFilled l then (s.askFill (cellOfLine l) (regionOf (lineInCell l)), false)
  else
    let old : List Word × State := match s.dirtyData l with
      | some d => (d, s)
      | none =>
        if r.kind == ReqKind.ncwr then (emptyLine, s)
        else if r.kind == ReqKind.ncwrp then s.dramReadPartial l [] []
        else s.dramRead l 0 [] []
    ((old.2.purgeLine l).dramWrite l (r.apply old.1), true)

/-- R249: a home atomic, whole; the core learns whether a compare-and-store wrote. -/
def State.ncAtomic (s : State) (l : Nat) (r : HReq) : State × Bool :=
  let old := s.ncRead l
  let x := s.ncWrite l r
  if x.2 && r.kind == .cas then
    (x.1.modCore r.agent fun k => { k with casWrote := some (match old with
      | some (ws, _) => (List.range 8).any fun i => r.mask.getLsbD i && ws.getD i Word.empty == r.old
      | none => false) }, true)
  else x
/-- A write of one word by a non-caching agent. -/
def State.ncWriteWord (s : State) (pa : Nat) (w : Word) : State × Bool :=
  s.ncWrite (pa / 8) { kind := .ncwrp, agent := 8, mask := BitVec.ofNat 8 (2 ^ (pa % 8)),
                       data := (List.range 8).map fun i => if i == pa % 8 then w else Word.empty }

/-- A coherent read of one word by a non-caching agent; `EMPTY` where the line is not populated or must wait. -/
def State.ncWord (s : State) (pa : Nat) : Word × State :=
  match (if s.linePopulated (pa / 8) then s.ncRead (pa / 8) else none) with
  | some (ws, t) => (ws.getD (pa % 8) Word.empty, t)
  | none => (Word.empty, s)

/-- R271: the fills that stand before that of region `r` in the queue, and then its own, come to their end. -/
def fillThrough : Nat → State → Nat → Nat → State
  | 0, s, _, _ => s
  | k + 1, s, n, r =>
    if s.isFilled n r then s else fillThrough k (((s.modCell n Cell.fillStart).fillDone n).fillKick n) n r
/-- R270, R271: a write that the model makes in one step waits for the fill of its region, in the queue's order (DESIGN CHOICE,
log 53: no time passes in the step). -/
def State.fillFor (s : State) (n r : Nat) : State :=
  let t := s.askFill n r
  fillThrough (2 + (t.cell n).fillq.length + (t.cell n).fillLate.length) t n r
/-- A write of a word by a non-caching agent, its region filled first where it was not (R270): what the host interface, the
Shed, the Rake and jobs do. -/
def State.agentWrite (s : State) (pa : Nat) (w : Word) : State :=
  let l := pa / 8
  if !s.linePopulated l then s
  else
    let s := if s.lineFilled l then s else s.fillFor (cellOfLine l) (regionOf (lineInCell l))
    let r := s.ncWriteWord pa w
    if r.2 then r.1 else (settle 64 r.1 l).ncWriteWord pa w |>.1

/-- Such writes of a list of words. -/
def agentWrites (s : State) (pa : Nat) : List Word → State
  | [] => s
  | w :: t => agentWrites (s.agentWrite pa w) (pa + 1) t

/-! ### Scratch (R238) -/

def State.scratchWord (s : State) (m o : Nat) : Word := Tab.get (fun _ => Word.empty) s.scratch (m * 2 ^ 18 + o)
def State.setScratch (s : State) (m o : Nat) (w : Word) : State :=
  { s with scratch := Tab.set (fun _ => Word.empty) s.scratch (m * 2 ^ 18 + o) w }
/-- R238: a physical address of the scratch window of cell `n`: the cluster and the offset, where they exist. -/
def State.scratchAt (s : State) (n pa : Nat) : Option (Nat × Nat) :=
  let j := pa % 2 ^ 37 / 2 ^ 17
  let o := pa % 2 ^ 17
  let m := n * s.build.cluPerCell + j
  if pa / 2 ^ 37 == 3 && j < s.build.cluPerCell && o < s.scratchWays m * 16384 && !(s.cell n).l2off then some (m, o)
  else none
/-- R237: the scratch of a cluster set to `EMPTY`. -/
def State.clearScratch (s : State) (m : Nat) : State :=
  { s with scratch := Tab.drop (fun k => k / 2 ^ 18 == m) s.scratch }

/-! ### Commands: L2s to homes -/

/-- A cluster may send a request for a line: the line is populated and of its cell, nothing of the cluster's is outstanding
for it, and the caches are in use. -/
def State.canRequest (s : State) (m l : Nat) : Bool :=
  s.linePopulated l && cellOfLine l == s.build.cellOfClu m && (s.mshrOf m l).isNone && !(s.cell (cellOfLine l)).l2off
    && (s.cell (cellOfLine l)).st != 4

/-- RDS (R248). -/
def execRds (m line : Nat) (s : State) : Out :=
  onClu s m (if s.canRequest m line && (s.l2Line m line).st == .I then s.request m line .rds else s)
/-- RDX (R248). -/
def execRdx (m line : Nat) (s : State) : Out :=
  onClu s m (if s.canRequest m line && (s.l2Line m line).st == .I then s.request m line .rdx else s)
/-- UPG (R248): from a cluster that holds the line in S, or has just lost it to a crossing snoop. -/
def execUpg (m line : Nat) (s : State) : Out :=
  onClu s m (if s.canRequest m line && ((s.l2Line m line).st == .S || (s.l2Line m line).st == .I)
    then s.request m line .upg else s)
/-- ZOWN (R241, R248). -/
def execZown (m line : Nat) (s : State) : Out :=
  onClu s m (if s.canRequest m line && (s.l2Line m line).st != .M then s.request m line .zown else s)
/-- WBD (R248, R250): the writeback of a dirty line lands, with its data, or its header alone (R252). -/
def execWbd (m line : Nat) (s : State) (data : Bool := true) : Out :=
  onClu s m (if !data then s.wbHeader m line
    else match s.evEntry m line with | some v => if v.dirty then s.wbArrive m line else s | none => s)
/-- EVC (R248, R250): the notice of a clean eviction lands. -/
def execEvc (m line : Nat) (s : State) : Out :=
  onClu s m (match s.evEntry m line with | some v => if v.dirty then s else s.wbArrive m line | none => s)
/-- L2_EVICTION (R250). -/
def execL2Eviction (m line : Nat) (s : State) : Out :=
  onClu s m (if s.l2Locked m line || (s.mshrOf m line).isSome then s else s.evict m line)

/-! ### Commands: homes to L2s -/

/-- The delivery of the oldest message of a home to cluster `m` about a line, if it is of a kind asked for. -/
def State.deliver (s : State) (m l : Nat) (is : MsgKind → Bool) : State :=
  match s.takeMsg true m l with
  | some (x, t) => if is x.kind then (t.l2Takes x).getD s else s
  | none => s

/-- SNPS (R244). -/
def execSnps (m line : Nat) (s : State) : Out := onClu s m (s.deliver m line (· == .snps))
/-- SNPI (R244, R250). -/
def execSnpi (m line : Nat) (s : State) : Out := onClu s m (s.deliver m line (· == .snpi))
/-- SNPD (R244). -/
def execSnpd (m line : Nat) (s : State) : Out := onClu s m (s.deliver m line (· == .snpd))
/-- The answer is to this agent or core about this line. -/
def NcMsg.isFor (x : NcMsg) (q : Asker) (line : Nat) (retry : Bool) : Bool :=
  let atomic := x.req.kind == .cas || x.req.kind == .aor
  x.line == line && x.retry == retry && (match q with
    | .clu _ => false
    | .agent a => !atomic && x.req.agent == a.toNat
    | .core c => atomic && x.req.agent == c)
/-- R248, R249: what an agent or a core learns from its Grant: an agent its data, a core whether a compare-and-store wrote. -/
def State.ncLearn (s : State) (x : NcMsg) : State :=
  match x.req.kind with
  | .ncrd => { s with ncGot := Tab.set (fun _ => []) s.ncGot (cellOfLine x.line * 16 + x.req.agent) x.data }
  | .cas => s.modCore x.req.agent fun k => { k with casWrote := some x.wrote }
  | _ => s
/-- The oldest answer to an agent or a core about a line arrives. -/
def State.ncDeliver (s : State) (q : Asker) (line : Nat) (retry : Bool) : State :=
  match s.ncNet.find? fun x => x.isFor q line retry with
  | none => s
  | some x =>
    let t : State := { s with ncNet := s.ncNet.eraseP fun x => x.isFor q line retry }
    if retry then { t with ncAsk := t.ncAsk ++ [⟨x.req, x.line⟩] } else t.ncLearn x
/-- GRANT (R244). -/
def execGrant (q : Asker) (line : Nat) (s : State) : Out :=
  match q with
  | .clu m => onClu s m (s.deliver m line fun k => k == .grantE || k == .grantS || k == .grantM)
  | q => .next (s.ncDeliver q line false)
/-- WBACK (R250). -/
def execWback (m line : Nat) (s : State) : Out := onClu s m (s.deliver m line (· == .wback))
/-- RETRY (R251). -/
def execRetry (q : Asker) (line : Nat) (s : State) : Out :=
  match q with
  | .clu m => onClu s m (s.deliver m line (· == .retry))
  | q => .next (s.ncDeliver q line true)
/-- R251: an agent or a core repeats its request. -/
def State.ncRepeat (s : State) (q : Asker) (line : Nat) : State :=
  let is := fun (x : NcAsk) => ({ retry := true, req := x.req, line := x.line } : NcMsg).isFor q line true
  match s.ncAsk.find? is with
  | none => s
  | some x => ({ s with ncAsk := s.ncAsk.eraseP is } : State).arrive line x.req
/-- RETRY_BACKOFF_EXPIRY (R251): the request is repeated. -/
def execRetryBackoffExpiry (q : Asker) (line : Nat) (s : State) : Out :=
  match q with
  | .clu m => onClu s m (match s.mshrOf m line with
    | some x => if x.backoff then s.request m line x.kind else s
    | none => s)
  | q => .next (s.ncRepeat q line)

/-! ### Commands: answers to homes -/

/-- The arrival at the home of the oldest answer of cluster `m` about a line, if it is of the kind asked for. -/
def State.answer (s : State) (m l : Nat) (k : MsgKind) : State :=
  match s.takeMsg false m l with
  | some (x, t) => if x.kind == k then t.homeTakes x else s
  | none => s

/-- ACK (R244). -/
def execAck (m line : Nat) (s : State) : Out := onClu s m (s.answer m line .ack)
/-- ACKD (R244). -/
def execAckd (m line : Nat) (s : State) : Out := onClu s m (s.answer m line .ackd)
/-- EIF (R250). -/
def execEif (m line : Nat) (s : State) : Out := onClu s m (s.answer m line .eif)
/-- LOST (R254). -/
def execLost (m line : Nat) (s : State) : Out := onClu s m (s.answer m line .lost)

/-! ### Commands: non-caching agents and home atomics -/

/-- R259: the agents of non-caching requests. -/
def ncAgent (a : BitVec 4) : Bool := 4 ≤ a.toNat && a.toNat ≤ 13
/-- R244, R259: a non-caching agent asks for a line that the build populates. -/
def State.ncReaches (s : State) (a : BitVec 4) (line : Nat) : Bool :=
  ncAgent a && cellOfLine line < s.build.cells && s.linePopulated line

/-- R252: a request that waits for its data is the one asked for. -/
def HReq.awaits (r : HReq) (k : ReqKind) (agent : Nat) : Bool := r.noData && r.kind == k && r.agent == agent
/-- R252: the data of a write arrives: of the one whose header came before it, else with its header. -/
def State.ncData (s : State) (l : Nat) (r : HReq) : State :=
  let e := s.dirEnt l
  let is := fun (x : HReq) => x.awaits r.kind r.agent
  if (match e.req with | some x => is x | none => false) then
    ((s.setDir l { e with req := e.req.map fun x => { x with data := r.data, mask := r.mask, noData := false } }).advance l).after l
  else match e.queue.findIdx? is with
    | some i => s.setDir l { e with queue := e.queue.modify i fun x => { x with data := r.data, mask := r.mask, noData := false } }
    | none => s.arrive l r
/-- NCRD (R248). -/
def execNcrd (agent : BitVec 4) (line : Nat) (s : State) : Out :=
  .next (if s.ncReaches agent line then s.arrive line { kind := .ncrd, agent := agent.toNat } else s)
/-- R252: a write of an agent: its header alone, or its data. -/
def State.ncPut (s : State) (line : Nat) (r : HReq) : Option (List Word) → State
  | none => s.arrive line { r with noData := true }
  | some ws => s.ncData line { r with data := ws }
/-- NCWR (R248, R252). -/
def execNcwr (agent : BitVec 4) (line : Nat) (data : Option (List Word)) (s : State) : Out :=
  .next (if s.ncReaches agent line then s.ncPut line { kind := .ncwr, agent := agent.toNat, mask := 0xFF } data else s)
/-- NCWRP (R248, R252, R273). -/
def execNcwrp (agent : BitVec 4) (line : Nat) (mask : BitVec 8) (data : Option (List Word)) (s : State) : Out :=
  .next (if s.ncReaches agent line then s.ncPut line { kind := .ncwrp, agent := agent.toNat, mask := mask } data else s)

/-- R249: a home atomic as a request. -/
def Atomic.req (c : Nat) : Atomic → Nat × HReq
  | .cas pa old new => (pa / 8, { kind := .cas, agent := c, mask := BitVec.ofNat 8 (2 ^ (pa % 8)), data := [new], old := old })
  | .aor pa bits => (pa / 8, { kind := .aor, agent := c, mask := BitVec.ofNat 8 (2 ^ (pa % 8)), data := [⟨0, bits⟩] })

/-- R247, R249: the oldest home atomic of core `c`, whose store buffer has drained, goes to its home if it is of the kind asked
for. -/
def atomicArrive (c : Nat) (cas : Bool) (s : State) : State :=
  match (s.core c).atomics with
  | a :: t =>
    let is := match a with | .cas _ _ _ => true | .aor _ _ => false
    let q := a.req c
    if is == cas && s.linePopulated q.1 && (s.core c).sb.isEmpty then
      (s.modCore c fun k => { k with atomics := t }).arrive q.1 q.2
    else s
  | [] => s

/-- CAS (R154, R249). -/
def execCas (c : Nat) (s : State) : Out := onCore s c (atomicArrive c true s)
/-- AOR (R159, R249). -/
def execAor (c : Nat) (s : State) : Out := onCore s c (atomicArrive c false s)

/-! ### Commands: DRAM, fills and errors -/

/-- R446: the PLL of the PHY group that serves a channel (R440) has lost lock: the channel returns no data. -/
def State.phyLost (s : State) (ch : Nat) : Bool := 2 ≤ s.pwr.stage && !s.pwr.lock.getLsbD (3 + ch / (s.build.channels / 4))
/-- DRAM_READ_RETURN (R268, R269). -/
def execDramReadReturn (line : Nat) (err : List (Nat × BitVec 8)) (s : State) : Out :=
  .next (if cellOfLine line < s.build.cells && !s.phyLost (s.chanOfLine line) then s.dramReturn line err else s)
/-- DRAM_REREAD (R269). -/
def execDramReread (line : Nat) (err : List (Nat × BitVec 8)) (s : State) : Out :=
  .next (if cellOfLine line < s.build.cells && !s.phyLost (s.chanOfLine line) then s.dramReturn2 line err else s)
/-- REGION_FILL_COMPLETE (R270, R271). -/
def execRegionFillComplete (n : Nat) (s : State) : Out := onCell s n ((s.fillDone n).fillKick n)

/-- R417: a DRAM read of a line of the channel is outstanding. -/
def State.chanOutstanding (s : State) (ch : Nat) : Option Nat :=
  (s.dir.find? fun e => e.2.wantsDram && s.chanOfLine e.1 == ch && !s.chanCal ch).map Prod.fst

/-- CHANNEL_TIMEOUT (R417): the channel is dead and its cell declared down, after a record of code 0x40 (R425). -/
def execChannelTimeout (ch : Nat) (s : State) : Out :=
  onChan s ch (match s.chanOutstanding ch with
    | some l =>
      let n := s.build.cellOfChan ch
      (s.elogEnter n 0x40 ch 3 0x80000000 l).cellDown n 3 (ch % s.build.chanPerCell)
    | none => s)

/-- R252: the agent that owes the home of a line a response: the answer to a snoop, the second half of an EIF pair, or the data
of a WbD or of a non-caching write. Where several owe one, the lowest cluster is named, then the oldest request (DESIGN CHOICE,
log 52: the rule names none). -/
def DirEnt.owes (e : DirEnt) : Option Nat :=
  match bitsOf (e.need ||| e.eif ||| e.hdr) with
  | j :: _ => some j
  | [] => ((e.req.toList ++ e.queue).find? HReq.noData).map HReq.agent
/-- HOME_RESPONSE_TIMEOUT (R252): an agent that owes the home of a line a response is dead. -/
def execHomeResponseTimeout (line : Nat) (s : State) : Out :=
  .next (if s.build.cells ≤ cellOfLine line then s
    else match (s.dirEnt line).owes with
      | some j => s.cohFatal line 1 j
      | none => s)

/-- L2_DATA_UE (R240, R253): the pair of words that holds `pa`, in the L2 or the scratch of cluster `m`, becomes `POISON`. -/
def l2DataUe (m pa : Nat) (s : State) : State :=
  let a := pa / 2 * 2
  match s.scratchAt (s.build.cellOfClu m) a with
  | some (k, o) =>
    if k == m then
      ((s.setScratch m o (Word.poison 2 a)).setScratch m (o + 1) (Word.poison 2 (a + 1))).l2Error m 3
        (15 - o / 16384) (o / 8 % 2048)
    else s
  | none =>
    let l := a / 8
    let x := s.l2Line m l
    if x.st == .I then s
    else
      let y := (x.setWord (a % 8) (Word.poison 2 a)).setWord (a % 8 + 1) (Word.poison 2 (a + 1))
      ((s.setL2 m l y).l1Drop m l).l2Error m 1 x.way (l2Set l)

/-- R240, R253: the L2 or the scratch of cluster `m` holds `pa`. -/
def State.l2Holds (s : State) (m pa : Nat) : Bool :=
  match s.scratchAt (s.build.cellOfClu m) pa with
  | some (k, _) => k == m
  | none => (s.l2Line m (pa / 8)).st != .I
/-- L2_DATA_UE (R253): `symbols` symbols of the pair are in error: one is corrected and counted, more are uncorrectable. -/
def execL2DataUe (m pa : Nat) (s : State) (symbols : Nat := 2) : Out :=
  onClu s m (match symbols with
    | 0 => s
    | 1 => if s.l2Holds m pa then s.inc32 .cluL2ce m else s
    | _ => l2DataUe m pa s)

/-- L2_TAG_PARITY (R254): the way fails in every set, and the lines it held are hidden. -/
def l2TagParity (m way set : Nat) (s : State) : State :=
  if way ≥ 16 || way ≥ 16 - s.scratchWays m || (s.failWays m).getLsbD way then s
  else
    let gone := (s.l2.filter fun e => e.1 / 2 ^ 36 == m && e.2.way == way && e.2.st != .I).map fun e => e.1 % 2 ^ 36
    let s := gone.foldl (fun s l => (s.setL2 m l {}).l1Drop m l) s
    let s := s.wr .cluL2stat m 0 (putFld (s.rd .cluL2stat m) way way 1)
    s.l2Error m 2 way (set % 2048)

/-- L2_TAG_PARITY (R254). -/
def execL2TagParity (m way set : Nat) (s : State) : Out := onClu s m (l2TagParity m way set s)

end Sys2Proof.Machine
end

