-- ==== Sys2Proof/Machine/Translate.lean ====
section
/-!
DEFINITION. Address translation (chapter 08): the walk over tables in memory, its checks, the translation caches and bare
mode.
-/
namespace Sys2Proof.Machine

/-! ### Entries (R210, R211) -/

/-- R210: PPN. -/
def ptePpn (p : B64) : Nat := fld p 41 12

/-- What an entry means at its level. -/
inductive Pte where
  | absent
  | malformed
  | devPointer
  | pointer (table : Nat)
  | leaf
  deriving DecidableEq, Repr

/-- R211: the meaning of a `PTE` payload read at table level `j`. -/
def pteAt (j : Nat) (p : B64) : Pte :=
  let ptr := fld p 3 1 == 0
  if !p.getLsbD 0 then .absent
  else if ptr then
    if p.getLsbD 8 then .devPointer
    else if j == 0 || fld p 63 42 != 0 || fld p 7 4 != 0 || fld p 11 9 != 0 then .malformed
    else .pointer (ptePpn p * 512)
  else if fld p 63 42 != 0 || j ≥ 2 || (p.getLsbD 2 && !p.getLsbD 1)
      || (j == 1 && ptePpn p % 512 != 0)
      || (p.getLsbD 8 && (j == 1 || p.getLsbD 3 || p.getLsbD 5 || ptePpn p ≥ 0x2000)) then .malformed
  else .leaf

/-- R221: the entry that a leaf leaves in a translation cache. -/
def leafEnt (asid va j : Nat) (p : B64) : TlbEnt :=
  { asid, vpn := if j == 1 then va / 2 ^ 18 else va / 512, large := j == 1, ppn := ptePpn p, r := p.getLsbD 1,
    w := p.getLsbD 2, x := p.getLsbD 3, u := p.getLsbD 4, sl := p.getLsbD 5, dev := p.getLsbD 8, d := p.getLsbD 7 }

/-- The physical (or device) word address of a virtual address under an entry. -/
def TlbEnt.addr (e : TlbEnt) (va : Nat) : Nat := e.ppn * 512 + va % (if e.large then 2 ^ 18 else 512)

/-- The entry serves the address. -/
def TlbEnt.hits (e : TlbEnt) (asid va : Nat) : Bool :=
  e.asid == asid && e.vpn == (if e.large then va / 2 ^ 18 else va / 512)

/-! ### Checks (R217, R218) -/

/-- R217: the access loads. -/
def accReads : Access → Bool | .load | .readModify => true | _ => false
/-- R217: the access stores. -/
def accWrites : Access → Bool | .store | .readModify => true | _ => false

/-- R217: the REASON of cause 0x11, in the table's order; none where the access is permitted. -/
def permFault (lvl : Nat) (tctl : B64) (e : TlbEnt) (a : Access) : Option Nat :=
  if accReads a && !e.r then some 1
  else if accWrites a && !e.w then some 2
  else if a == .fetch && !e.x then some 3
  else if lvl == 0 && !e.u then some 4
  else if a == .fetch && lvl == 1 && e.u && tctl.getLsbD 0 then some 5
  else if accWrites a && e.dev && lvl ≤ 1 then some 6
  else if accReads a && e.dev && lvl == 0 && !tctl.getLsbD 1 then some 7
  else none

/-- R218: the REASON of cause 0x12. -/
def adFault (abit dbit : Bool) (a : Access) : Option Nat :=
  if accWrites a then (if !abit then some 3 else if !dbit then some 2 else none)
  else if !abit then some 1 else none

/-- R214: SINFO of a translation fault. The W bit marks a store, or the store half of a read–modify access. -/
def walkInfo (a : Access) (storeHalf : Bool) (level reason va : Nat) : B64 :=
  BitVec.ofNat 64 (b2n (a == .fetch) * 2 ^ 63 + b2n (a == .store || (a == .readModify && storeHalf)) * 2 ^ 62
    + level % 8 * 2 ^ 59 + reason % 8 * 2 ^ 56 + va % 2 ^ 54)

/-! ### The walk (R213) -/

/-- How a walk, or one step of it, ends. -/
inductive WalkEnd where
  | leaf (e : TlbEnt)
  /-- The cause, SINFO, FLTPTE and FLTVAL of a fault. -/
  | fault (cause : Nat) (info : B64) (pte : Nat) (val : B64)
  /-- The next table: its level and address. -/
  | next (level table : Nat)
  /-- The read cannot be made yet. -/
  | stall
  deriving DecidableEq, Repr

/-- R247, R256: a coherent read of one memory word through the L2 of cluster `m`, or at the home for a non-caching reader or
where the caches are off; none where it must wait. -/
def State.l2Read (s : State) (m : Nat) (nc : Bool) (pa : Nat) : Option (Word × State) :=
  if nc || (s.cell (s.build.cellOfClu m)).l2off then
    match s.ncRead (pa / 8) with
    | some (ws, t) => some (ws.getD (pa % 8) Word.empty, t)
    | none => none
  else
    let r := s.acquireS m (pa / 8)
    if r.2 then
      let x := r.1.l2Line m (pa / 8)
      some (x.word (pa % 8), r.1.l2Touch m (pa / 8) x.way)
    else none

/-- R208: the highest table level of a MODE. -/
def modeTop (mode : Nat) : Nat := mode - 1
/-- R208: the virtual width of a MODE. -/
def modeWidth (mode : Nat) : Nat := 9 * mode + 9
/-- R208: the index into a table at level `j`. -/
def tableIndex (va j : Nat) : Nat := va / 2 ^ (9 * j + 9) % 512

/-- R213: the read and the checks of one table level for cluster `m`. The W bit of a read-modify access is set for the faults
that only its store half meets: cause 0x11 with REASON 2 or 6, and cause 0x12 (DESIGN CHOICE, log 51: R214 does not say to
which half the others belong). -/
def State.walkStep (s : State) (m : Nat) (nc : Bool) (lvl : Nat) (tctl : B64) (a : Access) (asid va j table : Nat) :
    WalkEnd × State :=
  let pa := table + tableIndex va j
  let bad := fun (cause reason : Nat) (half : Bool) (v : B64) => WalkEnd.fault cause (walkInfo a half j reason va) pa v
  if cellOfLine (pa / 8) != s.build.cellOfClu m || !s.linePopulated (pa / 8) then (bad 0x13 3 false 0, s)
  else match s.l2Read m nc pa with
    | none => (.stall, s)
    | some (w, s) =>
      if w.isPoison then (bad 0x13 1 false w.pay, s)
      else if w.isEmpty then (bad 0x10 0 false 0, s)
      else if w.ty != tyPTE then (bad 0x13 2 false w.pay, s)
      else match pteAt j w.pay with
        | .absent => (bad 0x10 0 false w.pay, s)
        | .devPointer => (bad 0x14 0 false w.pay, s)
        | .malformed => (bad 0x10 1 false w.pay, s)
        | .pointer t => (.next (j - 1) t, s)
        | .leaf =>
          let e := leafEnt asid va j w.pay
          match permFault lvl tctl e a with
          | some r => (bad 0x11 r (r == 2 || r == 6) w.pay, s)
          | none =>
            match adFault (w.pay.getLsbD 6) (w.pay.getLsbD 7) a with
            | some r => (bad 0x12 r true w.pay, s)
            | none => (.leaf e, s)

/-- R213: a walk from a table on, at most `fuel` levels; the pointers it passes are answered with it. -/
def walkFrom : Nat → State → Nat → Bool → Nat → B64 → Access → Nat → Nat → Nat → Nat → List (Nat × Nat) →
    WalkEnd × State × List (Nat × Nat)
  | 0, s, _, _, _, _, _, _, _, _, _, ps => (.stall, s, ps)
  | n + 1, s, m, nc, lvl, tctl, a, asid, va, j, t, ps =>
    match s.walkStep m nc lvl tctl a asid va j t with
    | (.next j' t', s) => walkFrom n s m nc lvl tctl a asid va j' t' ((j', t') :: ps)
    | (r, s) => (r, s, ps)

/-! ### Translation caches of a core (R221) -/

/-- The entries are of one page. -/
def TlbEnt.same (x e : TlbEnt) : Bool := x.asid == e.asid && x.vpn == e.vpn && x.large == e.large
/-- The way of a set of 2^lg ways that a fill takes: one that holds nothing, else the one that the tree points to. -/
def fillWay (lg : Nat) (used : List Nat) (tree : Nat) : Nat :=
  ((List.range (2 ^ lg)).find? fun w => !used.contains w).getD (plruVictim lg tree)
/-- R221: an entry put into a fully associative cache of 2^lg entries: it replaces one of the same page, else the way that
the pseudo-LRU tree points to gives way. The tree is DESIGN CHOICE (log 51): the spec names pseudo-LRU and no tree here. -/
def tlbPut (lg : Nat) (l : List TlbEnt) (tree : Nat) (e : TlbEnt) : List TlbEnt × Nat :=
  let l := l.filter fun x => !x.same e
  let w := fillWay lg (l.map TlbEnt.way) tree
  ({ e with way := w } :: l.filter (fun x => x.way != w), plruTouch lg tree w)
/-- R221: an entry put into the L2 TLB of 256 sets of 8 ways: the hash of its set and the victim of a full set are open
(log 51). -/
def l2tlbPut (l : List TlbEnt) (e : TlbEnt) (s : State) : List TlbEnt × State :=
  let l := l.filter fun x => !x.same e
  let set := Config.tlbHash e.vpn e.asid % 256
  let used := (l.filter fun x => x.way / 8 == set).map fun x => x.way % 8
  match (List.range 8).find? fun w => !used.contains w with
  | some w => ({ e with way := set * 8 + w } :: l, s)
  | none =>
    let f := s.fresh
    let w := set * 8 + f.1.toNat % 8
    ({ e with way := w } :: l.filter (fun x => x.way != w), f.2)
/-- R221: a table pointer put into the walk cache. -/
def walkPut (l : List WalkEnt) (tree : Nat) (e : WalkEnt) : List WalkEnt × Nat :=
  let l := l.filter fun x => !(x.asid == e.asid && x.level == e.level && x.vtop == e.vtop)
  let w := fillWay 5 (l.map WalkEnt.way) tree
  ({ e with way := w } :: l.filter (fun x => x.way != w), plruTouch 5 tree w)

/-- R221: a leaf goes into the L2 TLB or the large-page array. -/
def State.leafFill (s : State) (c : Nat) (e : TlbEnt) : State :=
  let k := s.core c
  if e.large then
    let b := tlbPut 6 k.ltlb k.ltlbP e
    s.modCore c fun k => { k with ltlb := b.1, ltlbP := b.2 }
  else
    let b := l2tlbPut k.l2tlb e s
    b.2.modCore c fun k => { k with l2tlb := b.1 }
/-- R221: a data leaf goes into the L1 DTLB. -/
def Core.dtlbPut (k : Core) (e : TlbEnt) : Core :=
  let a := tlbPut 6 k.dtlb k.dtlbP e
  { k with dtlb := a.1, dtlbP := a.2 }
/-- R221: a data leaf goes into the L1 DTLB and into the L2 TLB or the large-page array. -/
def State.tlbFill (s : State) (c : Nat) (e : TlbEnt) : State := (s.leafFill c e).modCore c fun k => k.dtlbPut e

/-- The pointers of a walk go into the walk cache. -/
def State.walkFill (s : State) (c asid va : Nat) (ps : List (Nat × Nat)) : State :=
  ps.foldl (fun s p => s.modCore c fun k =>
    let r := walkPut k.wcache k.wcacheP ⟨asid, p.1, va / 2 ^ (9 * p.1 + 18), p.2, 0⟩
    { k with wcache := r.1, wcacheP := r.2 }) s

/-- The cached data leaf of an address: the L1 DTLB first, then the second level. -/
def Core.tlbFind (k : Core) (asid va : Nat) : Option TlbEnt :=
  match k.dtlb.find? fun e => e.hits asid va with
  | some e => some e
  | none => match k.l2tlb.find? fun e => e.hits asid va with
    | some e => some e
    | none => k.ltlb.find? fun e => e.hits asid va

/-- A hit in the L1 DTLB touches its tree; one behind it refills the DTLB, and in the large-page array touches that tree. -/
def Core.tlbHit (k : Core) (e : TlbEnt) : Core :=
  if k.dtlb.contains e then { k with dtlbP := plruTouch 6 k.dtlbP e.way }
  else
    let k := if k.ltlb.contains e then { k with ltlbP := plruTouch 6 k.ltlbP e.way } else k
    k.dtlbPut e

/-- R215: every cached leaf of the page is discarded. -/
def Core.tlbDrop (k : Core) (asid va : Nat) : Core :=
  let keep := fun (e : TlbEnt) => !e.hits asid va
  { k with itlb := k.itlb.filter keep, dtlb := k.dtlb.filter keep, l2tlb := k.l2tlb.filter keep, ltlb := k.ltlb.filter keep }

/-- R221: a core that did not run in a frame, and an overflow of lists, leave the caches empty. -/
def Core.tlbClear (k : Core) : Core :=
  { k with itlb := [], dtlb := [], l2tlb := [], ltlb := [], wcache := [], itlbP := 0, dtlbP := 0, ltlbP := 0, wcacheP := 0,
           walk := none }

/-- R223: what one request removes from a list of leaves. -/
def Shoot.hitsLeaf (q : Shoot) (e : TlbEnt) : Bool :=
  match q with
  | .page a v => e.asid == a && (if e.large then e.vpn == v / 512 else e.vpn == v)
  | .asid a => e.asid == a
  | .all => true
/-- R223: what one request removes from the walk cache. -/
def Shoot.hitsWalk (q : Shoot) (e : WalkEnt) : Bool :=
  match q with
  | .page a _ => e.asid == a
  | .asid a => e.asid == a
  | .all => true
/-- R225: a core applies a shootdown list. -/
def Core.applyShoot (k : Core) (l : List Shoot) : Core :=
  let keep := fun (e : TlbEnt) => !l.any fun q => q.hitsLeaf e
  { k with itlb := k.itlb.filter keep, dtlb := k.dtlb.filter keep, l2tlb := k.l2tlb.filter keep,
           ltlb := k.ltlb.filter keep, wcache := k.wcache.filter fun e => !l.any fun q => q.hitsWalk e }

/-! ### Translation of one access (R206, R208, R209, R213) -/

/-- A translated access: the entry used and the physical, or device, word address. -/
inductive Tr where
  | ok (e : TlbEnt) (pa : Nat)
  | trap (cause : Nat) (info : B64)
  | stall
  deriving DecidableEq, Repr

/-- R209: the entry of bare mode. -/
def bareEnt : TlbEnt :=
  { asid := 0, vpn := 0, large := false, ppn := 0, r := true, w := true, x := false, u := true, sl := true, dev := false,
    d := true }

/-- R206: the root register of a level. -/
def Core.root (k : Core) (lvl : Nat) : B64 := k.spv (if lvl ≤ 1 then 0x040 else 0x041)
/-- R229: MODE of a root. -/
def rootMode (r : B64) : Nat := fld r 43 40
/-- R229: ASID of a root. -/
def rootAsid (r : B64) : Nat := fld r 63 48
/-- R229: ROOTPA of a root, as an address. -/
def rootTable (r : B64) : Nat := fld r 38 9 * 512
/-- R206, R209: bare mode holds at level M, and at level T while TROOT.MODE is 0. -/
def Core.bare (k : Core) (lvl : Nat) : Bool := lvl == 3 || (lvl == 2 && rootMode (k.root 2) == 0)

/-- R214: a faulting walk loads FLTPTE and FLTVAL. -/
def State.setFlt (s : State) (c pte : Nat) (val : B64) : State :=
  s.modCore c fun k => (k.setSpv 0x045 (BitVec.ofNat 64 pte)).setSpv 0x046 val

/-- R213: the checks before the first read of a walk. -/
def preWalk (lvl mode : Nat) (a : Access) (va : Nat) : Option B64 :=
  if mode == 0 && lvl < 2 then some (walkInfo a false 0 3 va)
  else if va ≥ 2 ^ modeWidth mode then some (walkInfo a false 0 2 va)
  else none

/-- Where a walk of core `c` starts: the deepest cached table pointer, or the root when `whole`. -/
def Core.walkStart (k : Core) (r : B64) (va : Nat) (whole : Bool) : Nat × Nat :=
  let top := modeTop (rootMode r)
  let hit := (List.range top).findSome? fun j =>
    (k.wcache.find? fun e => e.asid == rootAsid r && e.level == j && e.vtop == va / 2 ^ (9 * j + 18)).map fun e => (j, e.table)
  if whole then (top, rootTable r) else hit.getD (top, rootTable r)

/-- R213: the table reads of a walk of core `c`, from the root when `whole`, and the pointers that they leave cached. -/
def State.walkReads (s : State) (c lvl : Nat) (a : Access) (va : Nat) (whole : Bool) : WalkEnd × State :=
  let k := s.core c
  let r := k.root lvl
  let st := k.walkStart r va whole
  let q := walkFrom 5 s (c / 4) false lvl (k.spv 0x047) a (rootAsid r) va st.1 st.2 []
  (q.1, q.2.1.walkFill c (rootAsid r) va q.2.2)
/-- R213, R215, R228: the walk of core `c` for a data access at level `lvl`, and what it leaves in the caches. A fault that a
walk from a cached table pointer meets is raised only if the tables as they now stand, walked from the root, give one. -/
def State.walk (s : State) (c lvl : Nat) (a : Access) (va : Nat) (whole : Bool) : Tr × State :=
  match preWalk lvl (rootMode ((s.core c).root lvl)) a va with
  | some info => (.trap 0x10 info, s.setFlt c 0 0)
  | none =>
    let q := s.walkReads c lvl a va whole
    let q := match q.1 with
      | .fault _ _ _ _ => if whole then q else q.2.walkReads c lvl a va true
      | _ => q
    match q.1 with
    | .leaf e => (.ok e (e.addr va), if a == .fetch then q.2 else q.2.tlbFill c e)
    | .fault cause info pte v => (.trap cause info, q.2.setFlt c pte v)
    | _ => (.stall, q.2)

/-- The translation of a data access of core `c` at level `lvl`: bare, from a cached leaf that permits it, or by a walk. -/
def State.translate (s : State) (c lvl : Nat) (a : Access) (va : Nat) : Tr × State :=
  let k := s.core c
  if k.bare lvl then
    if va < 2 ^ 37 then (.ok bareEnt (s.build.cellOfCore c * 2 ^ 37 + va), s)
    else (.trap 0x19 (BitVec.ofNat 64 (va % 2 ^ 54)), s)
  else
    let r := k.root lvl
    if (preWalk lvl (rootMode r) a va).isSome then s.walk c lvl a va true
    else match k.tlbFind (rootAsid r) va with
      | some e =>
        if (permFault lvl (k.spv 0x047) e a).isNone && (!accWrites a || e.d) then
          (.ok e (e.addr va), s.modCore c fun k => k.tlbHit e)
        else (s.setCore c (k.tlbDrop (rootAsid r) va)).walk c lvl a va true
      | none => s.walk c lvl a va false

/-- R207, R238: whether a core of cell `n` may reach a physical address with a data access. -/
def State.dataReach (s : State) (n pa : Nat) : Bool :=
  if pa / 2 ^ 37 == 3 then (s.scratchAt n pa).isSome else pa / 2 ^ 37 == n && s.linePopulated (pa / 8)

end Sys2Proof.Machine
end

