-- ==== Sys2Proof/Machine/Operands.lean ====
section
/-!
DEFINITION. The registers that a core's instructions see (R73, R74, R101): the windows, the program counter, the status
fields, the dirty bits, the interrupt and collection views; and the operand rules shared by the instructions (R75 to R81).
-/
namespace Sys2Proof.Machine

/-! ### The program counter (R73) -/

/-- R73: the instruction index of a PC value. -/
def pcIdx (p : BitVec 55) : Nat := p.toNat % 2 ^ 54 * 2 + p.toNat / 2 ^ 54
/-- R73: the PC value of an instruction index. -/
def idxPc (i : Int) : BitVec 55 :=
  let n := (i % 2 ^ 55).toNat
  BitVec.ofNat 55 (n / 2 + n % 2 * 2 ^ 54)
/-- The target of a displacement. -/
def pcPlus (p : BitVec 55) (d : Int) : BitVec 55 := idxPc (pcIdx p + d)
/-- The PC in a `LINK` payload. -/
def linkPc (p : B64) : BitVec 55 := p.setWidth 55

/-! ### Status (R101) -/

/-- PSTAT bit `i`. -/
def Core.pbit (k : Core) (i : Nat) : Bool := (k.spv 0x001).getLsbD i
/-- Set PSTAT bit `i`. -/
def Core.setPbit (k : Core) (i : Nat) (b : Bool) : Core := k.setSpv 0x001 (putBit (k.spv 0x001) i b)
/-- Set PSTAT.LEVEL. -/
def Core.setLevel (k : Core) (l : Nat) : Core := k.setSpv 0x001 (putFld (k.spv 0x001) 1 0 l)
/-- CWP. -/
def Core.cwp (k : Core) : Nat := fld (k.spv 0x002) 3 0
/-- Set DIRTY bits. -/
def Core.dirty (k : Core) (m : Nat) : Core := k.setSpv 0x003 (k.spv 0x003 ||| BitVec.ofNat 64 m)
/-- A change of CWP, which sets DIRTY.W (R195). -/
def Core.setCwp (k : Core) (w : Nat) : Core := (k.setSpv 0x002 (BitVec.ofNat 64 (w % 12))).dirty 2
/-- The loop count: LCOUNT as a whole, written with DIRTY.L (R195). -/
def Core.setLcount (k : Core) (v : B64) : Core := (k.setSpv 0x010 v).dirty 4
/-- R88: the loop is active in the window that runs. -/
def Core.loopHere (k : Core) : Bool :=
  let v := k.spv 0x010
  fld v 31 0 != 0 && fld v 35 32 == k.cwp
/-- R88: the core stands at LEND. -/
def Core.atLend (k : Core) : Bool := k.pc == linkPc (k.spv 0x012)

/-- R174, R175: the bank of a level: 1 S, 2 T, 3 M. -/
def bankOf (lvl : Nat) : Nat := if lvl ≤ 1 then 1 else lvl
def Core.spillPtr (k : Core) (b : Nat) : B64 := Tab.get (fun _ => 0) k.spill b
def Core.setSpillPtr (k : Core) (b : Nat) (v : B64) : Core :=
  { k with spill := Tab.set (fun _ => 0) k.spill b (v &&& 0x003FFFFFFFFFFFF8) }
def Core.saveHead (k : Core) (b : Nat) : B64 := Tab.get (fun _ => 0) k.save b
def Core.setSaveHead (k : Core) (b : Nat) (v : B64) : Core :=
  { k with save := Tab.set (fun _ => 0) k.save b (v &&& 0x003FFFFFFFFFFFFF) }

/-! ### Windows (R74, R193) -/

def Core.window (k : Core) (w : Nat) : Win := Tab.get (fun _ => {}) k.win (w % 12)
def Core.setWindow (k : Core) (w : Nat) (x : Win) : Core := { k with win := Tab.set (fun _ => {}) k.win (w % 12) x }

/-- The trap window in use below trap window `x`: where the trap into `x` was taken; 0 for none. -/
def Core.outer (k : Core) (x : Nat) : Nat :=
  if 2 < x && k.twUse.getLsbD 2 then 2 else if 1 < x && k.twUse.getLsbD 1 then 1 else 0

/-- R74: the physical numbers of the first lo and the first out register of window `w`. -/
def loBase (w : Nat) : Nat := 8 + 16 * w
def outBase (w : Nat) : Nat := 16 + 16 * w
/-- R74: the physical number of the first in register of window `w`. -/
def inBase (w : Nat) : Nat := outBase ((w + 11) % 12)
/-- R74: the physical number of the first register of trap window `x`. -/
def trapBase (x : Nat) : Nat := 200 + 16 * (x - 1)

/-- R74: the physical number of visible register `r`. -/
def Core.phys (k : Core) (r : Reg) : Nat :=
  let n := r.toNat
  if n < 8 then n
  else if k.twCur = 0 then
    (if n < 16 then inBase k.cwp + (n - 8) else if n < 24 then loBase k.cwp + (n - 16) else outBase k.cwp + (n - 24))
  else if n < 16 then
    (if k.outer k.twCur = 0 then outBase k.cwp else trapBase (k.outer k.twCur) + 8) + (n - 8)
  else trapBase k.twCur + (n - 16)

/-- R74: physical 0 holds `FIX` 0, every other register resets to `EMPTY`. -/
def regReset (i : Nat) : Word := if i = 0 then Word.nat 0 else Word.empty
/-- A physical register. -/
def Core.preg (k : Core) (i : Nat) : Word := Tab.get regReset k.regs i
/-- Write a physical register; physical 0 discards the write. -/
def Core.setPreg (k : Core) (i : Nat) (w : Word) : Core :=
  if i = 0 then k else { k with regs := Tab.set regReset k.regs i w }
/-- Write physical registers from `i` upward. -/
def Core.setPregs (k : Core) (i : Nat) : List Word → Core
  | [] => k
  | w :: t => Core.setPregs (k.setPreg i w) (i + 1) t
/-- R195: the DIRTY bits that a write of a physical register sets. -/
def dirtyOf (i : Nat) : Nat := if i = 0 then 0 else if i < 8 || 248 ≤ i then 1 else if i < 200 then 2 else 0
/-- R74: read a visible register. -/
def Core.get (k : Core) (r : Reg) : Word := k.preg (k.phys r)
/-- R74, R195: write a visible register. -/
def Core.put (k : Core) (r : Reg) (w : Word) : Core := (k.setPreg (k.phys r) w).dirty (dirtyOf (k.phys r))
/-- lo0 to lo7 and out0 to out7 of a window read `EMPTY` (R193). -/
def Core.clearWindow (k : Core) (w : Nat) : Core :=
  (k.setPregs (loBase w) (List.replicate 8 Word.empty)).setPregs (outBase w) (List.replicate 8 Word.empty)

/-! ### Views -/

/-- R101: CORE_ID. -/
def State.coreId (s : State) (c : Nat) : B64 :=
  BitVec.ofNat 64 (s.build.cellOfCore c * 2 ^ 10 + c / 4 % 16 * 2 ^ 6 + c % 64)
/-- The partition that a core serves is paired (R38). -/
def State.pairedOn (s : State) (c : Nat) : Bool :=
  match (s.core c).part with | some p => (s.part p).paired | none => false
/-- The partition id that names the owner of a core's jobs; a core that serves no partition has a number of its own. -/
def State.jobPart (s : State) (c : Nat) : Nat := (s.core c).part.getD (64 + c)
/-- The strand that a core runs, as the key of what belongs to it (R301). -/
def State.strandOn (s : State) (c : Nat) : Nat :=
  match (s.core c).part with
  | some p => strandKey p (s.sideOfCore c p) (s.core c).strand
  | none => strandKey (64 + c) 0 0
/-- R30: the true core cycle count of a core. -/
def State.cyc (s : State) (c : Nat) : B64 := BitVec.ofNat 64 (s.clock * 8) + (s.core c).cycOff
/-- R30, R39, R101: CYCLE as core `c` reads it. -/
def State.cycleRead (s : State) (c : Nat) : B64 :=
  let k := s.core c
  if 2 ≤ k.level then s.cyc c
  else match k.part with
    | some p =>
      let q := s.part p
      let side := s.sideOfCore c p
      if q.paired then
        BitVec.ofNat 64 (if Tab.get (fun _ => 0) q.rqFrm side != 0 then Tab.get (fun _ => 0) q.rqCyc side else q.startCyc)
      else BitVec.ofNat 64 ((s.clock - s.fc) * 8) + k.cycOff
    | none => BitVec.ofNat 64 ((s.clock - s.fc) * 8) + k.cycOff
/-- R39: FRAMENO as core `c` reads it. -/
def State.framenoRead (s : State) (c : Nat) : B64 :=
  let k := s.core c
  match k.part with
  | some p =>
    let q := s.part p
    if q.paired && k.level ≤ 1 then
      let f := Tab.get (fun _ => 0) q.rqFrm (s.sideOfCore c p)
      BitVec.ofNat 64 (if f != 0 then f - 1 else q.startFrm)
    else BitVec.ofNat 64 s.frame
  | none => BitVec.ofNat 64 s.frame

/-- R148, R149: the good colour on a core; 0 where it serves no partition. -/
def State.goodColour (s : State) (c : Nat) : Nat :=
  match (s.core c).part with | some p => (s.rk p (s.sideOfCore c p)).col | none => 0
/-- A pointer in the good colour. -/
def State.goodPtr (s : State) (c ty a : Nat) : Word := mkWord ty false (s.goodColour c) (BitVec.ofNat 64 a)

/-- R382: a MON_THF bit is set whose monitor has TIRQ. -/
def State.thrPending (s : State) : Bool :=
  (List.range 48).any fun m =>
    (if m < 32 then (s.rd .monThf0).getLsbD m else (s.rd .monThf1).getLsbD (m - 32)) && (s.rd .monCfg 0 m).getLsbD 31

/-- R186: IPEND as core `c` sees it. -/
def State.ipend (s : State) (c : Nat) : B64 :=
  let k := s.core c
  let m := c / 4
  let n := s.build.cellOfCore c
  let b0 := match k.part with | some p => !((s.part p).dlv (s.sideOfCore c p)).isEmpty | none => false
  let b1 := (s.strand (s.strandOn c)).tickets.any fun e => match s.job (e.2 - 1) with
    | some j => e.2 != 0 && j.st == .finished | none => false
  let mg := k.entry == 0xF2
  BitVec.ofNat 64 (b2n b0 + 2 * b2n b1
    + 2 ^ 8 * b2n (mg && (s.rd .shdMstat (n + 1)).getLsbD 30)
    + 2 ^ 9 * b2n (mg && 0 < s.elogOpen n)
    + 2 ^ 10 * b2n (mg && (s.rd .cluRkerr m).getLsbD 31)
    + 2 ^ 11 * b2n (mg && s.thrPending)
    + k.swInt.toNat * 2 ^ 56)
/-- R202: IFIRST. -/
def State.ifirst (s : State) (c : Nat) : Nat :=
  let v := s.ipend c &&& (s.core c).spv 0x051
  ((List.range 64).find? fun i => v.getLsbD i).getD 64

/-- R203: the debug registers match the partition that core `c` runs, and debug is unlocked. -/
def State.dbgOn (s : State) (c : Nat) : Bool :=
  let k := s.core c
  let d := k.spv 0x06E
  s.alm.dbg && (d.getLsbD 6 || k.part == some (fld d 5 0))

/-- R204: an event is counted. -/
def Core.pmc (k : Core) (ev n : Nat) : Core :=
  (List.range 32).foldl (fun k i =>
    let sel := k.spv (0x0A0 + i)
    if fld sel 7 0 == ev && ev != 0 && (fld sel 11 8).testBit k.level
        && (!sel.getLsbD 18 || k.part == some (fld sel 17 12)) then
      k.setSpv (0x080 + i) (k.spv (0x080 + i) + BitVec.ofNat 64 n)
    else k) k

/-! ### Instructions as operations -/

/-- How an instruction stops. -/
inductive Stop where
  /-- A trap with its SINFO and, for causes 0x20 and 0x21, the bank concerned. -/
  | trap (cause : Nat) (info : B64) (bank : Nat)
  /-- R190: a fault that goes to level T whatever TDELEG holds. -/
  | trapT (cause : Nat) (info : B64)
  /-- R19: a wait; the instruction is executed again. -/
  | wait (w : Wait)
  /-- R90: a resumable instruction stops with work left. -/
  | more
  /-- R185: the core locks up. -/
  | lock (lkcause : Nat)
  deriving DecidableEq, Repr

/-- How an instruction completes. -/
inductive Flow where
  | seq
  /-- A transfer; `leaves` where R89 lets it end the loop. -/
  | jump (pc : BitVec 55) (leaves : Bool)
  /-- R188: a transfer whose target is the one-instruction shadow. -/
  | shadow (pc : BitVec 55)
  deriving DecidableEq, Repr

/-- An instruction's body: it changes the state and completes or stops. -/
abbrev Op := ExceptT Stop (StateM State)

/-- A trap. -/
def trapOp {α : Type} (cause : Nat) (info : Nat := 0) (bank : Nat := 2) : Op α :=
  throw (.trap cause (BitVec.ofNat 64 info) bank)
/-- R190: what `body` raises goes to level T. -/
def atT {α : Type} (body : Op α) : Op α :=
  tryCatch body fun e => match e with
    | .trap cause info _ => throw (.trapT cause info)
    | e => throw e
/-- A trap unless `b`. -/
def need (b : Bool) (cause : Nat) (info : Nat := 0) (bank : Nat := 2) : Op Unit :=
  if b then pure () else trapOp cause info bank
/-- R19: a memory stall. -/
def stall {α : Type} : Op α := throw (.wait .memory)
/-- The core. -/
def coreOp (c : Nat) : Op Core := do return (← get).core c
/-- Change the core. -/
def modOp (c : Nat) (f : Core → Core) : Op Unit := modify fun s => s.modCore c f
/-- A visible register. -/
def regOp (c : Nat) (r : Reg) : Op Word := do return (← coreOp c).get r
/-- Write a visible register. -/
def putOp (c : Nat) (r : Reg) (w : Word) : Op Unit := modOp c fun k => k.put r w

/-- R177: SINFO of causes 0x03 and 0x04. -/
def tagInfo (opnd : Nat) (w : Word) : Nat := opnd * 256 + w.tag.toNat
def bndInfo (opnd : Nat) : Nat := opnd * 256
/-- R128: SINFO of cause 0x05. -/
def secInfo (role opnd : Nat) : Nat := role * 256 + opnd

/-- Trap 0x03 unless `b`, naming operand `o` that holds `w`. -/
def needTag (b : Bool) (o : Nat) (w : Word) : Op Unit := need b 0x03 (tagInfo o w)
/-- R127: a steering operand. -/
def steer (role o : Nat) (w : Word) : Op Unit := need (!w.sec) 0x05 (secInfo role o)
/-- R93: the least level of an instruction. -/
def needLevel (c l : Nat) : Op Unit := do need (l ≤ (← coreOp c).level) 0x0B
/-- R75: a word operand. -/
def wordOp (c : Nat) (o : Nat) (r : Reg) : Op Word := do
  let w ← regOp c r
  needTag w.isWordOp o w
  return w
/-- A `FIX` operand. -/
def fixOp (c : Nat) (o : Nat) (r : Reg) : Op Word := do
  let w ← regOp c r
  needTag w.isFix o w
  return w
/-- R75: the result of word operands: `RAW` if any is, labelled if any is. -/
def wordRes (ws : List Word) (v : B64) : Word :=
  mkWord (if ws.any Word.isRaw then tyRAW else tyFIX) (ws.any Word.sec) 0 v
/-- A `FIX` result labelled if any operand is. -/
def fixRes (ws : List Word) (v : B64) : Word := Word.fix v (ws.any Word.sec)
/-- A Boolean as a payload. -/
def boolPay (b : Bool) : B64 := if b then 1 else 0

end Sys2Proof.Machine
end

