-- ==== Sys2Proof/Machine/Ucode.lean ====
section
/-!
DEFINITION. The control store as a sequencer fetches it (R117 to R121, R124).
-/
namespace Sys2Proof.Machine

/-- R117: words of a control store. -/
def csWords : Nat := 8192
/-- A control-store word. -/
def Clu.csWord (k : Clu) (a : Nat) : BitVec 96 := Tab.get (fun _ => 0) k.cs a
/-- R117: NEXT. -/
def ucNext (w : BitVec 96) : Nat := fld w 95 83
/-- R117: SEQ. -/
def ucSeq (w : BitVec 96) : Nat := fld w 82 80
/-- R117: the cause that SEQ 4 raises, CONST[7:0]. -/
def ucCause (w : BitVec 96) : Nat := fld w 19 12

/-- R117, R124: what the words from `a` on do before the first one that decides on data or ends the sequence (SEQ 1, 2, 3);
from there on the effect is the one that the rule of the path states (log 49). `ret` is the remembered address of SEQ 5 and
6. A word latched as bad locks the core up with LKCAUSE 4, SEQ 7 with LKCAUSE 5. -/
def ucWalk (k : Clu) : Nat → Nat → Option Nat → Option Stop
  | 0, _, _ => none
  | n + 1, a, ret =>
    if k.csBad.contains a then some (.lock 4)
    else
      let w := k.csWord a
      match ucSeq w with
      | 0 => ucWalk k n (ucNext w) ret
      | 4 => some (.trap (ucCause w) 0 2)
      | 5 => ucWalk k n (ucNext w) (some ((a + 1) % csWords))
      | 6 => match ret with | some b => ucWalk k n b none | none => none
      | 7 => some (.lock 5)
      | _ => none
/-- R121: what the entry at `a` does before its path's own effect: nothing, or a stop. -/
def Clu.ucEntry (k : Clu) (a : Nat) : Option Stop := ucWalk k 64 a none

/-- R121: core `c`'s sequencer enters the control store at `a`. -/
def enterUc (c a : Nat) : Op Unit := do
  match ((← get).clu (c / 4)).ucEntry a with
  | some e => throw e
  | none => pure ()
/-- R120, R121: a microcoded path entered at `a`: its memory stalls are no instruction boundary. -/
def micro {α : Type} (c a : Nat) (body : Op α) : Op α := do
  enterUc c a
  tryCatch body fun e => match e with
    | .wait .memory => throw (.wait .micro)
    | e => throw e

end Sys2Proof.Machine
end

