-- ==== Sys2Proof/Machine/Ops.lean ====
section
/-!
DEFINITION. What cores do beside computing: reads and writes of memory words, the load barrier and the card marks
(chapter 06), register windows in memory, trap entry and return (chapter 07), and how an instruction is issued and retired.
-/
namespace Sys2Proof.Machine

/-! ### Memory words (R238, R246, R247) -/

/-- R246, R247: a read of a physical word by core `c`: from its store buffer, the youngest entry first, from the scratch, or
coherently; none where it must wait. -/
def State.coreRead (s : State) (c pa : Nat) : Option (Word × State) :=
  match (s.core c).sb.reverse.find? fun e => e.pa == pa with
  | some e => some (e.w, s)
  | none =>
    match s.scratchAt (s.build.cellOfCore c) pa with
    | some (m, o) => some (s.scratchWord m o, s)
    | none => s.l2Read (c / 4) false pa

/-- A write of a physical word performed at once for cluster `m`; false where it must wait. -/
def State.l2Write (s : State) (m pa : Nat) (w : Word) : State × Bool :=
  let n := s.build.cellOfClu m
  match s.scratchAt n pa with
  | some (j, o) => (s.setScratch j o w, true)
  | none =>
    if (s.cell n).l2off then s.ncWriteWord pa w
    else
      let r := s.acquireM m (pa / 8)
      if r.2 then
        let x := r.1.l2Line m (pa / 8)
        ((r.1.setL2 m (pa / 8) (x.setWord (pa % 8) w)).l2Touch m (pa / 8) x.way, true)
      else r

/-- R93: the oldest store buffer entries that are performed together, and the rest. -/
def sbGroup : List SbEnt → List SbEnt × List SbEnt
  | [] => ([], [])
  | e :: t => if e.tied then (e :: (sbGroup t).1, (sbGroup t).2) else ([e], t)
/-- Writes performed one after another for cluster `m`; false where one must wait. -/
def State.l2Writes (s : State) (m : Nat) : List (Nat × Word) → State × Bool
  | [] => (s, true)
  | e :: t =>
    let r := s.l2Write m e.1 e.2
    if r.2 then State.l2Writes r.1 m t else r
/-- R93: writes seen whole or not at all: where one must wait, none is performed; the wait for the first goes on. -/
def State.l2Whole (s : State) (m : Nat) (ws : List (Nat × Word)) : State × Bool :=
  let r := s.l2Writes m ws
  if r.2 then r
  else match ws with
    | [] => (s, true)
    | e :: _ =>
      let f := s.l2Write m e.1 e.2
      if f.2 then (s, false) else f

/-- R93, R246: the oldest store buffer entry of core `c` is performed, with those tied to it; false where it must wait. -/
def State.performOldest (s : State) (c : Nat) : State × Bool :=
  let g := sbGroup (s.core c).sb
  let r := s.l2Whole (c / 4) (g.1.map fun e => (e.pa, e.w))
  if r.2 then (r.1.modCore c fun k => { k with sb := g.2 }, true) else r

/-- R249: the oldest home atomic of core `c` is performed whole. -/
def State.atomicOldest (s : State) (c : Nat) : State × Bool :=
  match (s.core c).atomics with
  | [] => (s, true)
  | a :: t =>
    let q := a.req c
    let r := s.ncAtomic q.1 q.2
    if r.2 then (r.1.modCore c fun k => { k with atomics := t }, true) else r

/-- All of a core's stores and home atomics are performed, at most `n` of each; false where one must wait. -/
def drainStores : Nat → State → Nat → State × Bool
  | 0, s, c => (s, (s.core c).sb.isEmpty)
  | n + 1, s, c =>
    if (s.core c).sb.isEmpty then (s, true)
    else
      let r := s.performOldest c
      if r.2 then drainStores n r.1 c else r
/-- The same for home atomics. -/
def drainAtomics : Nat → State → Nat → State × Bool
  | 0, s, c => (s, (s.core c).atomics.isEmpty)
  | n + 1, s, c =>
    if (s.core c).atomics.isEmpty then (s, true)
    else
      let r := s.atomicOldest c
      if r.2 then drainAtomics n r.1 c else r
/-- R247: every earlier store and home atomic of core `c` is performed. -/
def State.drain (s : State) (c : Nat) : State × Bool :=
  let r := drainStores 8 s c
  if r.2 then drainAtomics (r.1.core c).atomics.length r.1 c else r

/-- A read of a physical word. -/
def readPa (c pa : Nat) : Op Word := do
  match (← get).coreRead c pa with
  | some (w, t) => set t; return w
  | none => stall

/-- R246: room in the store buffer for `n` more words, made by performing its oldest stores, at most `fuel` of them. -/
def sbRoom (c n : Nat) : Nat → Op Unit
  | 0 => do if (← coreOp c).sb.length + n ≤ 8 then pure () else stall
  | fuel + 1 => do
    if (← coreOp c).sb.length + n ≤ 8 then pure ()
    else
      let r := (← get).performOldest c
      set r.1
      if r.2 then sbRoom c n fuel else stall

/-- R246: a store retires into the store buffer, which has room for it. -/
def pushStore (c pa : Nat) (w : Word) (tied : Bool) : Op Unit := modOp c fun k => { k with sb := k.sb ++ [⟨pa, w, tied⟩] }
/-- R246: a store retires into the store buffer. -/
def writePa (c pa : Nat) (w : Word) : Op Unit := do
  sbRoom c 1 8
  pushStore c pa w false

/-- R247: a fence. -/
def fenceOp (c : Nat) : Op Unit := do
  let r := (← get).drain c
  set r.1
  if r.2 then pure () else stall

/-! ### Translated accesses -/

/-- A translation at a level, its faults as traps (R213 to R218). -/
def transAt (c lvl : Nat) (a : Access) (va : Nat) : Op (TlbEnt × Nat) := do
  let r := (← get).translate c lvl a va
  set r.2
  match r.1 with
  | .ok e pa => return (e, pa)
  | .trap cause info => throw (.trap cause info 2)
  | .stall => stall

/-- R207: the physical word of a translated memory access of core `c`, or cause 0x19. -/
def reachOp (c va pa : Nat) : Op Unit := do
  let s ← get
  need (s.dataReach (s.build.cellOfCore c) pa) 0x19 va

/-- A translated access to memory: the entry and the physical word. -/
def memAt (c lvl : Nat) (a : Access) (va : Nat) : Op (TlbEnt × Nat) := do
  let r ← transAt c lvl a va
  if r.1.dev then return r
  reachOp c va r.2
  return r

/-- R203: a data watch that matches. -/
def State.watchHit (s : State) (c va : Nat) (st : Bool) : Option Nat :=
  let k := s.core c
  if !s.dbgOn c then none
  else (List.range 4).find? fun i =>
    let m := k.spv (0x06A + i)
    (k.spv 0x060).getLsbD (4 + i) && m.getLsbD (if st then 63 else 62)
      && ((BitVec.ofNat 54 va ^^^ (k.spv (0x066 + i)).setWidth 54) &&& m.setWidth 54) == 0

/-- R178 order 12: the data watch of an access. -/
def watchOp (c va : Nat) (st : Bool) : Op Unit := do
  match (← get).watchHit c va st with
  | some i => trapOp 0x38 (3 + i * 16)
  | none => pure ()

/-! ### The heap (R146, R147) -/

/-- The collection state that a core works under, with its partition and side. -/
def State.rkOn (s : State) (c : Nat) : Option (Nat × Nat × Rk) :=
  (s.core c).part.map fun p => (p, s.sideOfCore c p, s.rk p (s.sideOfCore c p))
def Rk.spv (r : Rk) (n : Nat) : Nat := (Tab.get (fun _ => (0 : B64)) r.reg n).toNat
/-- R146: an address lies in the heap. -/
def Rk.inHeap (r : Rk) (a : Nat) : Bool := r.spv 0x300 ≤ a && a < r.spv 0x300 + r.spv 0x301 * 65536
/-- R146: the region of a heap address. -/
def Rk.region (r : Rk) (a : Nat) : Nat := (a - r.spv 0x300) / 65536
/-- R146: an address lies in a young region. -/
def Rk.youngAddr (r : Rk) (a : Nat) : Bool := r.inHeap a && r.region a < r.spv 0x302
def Rk.oldAddr (r : Rk) (a : Nat) : Bool := r.inHeap a && !decide (r.region a < r.spv 0x302)
/-- R146: the card of a heap address. -/
def Rk.card (r : Rk) (a : Nat) : Nat := (a - r.spv 0x300) / 512
/-- R149: a target is to be marked. -/
def Rk.marks (r : Rk) (a : Nat) : Bool := r.phase == 1 && r.inHeap a && (!r.young || decide (r.region a < r.spv 0x302))

/-- R162: a priority request to the engine that owns the region. -/
def State.postPrio (s : State) (c p side : Nat) (a : Nat) : State :=
  let r := s.rk p side
  let m := s.build.cellOfCore c * s.build.cluPerCell + r.region a % s.build.cluPerCell
  let q := (s.clu m).prio
  if q.any fun e => e.part == p && e.side == side && e.a == a then s
  else if q.length < 16 then s.modClu m fun k => { k with prio := q ++ [⟨p, side, a, s.frame⟩] }
  else s.incf .cluRkprio m 0 15 8

/-- R155: a mark buffer goes to the mark queue; false while the queue has no room for it. -/
def State.flushMarks (s : State) (c : Nat) : State × Bool :=
  let none_ := fun (s : State) => s.modCore c fun k => { k with mark := [], flushDue := false }
  match s.rkOn c with
  | none => (none_ s, true)
  | some (p, side, r) =>
    let mb := (s.core c).mark.map BitVec.toNat
    if mb.isEmpty || r.mq.length + mb.length ≤ r.spv 0x307 * 8 then
      (none_ (s.modRk p side fun r => { r with mq := r.mq ++ mb }), true)
    else (s, false)
/-- R155: a flush that waits since a tick is made as soon as there is room; until then the core stalls. -/
def State.flushWaiting (s : State) (c : Nat) : State :=
  if (s.core c).flushDue then
    let r := s.flushMarks c
    if r.2 then r.1 else r.1.modCore c fun k => { k with wait := .memory }
  else s

/-- A word of the partition's memory that the hardware reads on a strand's behalf: at S rights in the partition space, or
bare. -/
def hwRead (c va : Nat) : Op Word := do
  let l := (← coreOp c).level
  let r ← memAt c (if l == 3 then 3 else min l 1) .load va
  readPa c r.2

/-- R159: the card that a store of `w` at `va` marks, unless it is among the core's last four, and the physical word of its
bit; nothing changes (R75). -/
def cardFind (c va : Nat) (w : Word) : Op (Option (Nat × Nat)) := do
  match (← get).rkOn c with
  | none => return none
  | some (_, _, r) =>
    if w.isPtr && r.youngAddr w.pay.toNat && r.oldAddr va then
      let card := r.card va
      if (← coreOp c).cards.contains card then return none
      else
        let l := (← coreOp c).level
        let x ← memAt c (if l == 3 then 3 else min l 1) .load (r.spv 0x305 + card / 64)
        return some (card, x.2)
    else return none
/-- R159: the card bit is set by an atomic OR. -/
def cardPost (c : Nat) : Option (Nat × Nat) → Op Unit
  | none => pure ()
  | some (card, pa) => modOp c fun k =>
    { k with cards := if k.cards.contains card then k.cards else (card :: k.cards).take 4,
             atomics := k.atomics ++ [.aor pa (BitVec.ofNat 64 (2 ^ (card % 64)))] }

/-- R162, R173: a saturating count of a collection register. -/
def State.rkCount (s : State) (part side n : Nat) : State :=
  s.modRk part side fun r => { r with reg := Tab.set (fun _ => 0) r.reg n (BitVec.ofNat 64 (satInc 64 (r.spv n))) }
/-- R153, R154, R156: the address that a pointer of another colour is healed to; the barrier traps or waits where the object
stands in a region being evacuated and has not moved. A wait is counted once (R173), however often it is retried. -/
def barrierTarget (c part side : Nat) (r : Rk) (a0 : Nat) (soft : Bool) (retry : Wait) : Op Nat := do
  if !r.inHeap a0 then return a0
  let h ← hwRead c a0
  if h.isFwd then return h.pay.toNat % 2 ^ 54
  else if r.phase == 3 then
    let e ← hwRead c (r.spv 0x303 + r.region a0)
    if fld e.pay 63 60 == 3 then
      modify fun s => s.postPrio c part side a0
      if !soft && (← coreOp c).level ≤ 1 && !((← get).part part).paired then
        modify fun s => s.rkCount part side 0x315
        trapOp 0x06 a0
      else
        if (← coreOp c).wait != retry then modify fun s => s.rkCount part side 0x314
        throw (.wait retry)
  return a0
/-- R155: the core's mark buffer has room for a mark, after a flush where it is full. -/
def markRoom (c : Nat) : Op Unit := do
  if 16 ≤ (← coreOp c).mark.length then
    let f := (← get).flushMarks c
    set f.1
    if f.2 then pure () else stall
/-- R153 to R156: the load barrier on the pointer `p` read from the physical word `pa` at `va`; `soft` names a load of a
context, a window or a save area, `retry` the command that a waiting core executes again, `chk` a check that comes before
anything changes (R75, R178 order 12). -/
def barrier (c va pa : Nat) (p : Word) (soft : Bool) (retry : Wait) (chk : Op Unit) : Op Word := do
  let s ← get
  match s.rkOn c with
  | none => do chk; return p
  | some (part, side, r) =>
    if !p.isPtr || p.sub == r.col then do chk; return p
    else micro c 0x0098 do
      let a0 := p.pay.toNat % 2 ^ 54
      let a ← barrierTarget c part side r a0 soft retry
      let m := r.inHeap a0 && r.marks a
      if m then markRoom c
      let q := mkWord p.ty false r.col (putFld p.pay 53 0 a)
      let f ← cardFind c va q
      chk
      modOp c fun k =>
        let k := k.pmc 10 1
        { k with mark := if m then k.mark ++ [BitVec.ofNat 64 a] else k.mark, atomics := k.atomics ++ [.cas pa p q] }
      cardPost c f
      return q

/-! ### Windows in memory (R193, R194) -/

/-- R194: SINFO of causes 0x20 to 0x22. -/
def winInfo (reason under va : Nat) : Nat := reason * 2 ^ 60 + under % 64 * 2 ^ 54 + va % 2 ^ 54

/-- R132, R194: a translated access for a spill, fill or save: translation and bus faults, and a page that is not SEAL, come
out as `cause`. -/
def sealAt (c lvl cause bank : Nat) (a : Access) (va : Nat) : Op Nat := do
  let r := (← get).translate c lvl a va
  set r.2
  match r.1 with
  | .stall => stall
  | .trap under _ => trapOp cause (winInfo 1 under va) bank
  | .ok e pa =>
    need e.sl cause (winInfo 2 0 va) bank
    let s ← get
    need (s.dataReach (s.build.cellOfCore c) pa) cause (winInfo 1 0x19 va) bank
    return pa

/-- R193: words written through the cluster L2 from `pa` upward. -/
def l2Words (c pa : Nat) : List Word → Op Unit
  | [] => pure ()
  | w :: t => do
    let r := (← get).l2Write (c / 4) pa w
    set r.1
    if r.2 then l2Words c (pa + 1) t else stall

/-- R93: writes through the cluster L2 that are seen whole or not at all. -/
def l2Whole (c : Nat) (ws : List (Nat × Word)) : Op Unit := do
  let r := (← get).l2Whole (c / 4) ws
  set r.1
  if r.2 then pure () else stall

/-- R246: the core's earlier stores are performed first, so that they stay before a write made through the L2. -/
def drainFirst (c : Nat) : Op Unit := do
  let d := drainStores 8 (← get) c
  set d.1
  if d.2 then pure () else stall

/-- R193: both lines of a record are obtained before anything is written. -/
def ownLine (c pa : Nat) : Op Unit := do
  drainFirst c
  let s ← get
  if (s.scratchAt (s.build.cellOfCore c) pa).isSome || (s.cell (s.build.cellOfCore c)).l2off then pure ()
  else
    let r := s.acquireM (c / 4) (pa / 8)
    set r.1
    if r.2 then pure () else stall

/-- R193: the sixteen words of the frame in window `w`: lo0 to lo7, then in0 to in7. -/
def Core.frameWords (k : Core) (w : Nat) : List Word :=
  (List.range 8).map (fun i => k.preg (loBase w + i)) ++ (List.range 8).map fun i => k.preg (inBase w + i)

/-- R193: the frame in window `w` is spilled to the bank of its owner. -/
def spillWindow (c w : Nat) : Op Unit := do
  let k ← coreOp c
  let b := bankOf (k.window w).owner
  let top := (k.spillPtr b).toNat
  let base := (2 ^ 54 - 16 + top) % 2 ^ 54
  let pa0 ← sealAt c b 0x20 b .store base
  let pa1 ← sealAt c b 0x20 b .store (base + 8)
  ownLine c pa0
  ownLine c pa1
  l2Words c pa0 ((k.frameWords w).take 8)
  l2Words c pa1 ((k.frameWords w).drop 8)
  modOp c fun k => ((k.setSpillPtr b (BitVec.ofNat 64 base)).setWindow w { k.window w with res := false, held := false }).pmc 6 1

/-- R74, R193: the window after CWP and the one whose in registers are its outs hold no frame. -/
def roomFor (c : Nat) : Op Unit := do
  let k ← coreOp c
  if (k.window (k.cwp + 1)).res then spillWindow c ((k.cwp + 1) % 12)
  let k ← coreOp c
  if (k.window (k.cwp + 2)).res then spillWindow c ((k.cwp + 2) % 12)

/-- R193, R194: a loaded word of a fill or a save area. -/
def sealWord (c lvl cause bank va : Nat) : Op Word := do
  let pa ← sealAt c lvl cause bank .load va
  let w ← readPa c pa
  need (!w.isPoison) cause (winInfo 3 0x1A va) bank
  barrier c va pa w true .memory (pure ())

/-- Words from `va` upward. -/
def sealWords (c lvl cause bank va : Nat) : Nat → Op (List Word)
  | 0 => pure []
  | n + 1 => do
    let w ← sealWord c lvl cause bank va
    let t ← sealWords c lvl cause bank (va + 1) n
    return w :: t

/-- R193: window `w` is made resident for level `lvl`, filled from its bank if it is not. -/
def fillWindow (c w lvl : Nat) : Op Unit := do
  let k ← coreOp c
  if (k.window w).res then pure ()
  else
    let b := bankOf lvl
    let va := (k.spillPtr b).toNat
    let ws ← sealWords c b 0x21 b va 16
    modOp c fun k =>
      (((((k.setPregs (loBase w) (ws.take 8)).setPregs (inBase w) (ws.drop 8)).setSpillPtr b
        (BitVec.ofNat 64 (va + 16))).setWindow w ⟨lvl, true, false⟩).dirty 2).pmc 7 1

/-- R193: the window after CWP is entered for a new frame owned by `owner`. -/
def Core.enterWindow (k : Core) (owner : Nat) : Core :=
  let w := (k.cwp + 1) % 12
  ((k.clearWindow w).setCwp w).setWindow w ⟨owner, true, false⟩
/-- The frame in window CWP ends and window `w` is current. -/
def Core.leaveWindow (k : Core) (w : Nat) : Core :=
  (k.setWindow k.cwp { k.window k.cwp with res := false, held := false }).setCwp w

/-! ### Traps (R177 to R185) -/

/-- R177: causes that TDELEG can delegate. -/
def delegable (cause : Nat) : Bool :=
  (1 ≤ cause && cause ≤ 9) || cause == 0x0B || cause == 0x22 || cause == 0x29 || cause == 0x2A || cause == 0x31

/-- R177: the target level of a trap. -/
def State.trapTarget (s : State) (c cause bank : Nat) : Nat :=
  let k := s.core c
  if cause == 0x20 || cause == 0x21 then max k.level bank
  else if delegable cause && (k.spv 0x053).getLsbD cause && !(cause == 0x31 && s.pairedOn c) then max k.level 1
  else max k.level 2

/-- R101, R202: the numbers of SPC_x, SSTAT_x, SCAUSE_x, SINFO_x, SLOOP_x and TVEC_x. -/
def spcN (x : Nat) : Nat := 0x018 + 8 * x
def tvecN (x : Nat) : Nat := 0x037 + x

/-- R179: PSTAT on entry: LEVEL is `x`; IE, DCL, SSTEP, RESUME and SHADOW are 0; NOPROM stays. -/
def Core.trapStat (k : Core) (x : Nat) : Core := k.setSpv 0x001 ((k.spv 0x001 &&& 0x20) ||| BitVec.ofNat 64 x)
/-- R181: the entry of a cause. -/
def Core.vector (k : Core) (x cause : Nat) : BitVec 55 :=
  BitVec.ofNat 55 ((k.spv (tvecN x)).toNat % 2 ^ 54 + 4 * cause)

/-- R179, R180: the entry sequence proper. -/
def Core.enterSeq (k : Core) (x cause : Nat) (info : B64) (pc : BitVec 55) (twin : Bool) (cwp outer : Nat) : Core :=
  let lvl := k.level
  let st := (k.spv 0x001).toNat % 256 + cwp * 2 ^ 8 + outer * 2 ^ 12 + b2n twin * 2 ^ 14
  let k := k.setSp (spcN x) (Word.link lvl pc)
  let k := k.setSp (spcN x + 1) (Word.nat st)
  let k := k.setSp (spcN x + 2) (Word.nat cause)
  let k := k.setSp (spcN x + 3) (Word.fix info)
  let k := k.setSp (spcN x + 4) (Word.fix (k.spv 0x010))
  let k := (k.setLcount 0).trapStat x
  { k with pc := k.vector x cause, wait := .none, entering := true }

/-- R204: a trap (event 4) or an interrupt (event 5) that is taken is counted. -/
def Core.countTrap (k : Core) (cause : Nat) : Core := k.pmc (if cause == 0x31 || cause == 0x32 then 5 else 4) 1
/-- R179: an entry that uses the trap window of `x`, or the lockup that takes its place (R184, R185). -/
def State.enterTwin (s : State) (c x cause : Nat) (info : B64) (pc : BitVec 55) : State :=
  let k := s.core c
  if (cause == 0x20 || cause == 0x21) && x == 3 then s.lockup c 3 cause k.pc
  else if k.twUse.getLsbD x then s.lockup c 2 cause k.pc
  else s.modCore c fun k =>
    let e := (k.countTrap cause).enterSeq x cause info pc true k.cwp k.twCur
    { e with twUse := e.twUse ||| BitVec.ofNat 4 (2 ^ x), twRel := e.twRel &&& ~~~(BitVec.ofNat 4 (2 ^ x)), twCur := x }

/-- How an attempt to enter a trap ends. -/
inductive Entry where
  /-- The trap is taken. -/
  | taken
  /-- A spill fault replaced it. -/
  | replaced
  /-- It waits for the spill engine. -/
  | waits
  deriving DecidableEq, Repr
/-- R179: a trap with cause `cause` enters level `x`; `pc` is what SPC_X saves. A spill fault replaces it, and a wait for the
spill engine leaves the core where it is: a synchronous trap recurs, an interrupt stays pending. -/
def State.tryTrap (s : State) (c x cause : Nat) (info : B64) (pc : BitVec 55) : State × Entry :=
  let s := s.dropShadow c
  let k := s.core c
  if k.twCur != 0 || cause == 0x20 || cause == 0x21 then (s.enterTwin c x cause info pc, .taken)
  else
    let r := (roomFor c).run.run s
    match r.1 with
    | .ok _ => (r.2.modCore c fun k => ((k.countTrap cause).enterWindow x).enterSeq x cause info pc false k.cwp 0, .taken)
    | .error (.trap f fi b) => (r.2.enterTwin c (max k.level b) f fi pc, .replaced)
    | .error _ => (r.2.modCore c fun k => { k with wait := .memory }, .waits)
/-- R179: the entry of a trap. -/
def State.enterTrap (s : State) (c x cause : Nat) (info : B64) (pc : BitVec 55) : State := (s.tryTrap c x cause info pc).1

/-- R179, R182: the special entry of a fill fault that a `TRET` at level `x` raised. -/
def State.enterFillFault (s : State) (c x : Nat) (info : B64) : State :=
  if x == 3 then s.lockup c 3 0x21 (s.core c).pc
  else (s.dropShadow c).modCore c fun k =>
    let k := ((k.setSp (spcN x + 2) (Word.nat 0x21)).setSp (spcN x + 3) (Word.fix info)).trapStat x
    let b := BitVec.ofNat 4 (2 ^ x)
    let k := k.pmc 4 1
    { k with pc := k.vector x 0x21, twUse := k.twUse ||| b, twRel := k.twRel ||| b, twCur := x, wait := .none, entering := true }

/-- A synchronous trap of the instruction at the PC. -/
def State.trapHere (s : State) (c cause : Nat) (info : B64) (bank : Nat) : State :=
  s.enterTrap c (s.trapTarget c cause bank) cause info (s.core c).pc

/-! ### Issue and retirement -/

/-- R37, R185, R199, R402: a core that can execute an instruction: it is not locked up, it is not between its preemption
point and the end of its switch, its cell is not DOWN, no zeroization runs, and its cluster has left reset with a measured control store (R122). -/
def State.canIssue (s : State) (c : Nat) : Bool :=
  !(s.core c).locked && (s.clu (c / 4)).csOk && ((s.core c).switched || (s.core c).preempt) && (s.cell (s.build.cellOfCore c)).st != 4 && !s.alm.zbusy

/-- R203: the instruction breakpoint that fires before the instruction at the PC. -/
def State.ibpHit (s : State) (c : Nat) : Option Nat :=
  let k := s.core c
  if !s.dbgOn c || k.pbit 3 then none
  else (List.range 4).find? fun i => (k.spv 0x060).getLsbD i && linkPc (k.spv (0x062 + i)) == k.pc

/-- R203: core `c` traces: debug is unlocked, the partition is the one named, TRACECTL.ON is 1, the level is traced, and the buffer
is not at its end. What a record holds beside the words of `traceWord`, and when one is written, the spec does not say (log 45). -/
def State.tracing (s : State) (c : Nat) : Bool :=
  let k := s.core c
  s.dbgOn c && (k.spv 0x06F).getLsbD 0 && fld (k.spv 0x06F) 2 1 ≤ k.level && fld (k.spv 0x070) 53 0 < fld (k.spv 0x071) 53 0
/-- R137: a word as a trace record carries it: its tag, and the payload 0. -/
def traceWord (w : Word) : Word := ⟨w.tag, 0⟩

/-- R88, R89: where the core goes after an instruction at `pc` in window `w` has completed. -/
def Core.advance (k : Core) (pc : BitVec 55) (w : Nat) (f : Flow) : Core :=
  let lc := k.spv 0x010
  let lo := linkPc (k.spv 0x011)
  let hi := linkPc (k.spv 0x012)
  match f with
  | .seq =>
    if fld lc 31 0 != 0 && fld lc 35 32 == k.cwp && pc == hi then
      if 1 < fld lc 31 0 then { k.setLcount (lc - 1) with pc := lo }
      else { k.setLcount 0 with pc := pcPlus hi 1 }
    else { k with pc := pcPlus pc 1 }
  | .jump t leaves =>
    if leaves && fld lc 31 0 != 0 && fld lc 35 32 == w && (pcIdx t < pcIdx lo || pcIdx hi < pcIdx t) then
      { k.setLcount 0 with pc := t }
    else { k with pc := t }
  | .shadow t => { k with pc := t }

/-- R178 order 1, R179: the single-step trap of the instruction just completed; while the entry waits for the spill engine it
stays pending, and a spill fault replaces it: it is then abandoned (DEDUCED, log 51: no instruction is executed again from
which it could recur). -/
def State.stepTrap (s : State) (c : Nat) : State :=
  let r := s.tryTrap c (s.trapTarget c 0x38 2) 0x38 1 (s.core c).pc
  r.1.modCore c fun k => { k with stepPend := r.2 == .waits }
/-- Retirement: the PC moves (R88, R89), RESUME clears (R90) but for the instructions that restore it (R182), SHADOW is 1
only after `GATE`, `GRET` and `TRET` (R188), the instruction is counted, and a single step traps unless the shadow comes
first (R178, R188). `k0` is the core at issue. -/
def State.retire (s : State) (c : Nat) (k0 : Core) (f : Flow) : State :=
  let sh := match f with | .shadow _ => true | _ => false
  let s := s.modCore c fun k =>
    let k := k.advance k0.pc k0.cwp f
    let k := ((if sh then k else k.setPbit 3 false).setPbit 6 sh).pmc 2 1
    { k with wait := .none, ucResume := if k0.pbit 3 then 0 else k.ucResume }
  if k0.pbit 4 && !sh then s.stepTrap c else s

/-- One instruction of core `c`: `ct` a control transfer, `tret` the `TRET`. R178: an instruction breakpoint comes first, then
the instruction's own checks, which its body makes. -/
def State.issue (s : State) (c : Nat) (ct tret : Bool) (body : Op Flow) : State :=
  let s := s.flushWaiting c
  if !s.canIssue c || (s.core c).flushDue then s
  else if (s.core c).stepPend then s.stepTrap c
  else
    let k0 := s.core c
    match s.ibpHit c with
    | some i => s.enterTrap c (s.trapTarget c 0x38 2) 0x38 (BitVec.ofNat 64 (2 + i * 16)) k0.pc
    | none =>
      if ct && k0.loopHere && k0.atLend then s.trapHere c 0x01 0 2
      else
        let r := body.run.run (s.modCore c fun k => { k with entering := false })
        match r.1 with
        | .ok f => r.2.retire c k0 f
        | .error (.trap cause info bank) =>
          if tret && cause == 0x21 then r.2.enterFillFault c (max k0.level bank) info
          else r.2.trapHere c cause info bank
        | .error (.trapT cause info) => r.2.enterTrap c (max k0.level 2) cause info k0.pc
        | .error (.wait w) => r.2.modCore c fun k => { k with wait := w }
        | .error .more => r.2.modCore c fun k => { k.setPbit 3 true with wait := .none }
        | .error (.lock lk) => r.2.lockup c lk 0 k0.pc

/-- An instruction command: the core exists. -/
def instr (c : Nat) (body : Op Flow) (s : State) : Out := onCore s c (s.issue c false false body)
/-- A control transfer. -/
def transfer (c : Nat) (body : Op Flow) (s : State) : Out := onCore s c (s.issue c true false body)

end Sys2Proof.Machine
end

