-- ==== Sys2Proof/Machine/Flags.lean ====
section
/-!
DEFINITION. What the instructions compute: shifts and divisions (R76), bit fields (R79), tag tests (R80), fixnum overflow
(R106), bignums (R107) and binary64 arithmetic (R104, R108). Carries and overflow are comparisons of the exact result with the
narrowed one.
-/
namespace Sys2Proof.Machine

/-! ### Machine integers (R76) -/

/-- R76: shifts by a 64-bit count. -/
def shlBy (a : B64) (n : Nat) : B64 := if 64 ≤ n then 0 else a <<< n
def shrBy (a : B64) (n : Nat) : B64 := if 64 ≤ n then 0 else a >>> n
def sarBy (a : B64) (n : Nat) : B64 := a.sshiftRight (min n 64)
def rolBy (a : B64) (n : Nat) : B64 := a.rotateLeft (n % 64)
def rorBy (a : B64) (n : Nat) : B64 := a.rotateRight (n % 64)
/-- R76: high halves of products. -/
def mulhu (a b : B64) : B64 := BitVec.ofNat 64 (a.toNat * b.toNat / 2 ^ 64)
def mulhs (a b : B64) : B64 := BitVec.ofInt 64 (a.toInt * b.toInt / 2 ^ 64)
/-- R76: unsigned division, and its values for a divisor of 0. -/
def divct (a b : B64) : B64 := if b = 0 then 0xFFFFFFFFFFFFFFFF else BitVec.ofNat 64 (a.toNat / b.toNat)
def remct (a b : B64) : B64 := if b = 0 then a else BitVec.ofNat 64 (a.toNat % b.toNat)
/-- R76: signed division, truncated toward zero, and the remainder with the sign of the dividend. -/
def divs (a b : B64) : B64 := BitVec.ofInt 64 (Int.tdiv a.toInt b.toInt)
def rems (a b : B64) : B64 := BitVec.ofInt 64 (Int.tmod a.toInt b.toInt)
/-- R76: leading zeros. -/
def clz64 (a : B64) : Nat := if a = 0 then 64 else 63 - Nat.log2 a.toNat
/-- R76: trailing zeros. -/
def ctz64 (a : B64) : Nat := ((List.range 64).find? fun i => a.getLsbD i).getD 64
/-- R76: byte `i` of a payload. -/
def byteOf (a : B64) (i : Nat) : BitVec 8 := (a >>> (8 * i)).setWidth 8
/-- R76: the byte shuffle. -/
def permBytes (a b : B64) : B64 :=
  BitVec.ofNat 64 (natLE ((List.range 8).map fun k => byteOf a (fld b (3 * k + 2) (3 * k))))

/-! ### Bit fields (R79) -/

def bfxU (a : B64) (p n : Nat) : B64 := BitVec.ofNat 64 (a.toNat / 2 ^ p % 2 ^ n)
def bfxS (a : B64) (p n : Nat) : B64 := BitVec.ofInt 64 (sext n (a.toNat / 2 ^ p))
def bfiOf (d a : B64) (p n : Nat) : B64 := putFld d (p + n - 1) p (a.toNat % 2 ^ n)

/-! ### Tag tests (R80) -/

/-- R80: the test of `TCHK` and `TTST` with a register mask. -/
def tagTest (w : Word) (m : B64) : Bool := m.getLsbD w.ty && !(m.getLsbD 32 && w.sec)
/-- R80: the test of `TCHKI` and `TTSTI`. -/
def tagTestI (w : Word) (m : BitVec 18) : Bool :=
  (if m.getLsbD 17 then 16 ≤ w.ty && m.getLsbD (w.ty - 16) else w.ty < 16 && m.getLsbD w.ty)
    && !(m.getLsbD 16 && w.sec)

/-! ### Integers of any size (R106, R107) -/

/-- R106: an integer that a `FIX` holds. -/
def fitsFix (v : Int) : Bool := -(2 : Int) ^ 63 ≤ v && v < (2 : Int) ^ 63
/-- The integer of bignum digits, least significant first, in two's complement. -/
def digitsInt (ds : List B64) : Int :=
  let n : Nat := ds.foldr (fun (d : B64) (a : Nat) => d.toNat + 2 ^ 64 * a) 0
  if (ds.getLastD 0).getLsbD 63 then (n : Int) - 2 ^ (64 * ds.length) else n
/-- R107: the least number of digits that hold an integer; at least 1. -/
def digitCount (v : Int) : Nat :=
  let m := if v < 0 then (-v - 1).toNat else v.toNat
  if m = 0 then 1 else (Nat.log2 m + 1) / 64 + 1
/-- The digits of an integer. -/
def intDigits (v : Int) : List B64 := (List.range (digitCount v)).map fun i => BitVec.ofInt 64 (v / 2 ^ (64 * i))
/-- R107: digits in canonical form. -/
def canonical (ds : List B64) : Bool :=
  let top := ds.getLastD 0
  let sgn := (ds.getD (ds.length - 2) 0).getLsbD 63
  2 ≤ ds.length && !(top == 0 && !sgn) && !(top == 0xFFFFFFFFFFFFFFFF && sgn)

/-! ### binary64 (R104, R108) -/

def isNaN (a : B64) : Bool := fld a 62 52 == 2047 && fld a 51 0 != 0
def isInf (a : B64) : Bool := fld a 62 52 == 2047 && fld a 51 0 == 0
def quiet (a : B64) : B64 := a ||| 0x0008000000000000
def infOf (neg : Bool) : B64 := if neg then 0xFFF0000000000000 else 0x7FF0000000000000
def zeroOf (neg : Bool) : B64 := if neg then 0x8000000000000000 else 0
/-- R104: the default quiet NaN. -/
def defNaN : B64 := 0x7FF8000000000000
/-- A finite value as mantissa and exponent: the value is the mantissa times two to the exponent. -/
def floParts (a : B64) : Int × Int :=
  let e := fld a 62 52
  let m : Nat := if e == 0 then fld a 51 0 else 2 ^ 52 + fld a 51 0
  (if a.getLsbD 63 then -(m : Int) else m, (max e 1 : Nat) - 1075)
/-- Round to nearest, ties to even: the value `v * 2^e`, `v` not 0. -/
def roundFlo (v : Int) (e : Int) : B64 :=
  let neg := decide (v < 0)
  let m := v.natAbs
  let te := max (e + (Nat.log2 m + 1 : Nat) - 53) (-1074)
  let q :=
    if te ≤ e then m * 2 ^ (e - te).toNat
    else
      let s := (te - e).toNat
      let r := m % 2 ^ s
      let q := m / 2 ^ s
      if 2 ^ s < 2 * r || (2 * r == 2 ^ s && q % 2 == 1) then q + 1 else q
  let (q, te) := if q == 2 ^ 53 then (2 ^ 52, te + 1) else (q, te)
  let sg := b2n neg * 2 ^ 63
  if q < 2 ^ 52 then BitVec.ofNat 64 (sg + q)
  else
    let b := (te + 1075).toNat
    if 2047 ≤ b then infOf neg else BitVec.ofNat 64 (sg + b * 2 ^ 52 + (q - 2 ^ 52))
/-- R104: an integer converted to binary64. -/
def floOfInt (v : Int) : B64 := if v == 0 then 0 else roundFlo v 0
/-- R104: the NaN that an operation delivers, if any. -/
def nanOf (a b : B64) : Option B64 := if isNaN a then some (quiet a) else if isNaN b then some (quiet b) else none
/-- R104: binary64 addition. -/
def floAdd (a b : B64) : B64 :=
  let na := a.getLsbD 63
  let nb := b.getLsbD 63
  match nanOf a b with
  | some n => n
  | none =>
    if isInf a then (if isInf b && na != nb then defNaN else a)
    else if isInf b then b
    else
      let x := floParts a
      let y := floParts b
      let e := min x.2 y.2
      let v := x.1 * 2 ^ (x.2 - e).toNat + y.1 * 2 ^ (y.2 - e).toNat
      if v == 0 then zeroOf (na && nb) else roundFlo v e
/-- The other sign. -/
def floNeg (a : B64) : B64 := a ^^^ 0x8000000000000000
/-- R104: binary64 subtraction; a NaN keeps its sign. -/
def floSub (a b : B64) : B64 := match nanOf a b with | some n => n | none => floAdd a (floNeg b)
/-- R104: binary64 multiplication. -/
def floMul (a b : B64) : B64 :=
  let neg := a.getLsbD 63 != b.getLsbD 63
  match nanOf a b with
  | some n => n
  | none =>
    let x := floParts a
    let y := floParts b
    if isInf a then (if y.1 == 0 && !isInf b then defNaN else infOf neg)
    else if isInf b then (if x.1 == 0 then defNaN else infOf neg)
    else if x.1 == 0 || y.1 == 0 then zeroOf neg
    else roundFlo (x.1 * y.1) (x.2 + y.2)

/-- A number for comparison: an exact value, an infinity, or a NaN. -/
inductive Num where
  | val (m e : Int)
  | inf (neg : Bool)
  | nan
  deriving DecidableEq, Repr
def floNum (a : B64) : Num :=
  if isNaN a then .nan else if isInf a then .inf (a.getLsbD 63) else .val (floParts a).1 (floParts a).2
/-- R108: the exact order of two numbers; none beside a NaN. -/
def numCmp : Num → Num → Option Ordering
  | .nan, _ => none
  | _, .nan => none
  | .inf a, .inf b => some (if a == b then .eq else if a then .lt else .gt)
  | .inf a, .val _ _ => some (if a then .lt else .gt)
  | .val _ _, .inf b => some (if b then .gt else .lt)
  | .val m e, .val n f =>
    let g := min e f
    some (compare (m * 2 ^ (e - g).toNat) (n * 2 ^ (f - g).toNat))
/-- R108: whether a relation holds. -/
def relHolds (r : Rel) : Option Ordering → Bool
  | none => r == .ne
  | some o => match r with
    | .eq => o == .eq
    | .ne => o != .eq
    | .lt => o == .lt
    | .le => o != .gt
    | .gt => o == .gt
    | .ge => o != .lt

end Sys2Proof.Machine
end

