-- ==== Sys2Proof/Machine/Ec.lean ====
section
/-!
DEFINITION. Public-key arithmetic by the standards that the spec names (notes/assumptions/5.md): modular exponentiation,
ECDSA and ECDH over P-256 and P-384, X25519, Ed25519; and Argon2id (R311).
-/
namespace Sys2Proof.Machine

/-! ### Modular arithmetic -/

/-- Exponentiation by squaring; the first argument bounds the bits of the exponent. -/
def powModN (m : Nat) : Nat → Nat → Nat → Nat
  | 0, _, _ => 1 % m
  | n + 1, b, e =>
    if e = 0 then 1 % m
    else
      let r := powModN m n (b * b % m) (e / 2)
      if e % 2 = 1 then r * b % m else r
/-- `b` to the power `e` modulo `m`. -/
def powMod (m b e : Nat) : Nat := powModN m (Nat.log2 e + 1) (b % m) e
/-- The inverse modulo a prime. -/
def invMod (p a : Nat) : Nat := powMod p a (p - 2)
def subMod (p a b : Nat) : Nat := (a % p + p - b % p) % p

/-! ### Short Weierstrass curves with a = -3 -/

/-- A curve: prime, b, order, base point, bytes of a coordinate. -/
structure Curve where
  p : Nat
  b : Nat
  n : Nat
  gx : Nat
  gy : Nat
  len : Nat

/-- P-256. -/
def p256 : Curve :=
  { p := 0xFFFFFFFF00000001000000000000000000000000FFFFFFFFFFFFFFFFFFFFFFFF
    b := 0x5AC635D8AA3A93E7B3EBBD55769886BC651D06B0CC53B0F63BCE3C3E27D2604B
    n := 0xFFFFFFFF00000000FFFFFFFFFFFFFFFFBCE6FAADA7179E84F3B9CAC2FC632551
    gx := 0x6B17D1F2E12C4247F8BCE6E563A440F277037D812DEB33A0F4A13945D898C296
    gy := 0x4FE342E2FE1A7F9B8EE7EB4A7C0F9E162BCE33576B315ECECBB6406837BF51F5
    len := 32 }
/-- P-384. -/
def p384 : Curve :=
  { p := 0xFFFFFFFFFFFFFFFFFFFFFFFFFFFFFFFFFFFFFFFFFFFFFFFFFFFFFFFFFFFFFFFEFFFFFFFF0000000000000000FFFFFFFF
    b := 0xB3312FA7E23EE7E4988E056BE3F82D19181D9C6EFE8141120314088F5013875AC656398D8A2ED19D2A85C8EDD3EC2AEF
    n := 0xFFFFFFFFFFFFFFFFFFFFFFFFFFFFFFFFFFFFFFFFFFFFFFFFC7634D81F4372DDF581A0DB248B0A77AECEC196ACCC52973
    gx := 0xAA87CA22BE8B05378EB1C71EF320AD746E1D3B628BA79B9859F741E082542A385502F25DBF55296C3A545E3872760AB7
    gy := 0x3617DE4A96262C6F5D9E98BF9292DC29F8F41DBD289A147CE9DA3113B5F0B8C00A60B1CE1D7E819D7A431D7C90EA0E5F
    len := 48 }

/-- An affine point; none is the point at infinity. -/
abbrev Pt := Option (Nat × Nat)

/-- The point of slope `l` through `(x1, y1)`, reflected. -/
def Curve.chord (c : Curve) (l x1 y1 x2 : Nat) : Pt :=
  let x3 := subMod c.p (l * l) (x1 + x2)
  some (x3, subMod c.p (l * subMod c.p x1 x3) y1)
/-- Addition of points. -/
def Curve.add (c : Curve) : Pt → Pt → Pt
  | none, q => q
  | p, none => p
  | some (x1, y1), some (x2, y2) =>
    if x1 = x2 then
      if (y1 + y2) % c.p = 0 then none
      else c.chord ((3 * x1 * x1 + c.p * 3 - 3) * invMod c.p (2 * y1) % c.p) x1 y1 x2
    else c.chord (subMod c.p y2 y1 * invMod c.p (subMod c.p x2 x1) % c.p) x1 y1 x2
/-- A multiple of a point. -/
def Curve.mul (c : Curve) (k : Nat) (q : Pt) : Pt :=
  (List.range (8 * c.len)).foldl (fun r i =>
    let r := c.add r r
    if k / 2 ^ (8 * c.len - 1 - i) % 2 = 1 then c.add r q else r) none
def Curve.base (c : Curve) : Pt := some (c.gx, c.gy)
/-- The point lies on the curve, with coordinates below the prime. -/
def Curve.onCurve (c : Curve) (x y : Nat) : Bool :=
  x < c.p && y < c.p && y * y % c.p == (x * x * x + (c.p - 3) * x + c.b) % c.p
/-- A public key: x then y, each big-endian. -/
def Curve.decode (c : Curve) (l : Bytes) : Pt :=
  let x := natBE (l.take c.len)
  let y := natBE ((l.drop c.len).take c.len)
  if c.onCurve x y then some (x, y) else none
def Curve.encode (c : Curve) : Pt → Bytes
  | none => zeros (2 * c.len)
  | some (x, y) => bytesBE c.len x ++ bytesBE c.len y
/-- The leftmost bits of a digest as ECDSA takes them. -/
def Curve.hashInt (c : Curve) (h : Bytes) : Nat := natBE (h.take c.len)

/-- ECDSA with private scalar `d` and nonce `k`; none where another nonce is to be drawn. -/
def ecdsaSignWith (c : Curve) (d k : Nat) (h : Bytes) : Option Bytes :=
  match c.mul k c.base with
  | none => none
  | some (x, _) =>
    let r := x % c.n
    let s := invMod c.n k * (c.hashInt h + r * d) % c.n
    if r = 0 || s = 0 then none else some (bytesBE c.len r ++ bytesBE c.len s)
/-- ECDSA verification with a public key. -/
def ecdsaVerify (c : Curve) (pk h sig : Bytes) : Bool :=
  let r := natBE (sig.take c.len)
  let s := natBE ((sig.drop c.len).take c.len)
  match c.decode pk with
  | none => false
  | q =>
    if r = 0 || s = 0 || c.n ≤ r || c.n ≤ s then false
    else
      let w := invMod c.n s
      match c.add (c.mul (c.hashInt h * w % c.n) c.base) (c.mul (r * w % c.n) q) with
      | none => false
      | some (x, _) => x % c.n == r
/-- ECDH: the x coordinate; none where the peer's key is no point of the curve. -/
def ecdh (c : Curve) (d : Nat) (pk : Bytes) : Option Bytes :=
  match c.decode pk with
  | none => none
  | q => (c.mul d q).map fun p => bytesBE c.len p.1

/-! ### Curve25519 -/

def p25519 : Nat := 2 ^ 255 - 19
/-- One step of the ladder of X25519 on (x2, z2, x3, z3). -/
def x25519Step (u k : Nat) (st : Nat × Nat × Nat × Nat) (i : Nat) : Nat × Nat × Nat × Nat :=
  let p := p25519
  let bit := k / 2 ^ (254 - i) % 2 = 1
  let (x2, z2, x3, z3) := if bit then (st.2.2.1, st.2.2.2, st.1, st.2.1) else st
  let a := (x2 + z2) % p
  let b := subMod p x2 z2
  let aa := a * a % p
  let bb := b * b % p
  let e := subMod p aa bb
  let da := subMod p x3 z3 * a % p
  let cb := (x3 + z3) * b % p
  let x5 := (da + cb) * (da + cb) % p
  let d := subMod p da cb
  let z5 := u * (d * d) % p
  let x4 := aa * bb % p
  let z4 := e * (aa + 121665 * e) % p
  if bit then (x5, z5, x4, z4) else (x4, z4, x5, z5)
/-- X25519 of a private key of 32 bytes, clamped, and a u coordinate. -/
def x25519 (key u : Bytes) : Bytes :=
  let k := natLE (key.take 32)
  let k := k / 8 * 8 % 2 ^ 254 + 2 ^ 254
  let x := natLE (u.take 32) % 2 ^ 255 % p25519
  let r := (List.range 255).foldl (x25519Step x k) (1, 0, x, 1)
  bytesLE 32 (r.1 * invMod p25519 r.2.1 % p25519)

/-- d of edwards25519. -/
def edD : Nat := 37095705934669439343138083508754565189542113879843219016388785533085940283555
/-- The order of the base point. -/
def edL : Nat := 2 ^ 252 + 27742317777372353535851937790883648493
def edBase : Nat × Nat :=
  (15112221349535400772501151409588531511454012693041857206046113283949847762202,
   46316835694926478169428394003475163141307993866256225615783033603165251855960)
def edAdd (a b : Nat × Nat) : Nat × Nat :=
  let p := p25519
  let t := edD * (a.1 * b.1 % p) % p * (a.2 * b.2 % p) % p
  ((a.1 * b.2 + b.1 * a.2) * invMod p (1 + t) % p, (a.2 * b.2 + a.1 * b.1) * invMod p (subMod p 1 t) % p)
def edMul (k : Nat) (q : Nat × Nat) : Nat × Nat :=
  (List.range 256).foldl (fun r i =>
    let r := edAdd r r
    if k / 2 ^ (255 - i) % 2 = 1 then edAdd r q else r) (0, 1)
def edEncode (q : Nat × Nat) : Bytes := bytesLE 32 (q.2 + q.1 % 2 * 2 ^ 255)
/-- The point that 32 bytes encode. -/
def edDecode (l : Bytes) : Option (Nat × Nat) :=
  let p := p25519
  let n := natLE (l.take 32)
  let y := n % 2 ^ 255
  let sg := n / 2 ^ 255 % 2
  if p ≤ y then none
  else
    let v := invMod p (edD * (y * y) + 1)
    let x2 := subMod p (y * y) 1 * v % p
    let x := powMod p x2 ((p + 3) / 8)
    let x := if x * x % p = x2 then x else x * powMod p 2 ((p - 1) / 4) % p
    if x * x % p ≠ x2 then none
    else if x = 0 && sg = 1 then none
    else some (if x % 2 = sg then x else p - x, y)
/-- The clamped scalar and the second half of the hashed seed. -/
def edKey (seed : Bytes) : Nat × Bytes :=
  let h := sha512 seed
  (natLE (h.take 32) / 8 * 8 % 2 ^ 254 + 2 ^ 254, h.drop 32)
def ed25519Public (seed : Bytes) : Bytes := edEncode (edMul (edKey seed).1 edBase)
def ed25519Sign (seed msg : Bytes) : Bytes :=
  let (a, pre) := edKey seed
  let pk := edEncode (edMul a edBase)
  let r := natLE (sha512 (pre ++ msg)) % edL
  let rb := edEncode (edMul r edBase)
  let k := natLE (sha512 (rb ++ pk ++ msg)) % edL
  rb ++ bytesLE 32 ((r + k * a) % edL)
def ed25519Verify (pk msg sig : Bytes) : Bool :=
  let s := natLE ((sig.drop 32).take 32)
  match edDecode pk, edDecode (sig.take 32) with
  | some a, some r =>
    let k := natLE (sha512 (sig.take 32 ++ pk.take 32 ++ msg)) % edL
    s < edL && edMul s edBase == edAdd r (edMul k a)
  | _, _ => false

/-! ### Argon2id (R311) -/

/-- The variable-length hash of Argon2. -/
def argonTail : Nat → Nat → Bytes → Bytes
  | 0, _, _ => []
  | f + 1, n, v => if n ≤ 64 then blake2b n [] v else
      let v := blake2b 64 [] v
      v.take 32 ++ argonTail f (n - 32) v
def argonH (n : Nat) (l : Bytes) : Bytes :=
  if n ≤ 64 then blake2b n [] (bytesLE 4 n ++ l)
  else
    let v := blake2b 64 [] (bytesLE 4 n ++ l)
    v.take 32 ++ argonTail n (n - 32) v
/-- Addition with the low halves' product. -/
def blaMka (a b : BitVec 64) : BitVec 64 := a + b + 2 * ((a &&& 0xFFFFFFFF) * (b &&& 0xFFFFFFFF))
def argonG (v : List (BitVec 64)) (p : Nat × Nat × Nat × Nat) : List (BitVec 64) :=
  let a := blaMka (at_ v p.1) (at_ v p.2.1)
  let d := (at_ v p.2.2.2 ^^^ a).rotateRight 32
  let c := blaMka (at_ v p.2.2.1) d
  let b := (at_ v p.2.1 ^^^ c).rotateRight 24
  let a := blaMka a b
  let d := (d ^^^ a).rotateRight 16
  let c := blaMka c d
  let b := (b ^^^ c).rotateRight 63
  (((v.set p.1 a).set p.2.1 b).set p.2.2.1 c).set p.2.2.2 d
/-- The permutation of sixteen words. -/
def argonP (v : List (BitVec 64)) : List (BitVec 64) := blakeLanes.foldl argonG v
/-- Columns of an 8 by 8 matrix of word pairs. -/
def argonCols (z : List (BitVec 64)) : List (BitVec 64) :=
  let cols := (List.range 8).map fun i => argonP ((List.range 16).map fun k => at_ z (k / 2 * 16 + 2 * i + k % 2))
  (List.range 128).map fun j => at_ (cols.getD (j % 16 / 2) []) (j / 16 * 2 + j % 2)
/-- The compression of two blocks of 128 words. -/
def argonCompress (x y : List (BitVec 64)) : List (BitVec 64) :=
  let r := List.zipWith (· ^^^ ·) x y
  List.zipWith (· ^^^ ·) r (argonCols ((chunk 16 r).flatMap argonP))

/-- The parameters of a run: passes, lanes, columns of a lane, blocks. -/
structure Argon where
  t : Nat
  p : Nat
  q : Nat
  m : Nat

/-- The memory: 128-word blocks by lane * q + column. -/
abbrev ArgonMem := List (Nat × List (BitVec 64))
def ArgonMem.get (a : ArgonMem) (i : Nat) : List (BitVec 64) := ((a.find? fun e => e.1 == i).map Prod.snd).getD []

/-- The pseudo-random words J1 and J2 of a position in the data-independent part. -/
def argonAddr (g : Argon) (pass lane slice i : Nat) : BitVec 64 :=
  let z := ([pass, lane, slice, g.m, g.t, 2, i / 128 + 1] ++ List.replicate 121 0).map (BitVec.ofNat 64)
  let o := List.replicate 128 (0 : BitVec 64)
  at_ (argonCompress o (argonCompress o z)) (i % 128)
/-- The block that the indexing takes for J. -/
def argonRef (g : Argon) (pass lane slice i : Nat) (j : BitVec 64) : Nat :=
  let seg := g.q / 4
  let l := if pass = 0 && slice = 0 then lane else j.toNat / 2 ^ 32 % g.p
  let same := l = lane
  let area := if pass = 0 then (if same || slice = 0 then slice * seg + i - 1 else slice * seg - (if i = 0 then 1 else 0))
    else if same then g.q - seg + i - 1 else g.q - seg - (if i = 0 then 1 else 0)
  let x := j.toNat % 2 ^ 32
  let z := area - 1 - area * (x * x / 2 ^ 32) / 2 ^ 32
  let start := if pass = 0 then 0 else (slice + 1) % 4 * seg
  l * g.q + (start + z) % g.q
/-- The block at a position is computed. -/
def argonBlock (g : Argon) (pass slice lane : Nat) (mem : ArgonMem) (i : Nat) : ArgonMem :=
  let col := slice * (g.q / 4) + i
  if pass = 0 && col < 2 then mem
  else
    let prev := mem.get (lane * g.q + (col + g.q - 1) % g.q)
    let j := if pass = 0 && slice < 2 then argonAddr g pass lane slice i else at_ prev 0
    let b := argonCompress prev (mem.get (argonRef g pass lane slice i j))
    let k := lane * g.q + col
    (k, if pass = 0 then b else List.zipWith (· ^^^ ·) b (mem.get k)) :: mem.filter fun e => e.1 != k
/-- Argon2id, version 0x13, of `m` KiB; the secret and the associated data are empty in R311: the tag, and the memory as the
run leaves it. -/
def argon2id (pw salt secret ad : Bytes) (m t p taglen : Nat) : Bytes × ArgonMem :=
  let lp := fun (l : Bytes) => bytesLE 4 l.length ++ l
  let h0 := blake2b 64 [] ([p, taglen, m, t, 0x13, 2].flatMap (bytesLE 4) ++ lp pw ++ lp salt ++ lp secret ++ lp ad)
  let m' := m / (4 * p) * (4 * p)
  let g : Argon := ⟨t, p, m' / p, m'⟩
  let words := fun (l : Bytes) => (chunk 8 l).map fun c => BitVec.ofNat 64 (natLE c)
  let init : ArgonMem := (List.range p).flatMap fun l =>
    [0, 1].map fun c => (l * g.q + c, words (argonH 1024 (h0 ++ bytesLE 4 c ++ bytesLE 4 l)))
  let mem := (List.range t).foldl (fun mem pass => (List.range 4).foldl (fun mem slice =>
    (List.range p).foldl (fun mem lane => (List.range (g.q / 4)).foldl (argonBlock g pass slice lane) mem) mem) mem) init
  let last := (List.range p).foldl (fun a l => List.zipWith (· ^^^ ·) a (mem.get (l * g.q + g.q - 1)))
    (List.replicate 128 0)
  (argonH taglen (last.flatMap fun w => bytesLE 8 w.toNat), mem)

end Sys2Proof.Machine
end

