-- ==== Sys2Proof/Machine/Pqc.lean ====
section
/-!
DEFINITION. The lattice schemes that the spec names by their standards (R306, notes/assumptions/5.md): ML-KEM of FIPS 203
and ML-DSA of FIPS 204. A polynomial is the list of its 256 coefficients, each reduced modulo the scheme's prime.
-/
namespace Sys2Proof.Machine

/-! ### Polynomials and their transform -/

abbrev Poly := List Nat

/-- The ring of a scheme: its prime, a root of unity of order `order`, and the depth of its transform. -/
structure Lattice where
  q : Nat
  root : Nat
  order : Nat
  depth : Nat
  deriving DecidableEq, Repr
/-- FIPS 203. -/
def kemRing : Lattice := ⟨3329, 17, 256, 7⟩
/-- FIPS 204. -/
def dsaRing : Lattice := ⟨8380417, 1753, 512, 8⟩

/-- The lowest `n` bits of a number in reverse. -/
def bitRev : Nat → Nat → Nat
  | 0, _ => 0
  | n + 1, x => x % 2 * 2 ^ n + bitRev n (x / 2)
/-- The zero polynomial. -/
def polyZero : Poly := List.replicate 256 0
def Lattice.add (r : Lattice) (a b : Poly) : Poly := List.zipWith (fun x y => (x + y) % r.q) a b
def Lattice.sub (r : Lattice) (a b : Poly) : Poly := List.zipWith (fun x y => (x + r.q - y) % r.q) a b
def Lattice.scale (r : Lattice) (c : Nat) (a : Poly) : Poly := a.map fun x => c * x % r.q
/-- The transform below node `i` of the tree of moduli, `d` levels deep: node `i` splits by the root's power at the reverse of
`i`. -/
def Lattice.nttAt (r : Lattice) : Nat → Nat → Poly → Poly
  | 0, _, f => f
  | d + 1, i, f =>
    let h := f.length / 2
    let t := r.scale (powMod r.q r.root (bitRev r.depth i)) (f.drop h)
    r.nttAt d (2 * i) (r.add (f.take h) t) ++ r.nttAt d (2 * i + 1) (r.sub (f.take h) t)
/-- Its inverse, each level's factor 2 left in the result. -/
def Lattice.invAt (r : Lattice) : Nat → Nat → Poly → Poly
  | 0, _, f => f
  | d + 1, i, f =>
    let h := f.length / 2
    let a := r.invAt d (2 * i) (f.take h)
    let b := r.invAt d (2 * i + 1) (f.drop h)
    r.add a b ++ r.scale (powMod r.q r.root (r.order - bitRev r.depth i)) (r.sub a b)
def Lattice.ntt (r : Lattice) (f : Poly) : Poly := r.nttAt r.depth 1 f
def Lattice.inv (r : Lattice) (f : Poly) : Poly := r.scale (invMod r.q (2 ^ r.depth)) (r.invAt r.depth 1 f)
/-- FIPS 203: products of linear polynomials modulo X^2 - gamma, pair by pair from pair `i`. -/
def kemPairs (i : Nat) : Poly → Poly → Poly
  | a0 :: a1 :: a, b0 :: b1 :: b =>
    let g := powMod 3329 17 (2 * bitRev 7 i + 1)
    (a0 * b0 + a1 * b1 % 3329 * g) % 3329 :: (a0 * b1 + a1 * b0) % 3329 :: kemPairs (i + 1) a b
  | _, _ => []
/-- The product of transforms. -/
def Lattice.mul (r : Lattice) (a b : Poly) : Poly :=
  if r.depth = 7 then kemPairs 0 a b else List.zipWith (fun x y => x * y % r.q) a b
/-- The inner product of two vectors of transforms. -/
def Lattice.dot (r : Lattice) (a b : List Poly) : Poly := (List.zipWith r.mul a b).foldl r.add polyZero
def Lattice.addV (r : Lattice) (a b : List Poly) : List Poly := List.zipWith r.add a b
def Lattice.subV (r : Lattice) (a b : List Poly) : List Poly := List.zipWith r.sub a b
/-- A coefficient's distance from 0. -/
def Lattice.abs (r : Lattice) (x : Nat) : Nat := min x (r.q - x)
/-- Every coefficient of a vector lies nearer to 0 than `b`. -/
def Lattice.below (r : Lattice) (b : Nat) (v : List Poly) : Bool := v.all fun f => f.all fun x => r.abs x < b
/-- `c - x` modulo the prime: the coding of a signed coefficient by its distance below `c`. -/
def Lattice.flip (r : Lattice) (c : Nat) (f : Poly) : Poly := f.map fun x => (c + r.q - x) % r.q

/-- Numbers of `d` bits packed, the first lowest. -/
def packBits (d : Nat) (f : List Nat) : Bytes := bytesLE (d * f.length / 8) (f.foldr (fun x n => x % 2 ^ d + 2 ^ d * n) 0)
/-- `n` numbers of `d` bits of a number. -/
def cutBits (d : Nat) : Nat → Nat → List Nat
  | 0, _ => []
  | n + 1, x => x % 2 ^ d :: cutBits d n (x / 2 ^ d)
/-- A packed polynomial. -/
def unpackBits (d : Nat) (b : Bytes) : Poly := cutBits d 256 (natLE b)
/-- Bytes `i` on of a list, `n` of them. -/
def piece (b : Bytes) (i n : Nat) : Bytes := (b.drop i).take n
/-- The first result of a stream that yields at least `n` numbers, longer streams tried in turn; a stream of 2^11 times the
first length falls short with a chance below 2^-1000. -/
def enough (n : Nat) (f : Nat → List Nat) : Nat → Nat → List Nat
  | 0, len => (f len).take n
  | fuel + 1, len => if n ≤ (f len).length then (f len).take n else enough n f fuel (2 * len)
def shake128 (n : Nat) (b : Bytes) : Bytes := sha3 3 n b
def shake256 (n : Nat) (b : Bytes) : Bytes := sha3 4 n b

/-! ### ML-KEM (FIPS 203) -/

/-- The parameters of a set. -/
structure KemSet where
  k : Nat
  eta1 : Nat
  du : Nat
  dv : Nat
  deriving DecidableEq, Repr
/-- The sets 512, 768 and 1024. -/
def kemParams (n : Nat) : KemSet := match n with | 512 => ⟨2, 3, 10, 4⟩ | 768 => ⟨3, 2, 10, 4⟩ | _ => ⟨4, 2, 11, 5⟩
/-- The numbers below the prime in groups of three bytes, two of 12 bits in each. -/
def kemReject : Bytes → List Nat
  | a :: b :: c :: t =>
    let x := a.toNat + 256 * (b.toNat % 16)
    let y := b.toNat / 16 + 16 * c.toNat
    (if x < 3329 then [x] else []) ++ (if y < 3329 then [y] else []) ++ kemReject t
  | _ => []
/-- SampleNTT. -/
def kemSample (seed : Bytes) : Poly := enough 256 (fun n => kemReject (shake128 n seed)) 11 672
/-- The matrix of a public seed, by rows. -/
def kemMatrix (k : Nat) (rho : Bytes) : List (List Poly) :=
  (List.range k).map fun i => (List.range k).map fun j => kemSample (rho ++ bytesLE 1 j ++ bytesLE 1 i)
/-- The transpose of a matrix of `k` columns. -/
def kemTranspose (k : Nat) (m : List (List Poly)) : List (List Poly) := (List.range k).map fun j => m.map fun r => r.getD j []
/-- SamplePolyCBD of the bytes that the seed and the counter give. -/
def kemNoise (eta : Nat) (seed : Bytes) (n : Nat) : Poly :=
  (unpackBits (2 * eta) (shake256 (64 * eta) (seed ++ bytesLE 1 n))).map fun x =>
    let ones := fun y => (cutBits 1 eta y).foldl (· + ·) 0
    (ones x + 3329 - ones (x / 2 ^ eta)) % 3329
def kemNoises (eta : Nat) (seed : Bytes) (n k : Nat) : List Poly := (List.range k).map fun i => kemNoise eta seed (n + i)
def kemCompress (d : Nat) (f : Poly) : Poly := f.map fun x => (2 ^ (d + 1) * x + 3329) / 6658 % 2 ^ d
def kemExpand (d : Nat) (f : Poly) : Poly := f.map fun y => (2 * 3329 * y + 2 ^ d) / 2 ^ (d + 1)
/-- A vector of `k` polynomials packed in pieces of `32 * d` bytes. -/
def unpackVec (d k : Nat) (b : Bytes) : List Poly := (List.range k).map fun i => unpackBits d (piece b (32 * d * i) (32 * d))
/-- K-PKE.Encrypt. -/
def kemEncrypt (p : KemSet) (ek m r : Bytes) : Bytes :=
  let ring := kemRing
  let t := (unpackVec 12 p.k ek).map fun f => f.map (· % 3329)
  let a := kemMatrix p.k (piece ek (384 * p.k) 32)
  let y := (kemNoises p.eta1 r 0 p.k).map ring.ntt
  let u := ring.addV ((kemTranspose p.k a).map fun row => ring.inv (ring.dot row y)) (kemNoises 2 r p.k p.k)
  let v := ring.add (ring.add (ring.inv (ring.dot t y)) (kemNoise 2 r (2 * p.k))) (kemExpand 1 (unpackBits 1 m))
  (u.flatMap fun f => packBits p.du (kemCompress p.du f)) ++ packBits p.dv (kemCompress p.dv v)
/-- K-PKE.Decrypt. -/
def kemDecrypt (p : KemSet) (dk c : Bytes) : Bytes :=
  let ring := kemRing
  let u := (unpackVec p.du p.k c).map (kemExpand p.du)
  let v := kemExpand p.dv (unpackBits p.dv (c.drop (32 * p.du * p.k)))
  let w := ring.sub v (ring.inv (ring.dot (unpackVec 12 p.k dk) (u.map ring.ntt)))
  packBits 1 (kemCompress 1 w)
/-- ML-KEM.KeyGen from the seeds d and z, 32 bytes each: the encapsulation and the decapsulation key. -/
def mlKemKey (n : Nat) (seed : Bytes) : Bytes × Bytes :=
  let p := kemParams n
  let g := sha3 2 64 (piece seed 0 32 ++ bytesLE 1 p.k)
  let a := kemMatrix p.k (g.take 32)
  let s := (kemNoises p.eta1 (g.drop 32) 0 p.k).map kemRing.ntt
  let e := (kemNoises p.eta1 (g.drop 32) p.k p.k).map kemRing.ntt
  let ek := ((kemRing.addV (a.map fun row => kemRing.dot row s) e).flatMap (packBits 12)) ++ g.take 32
  (ek, s.flatMap (packBits 12) ++ ek ++ sha3_256 ek ++ piece seed 32 32)
/-- The input check of encapsulation: every coefficient of the key is reduced. -/
def mlKemKeyOk (n : Nat) (ek : Bytes) : Bool :=
  (unpackVec 12 (kemParams n).k ek).all fun f => f.all (· < 3329)
/-- ML-KEM.Encaps with the random message `m`: the shared secret and the ciphertext. -/
def mlKemEncaps (n : Nat) (ek m : Bytes) : Bytes × Bytes :=
  let g := sha3 2 64 (m ++ sha3_256 ek)
  (g.take 32, kemEncrypt (kemParams n) ek m (g.drop 32))
/-- The input check of decapsulation: the key holds the digest of its public part. -/
def mlKemPrivOk (n : Nat) (dk : Bytes) : Bool :=
  let k := (kemParams n).k
  sha3_256 (piece dk (384 * k) (384 * k + 32)) == piece dk (768 * k + 32) 32
/-- ML-KEM.Decaps, with its implicit rejection. -/
def mlKemDecaps (n : Nat) (dk c : Bytes) : Bytes :=
  let p := kemParams n
  let ek := piece dk (384 * p.k) (384 * p.k + 32)
  let m := kemDecrypt p (dk.take (384 * p.k)) c
  let g := sha3 2 64 (m ++ piece dk (768 * p.k + 32) 32)
  if kemEncrypt p ek m (g.drop 32) == c then g.take 32 else shake256 32 (dk.drop (768 * p.k + 64) ++ c)

/-! ### ML-DSA (FIPS 204) -/

/-- The parameters of a set: tau, lambda, gamma1, gamma2, k, l, eta, omega. -/
structure DsaSet where
  tau : Nat
  lambda : Nat
  gamma1 : Nat
  gamma2 : Nat
  k : Nat
  l : Nat
  eta : Nat
  omega : Nat
  deriving DecidableEq, Repr
/-- The sets 44, 65 and 87. -/
def dsaParams (n : Nat) : DsaSet :=
  match n with
  | 44 => ⟨39, 128, 2 ^ 17, 95232, 4, 4, 2, 80⟩
  | 65 => ⟨49, 192, 2 ^ 19, 261888, 6, 5, 4, 55⟩
  | _ => ⟨60, 256, 2 ^ 19, 261888, 8, 7, 2, 75⟩
def DsaSet.beta (p : DsaSet) : Nat := p.tau * p.eta
/-- Bits of a coefficient of s1 and s2, of z, and of w1. -/
def DsaSet.etaBits (p : DsaSet) : Nat := if p.eta = 2 then 3 else 4
def DsaSet.zBits (p : DsaSet) : Nat := if p.gamma1 = 2 ^ 17 then 18 else 20
def DsaSet.w1Bits (p : DsaSet) : Nat := if p.gamma2 = 95232 then 6 else 4
/-- RejNTTPoly's numbers: three bytes each, the top bit dropped. -/
def dsaReject : Bytes → List Nat
  | a :: b :: c :: t =>
    let x := a.toNat + 256 * b.toNat + 65536 * (c.toNat % 128)
    if x < 8380417 then x :: dsaReject t else dsaReject t
  | _ => []
/-- ExpandA, by rows. -/
def dsaMatrix (p : DsaSet) (rho : Bytes) : List (List Poly) :=
  (List.range p.k).map fun r => (List.range p.l).map fun s =>
    enough 256 (fun n => dsaReject (shake128 n (rho ++ bytesLE 1 s ++ bytesLE 1 r))) 11 840
/-- RejBoundedPoly. -/
def dsaBounded (eta : Nat) (seed : Bytes) : Poly :=
  enough 256 (fun n => (shake256 n seed).flatMap fun b => [b.toNat % 16, b.toNat / 16].filterMap fun x =>
    if eta = 2 && x < 15 then some ((2 + 8380417 - x % 5) % 8380417)
    else if eta = 4 && x < 9 then some ((4 + 8380417 - x) % 8380417)
    else none) 11 272
/-- `n` polynomials of ExpandS from number `i`. -/
def dsaSecrets (p : DsaSet) (seed : Bytes) (i n : Nat) : List Poly :=
  (List.range n).map fun r => dsaBounded p.eta (seed ++ bytesLE 2 (i + r))
/-- ExpandMask. -/
def dsaMask (p : DsaSet) (seed : Bytes) (kappa : Nat) : List Poly :=
  (List.range p.l).map fun r =>
    dsaRing.flip p.gamma1 (unpackBits p.zBits (shake256 (32 * p.zBits) (seed ++ bytesLE 2 (kappa + r))))
/-- SampleInBall: the places from `i` on take the sign bits and the bytes in turn. -/
def dsaBallAt : Nat → Nat → Nat → Bytes → Poly → Poly
  | 0, _, _, _, c => c
  | n + 1, i, signs, bs, c =>
    match bs.dropWhile fun b => i < b.toNat with
    | [] => c
    | b :: t => dsaBallAt n (i + 1) (signs / 2) t ((c.set i (c.getD b.toNat 0)).set b.toNat (if signs % 2 = 1 then 8380416 else 1))
def dsaBall (tau : Nat) (seed : Bytes) : Poly :=
  let h := shake256 4096 seed
  dsaBallAt tau (256 - tau) (natLE (h.take 8)) (h.drop 8) polyZero
/-- Power2Round: the upper part, and the lower part modulo the prime. -/
def dsaRound (x : Nat) : Nat × Nat :=
  let lo := x % 8192
  if lo ≤ 4096 then (x / 8192, lo) else (x / 8192 + 1, 8380417 + lo - 8192)
/-- Decompose: the upper part, and the lower part modulo the prime. -/
def dsaSplit (g x : Nat) : Nat × Nat :=
  let lo := x % (2 * g)
  let (hi, l) := if lo ≤ g then (x - lo, lo) else (x + 2 * g - lo, 8380417 + lo - 2 * g)
  if hi = 8380416 then (0, (l + 8380416) % 8380417) else (hi / (2 * g), l)
def dsaHigh (p : DsaSet) (v : List Poly) : List Poly := v.map fun f => f.map fun x => (dsaSplit p.gamma2 x).1
def dsaLow (p : DsaSet) (v : List Poly) : List Poly := v.map fun f => f.map fun x => (dsaSplit p.gamma2 x).2
/-- UseHint. -/
def dsaUseHint (p : DsaSet) (h x : Nat) : Nat :=
  let m := 8380416 / (2 * p.gamma2)
  let d := dsaSplit p.gamma2 x
  if h = 0 then d.1 else if 0 < d.2 && d.2 ≤ p.gamma2 then (d.1 + 1) % m else (d.1 + m - 1) % m
/-- The places of the ones of a polynomial. -/
def onesOf (f : Poly) : List Nat := (List.range 256).filter fun i => f.getD i 0 == 1
/-- HintBitPack. -/
def dsaHintPack (p : DsaSet) (h : List Poly) : Bytes :=
  let l := h.map onesOf
  fitBytes p.omega (l.flatten.map (BitVec.ofNat 8)) ++
    (List.range p.k).map fun i => BitVec.ofNat 8 ((l.take (i + 1)).flatten.length)
/-- The numbers rise strictly. -/
def risesFrom : List Nat → Bool
  | a :: b :: t => a < b && risesFrom (b :: t)
  | _ => true
/-- HintBitUnpack: the polynomials whose ends are given, from place `i`; none where the code is not the one of a hint. -/
def dsaHintCut (y : List Nat) : Nat → List Nat → Option (List Poly)
  | i, [] => if (y.drop i).all (· == 0) then some [] else none
  | i, e :: t =>
    let l := (y.drop i).take (e - i)
    if i ≤ e && e ≤ y.length && risesFrom l then
      (dsaHintCut y e t).map fun r => ((List.range 256).map fun j => b2n (l.contains j)) :: r
    else none
def dsaHintUnpack (p : DsaSet) (b : Bytes) : Option (List Poly) :=
  dsaHintCut ((b.take p.omega).map BitVec.toNat) 0 (((b.drop p.omega).take p.k).map BitVec.toNat)
/-- A vector coded by its distances below `c`, in `d` bits. -/
def dsaPack (d c : Nat) (v : List Poly) : Bytes := v.flatMap fun f => packBits d (dsaRing.flip c f)
def dsaUnpack (d c k : Nat) (b : Bytes) : List Poly := (unpackVec d k b).map (dsaRing.flip c)
/-- ML-DSA.KeyGen from a seed of 32 bytes: the public and the private key. -/
def mlDsaKey (n : Nat) (seed : Bytes) : Bytes × Bytes :=
  let p := dsaParams n
  let g := shake256 128 (seed ++ bytesLE 1 p.k ++ bytesLE 1 p.l)
  let s1 := dsaSecrets p (piece g 32 64) 0 p.l
  let s2 := dsaSecrets p (piece g 32 64) p.l p.k
  let s1n := s1.map dsaRing.ntt
  let t := (dsaRing.addV ((dsaMatrix p (g.take 32)).map fun row => dsaRing.inv (dsaRing.dot row s1n)) s2).map fun f =>
    f.map dsaRound
  let pk := g.take 32 ++ t.flatMap fun f => packBits 10 (f.map Prod.fst)
  (pk, g.take 32 ++ g.drop 96 ++ shake256 64 pk ++ dsaPack p.etaBits p.eta s1 ++ dsaPack p.etaBits p.eta s2 ++
    dsaPack 13 4096 (t.map fun f => f.map Prod.snd))
/-- The message that is signed: with no pre-hash, after its context. -/
def dsaMessage (ctx msg : Bytes) : Bytes := bytesLE 1 0 ++ bytesLE 1 ctx.length ++ ctx ++ msg
/-- What an attempt to sign uses: the matrix, the transforms of s1, s2 and t0, the digest of the message and the mask seed. -/
structure DsaKeyed where
  a : List (List Poly)
  s1 : List Poly
  s2 : List Poly
  t0 : List Poly
  mu : Bytes
  mask : Bytes
  deriving DecidableEq, Repr
/-- One attempt to sign. -/
def dsaAttempt (p : DsaSet) (x : DsaKeyed) (kappa : Nat) : Option Bytes :=
  let r := dsaRing
  let y := dsaMask p x.mask kappa
  let yn := y.map r.ntt
  let w := x.a.map fun row => r.inv (r.dot row yn)
  let c := shake256 (p.lambda / 4) (x.mu ++ (dsaHigh p w).flatMap (packBits p.w1Bits))
  let cn := r.ntt (dsaBall p.tau c)
  let times := fun v : List Poly => v.map fun f => r.inv (r.mul cn f)
  let z := r.addV y (times x.s1)
  let w2 := r.subV w (times x.s2)
  let ct0 := times x.t0
  let h := List.zipWith (List.zipWith fun a b => b2n (a != b)) (dsaHigh p w2) (dsaHigh p (r.addV w2 ct0))
  if r.below (p.gamma1 - p.beta) z && r.below (p.gamma2 - p.beta) (dsaLow p w2) && r.below p.gamma2 ct0 &&
    (h.map fun f => f.foldl (· + ·) 0).foldl (· + ·) 0 ≤ p.omega then
    some (c ++ dsaPack p.zBits p.gamma1 z ++ dsaHintPack p h)
  else none
/-- The attempts in turn: the first signature and the number of attempts made. -/
def dsaAttempts (p : DsaSet) (x : DsaKeyed) : Nat → Nat → Option (Bytes × Nat)
  | 0, _ => none
  | f + 1, i => match dsaAttempt p x (p.l * i) with
    | some b => some (b, i + 1)
    | none => dsaAttempts p x f (i + 1)
/-- ML-DSA.Sign with 32 random bytes and no context: the signature and the attempts; none after 814 attempts, which FIPS 204
gives a chance below 2^-256. -/
def mlDsaSign (n : Nat) (sk msg rnd : Bytes) : Option (Bytes × Nat) :=
  let p := dsaParams n
  let e := 32 * p.etaBits
  let mu := shake256 64 (piece sk 64 64 ++ dsaMessage [] msg)
  dsaAttempts p
    { a := dsaMatrix p (sk.take 32)
      s1 := (dsaUnpack p.etaBits p.eta p.l (sk.drop 128)).map dsaRing.ntt
      s2 := (dsaUnpack p.etaBits p.eta p.k (sk.drop (128 + e * p.l))).map dsaRing.ntt
      t0 := (dsaUnpack 13 4096 p.k (sk.drop (128 + e * (p.l + p.k)))).map dsaRing.ntt
      mu := mu
      mask := shake256 64 (piece sk 32 32 ++ rnd ++ mu) } 814 0
/-- ML-DSA.Verify. -/
def mlDsaVerify (n : Nat) (pk msg ctx sig : Bytes) : Bool :=
  let p := dsaParams n
  let r := dsaRing
  let cl := p.lambda / 4
  let zl := 32 * p.zBits * p.l
  let c := sig.take cl
  let z := dsaUnpack p.zBits p.gamma1 p.l (sig.drop cl)
  let t1 := (unpackVec 10 p.k (pk.drop 32)).map fun f => r.ntt (r.scale 8192 f)
  let cn := r.ntt (dsaBall p.tau c)
  let zn := z.map r.ntt
  let w := List.zipWith (fun row t => r.inv (r.sub (r.dot row zn) (r.mul cn t))) (dsaMatrix p (pk.take 32)) t1
  let mu := shake256 64 (shake256 64 pk ++ dsaMessage ctx msg)
  sig.length == cl + zl + p.omega + p.k && pk.length == 32 + 320 * p.k && r.below (p.gamma1 - p.beta) z &&
    match dsaHintUnpack p (sig.drop (cl + zl)) with
    | none => false
    | some h =>
      c == shake256 cl (mu ++ (List.zipWith (List.zipWith (dsaUseHint p)) h w).flatMap (packBits p.w1Bits))

end Sys2Proof.Machine
end

