-- ==== Sys2Proof/Machine/Seedbank.lean ====
section
/-!
DEFINITION. The Seedbank (R411 to R413, R415) and the CTR_DRBG instances of the key store (R309).
-/
namespace Sys2Proof.Machine

/-! ### Generations (R411) -/

/-- An OTP dword of group `g`, generation `k`. -/
def otpAt (t : Tab (BitVec 32)) (g k i : Nat) : BitVec 32 := Tab.get (fun _ => 0) t (g * 64 + k * 16 + i)
/-- The sixteen dwords of a generation. -/
def otpGen (t : Tab (BitVec 32)) (g k : Nat) : List (BitVec 32) := (List.range 16).map (otpAt t g k)
/-- R411: a counter group, whose dwords 13 and 14 lie outside the seal. -/
def counterGroup (g : Nat) : Bool := g == 1 || g == 4
/-- R411: the seal of data dwords. -/
def sealOf (g k : Nat) (d : List (BitVec 32)) : BitVec 32 :=
  let n := if counterGroup g then 13 else 15
  BitVec.ofNat 32 (natLE ((sha3_256 (bytesLE 1 g ++ bytesLE 1 k ++ dwBytes (d.take n))).take 4))
def genBlank (t : Tab (BitVec 32)) (g k : Nat) : Bool := (otpGen t g k).all (· == 0)
def genValid (t : Tab (BitVec 32)) (g k : Nat) : Bool :=
  !genBlank t g k && otpAt t g k 15 == sealOf g k (otpGen t g k)
/-- R411: the winning generation. -/
def winner (t : Tab (BitVec 32)) (g : Nat) : Option Nat := [3, 2, 1, 0].find? (genValid t g)
/-- R411: the generation that a program would take. -/
def spare (t : Tab (BitVec 32)) (g : Nat) : Option Nat :=
  match [3, 2, 1, 0].find? fun k => !genBlank t g k with
  | none => some 0
  | some k => if k = 3 then none else some (k + 1)
/-- R411: the group cannot be programmed again. -/
def groupFrozen (t : Tab (BitVec 32)) (g : Nat) : Bool := (spare t g).isNone
def groupBlank (t : Tab (BitVec 32)) (g : Nat) : Bool := [0, 1, 2, 3].all (genBlank t g)
/-- R412: a data dword of a group as it reads: of the winning generation, 0 where there is none. -/
def groupDw (t : Tab (BitVec 32)) (g i : Nat) : BitVec 32 := match winner t g with | some k => otpAt t g k i | none => 0
/-- The 1 bits of a number's low `n` bits. -/
def popcount (n x : Nat) : Nat := ((List.range n).filter fun i => x.testBit i).length

/-- R412: LOCKS, PROV and the anti-rollback counter. -/
def otpLocks (t : Tab (BitVec 32)) : Nat := popcount 32 (groupDw t 1 13).toNat
def otpProv (t : Tab (BitVec 32)) : Nat := popcount 31 (groupDw t 1 14).toNat
def otpSvn (t : Tab (BitVec 32)) : Nat := popcount 64 ((groupDw t 4 13).toNat + (groupDw t 4 14).toNat * 2 ^ 32)
/-- R410, R412: DLEVEL and DKEYS. -/
def otpDlevel (t : Tab (BitVec 32)) : Nat := fld (groupDw t 2 0) 1 0
def otpDkeys (t : Tab (BitVec 32)) : Nat := fld (groupDw t 2 0) 7 4
/-- R404, R412: the part is locked by its Seedbank. -/
def otpLocked (t : Tab (BitVec 32)) : Bool := (winner t 1).isNone || otpProv t < otpLocks t
/-- R412: the device unique identifier and the root secret. -/
def otpUid (t : Tab (BitVec 32)) : Bytes := dwBytes ((List.range 4).map (groupDw t 0))
def otpRoot (t : Tab (BitVec 32)) : Bytes := dwBytes ((List.range 8).map fun i => groupDw t 0 (4 + i))

/-- Store dwords of a generation from index `i`. -/
def otpPut (t : Tab (BitVec 32)) (g k : Nat) : Nat → List (BitVec 32) → Tab (BitVec 32)
  | _, [] => t
  | i, d :: r => otpPut (Tab.set (fun _ => 0) t (g * 64 + k * 16 + i) (otpAt t g k i ||| d)) g k (i + 1) r

/-- R413 OP 1: data and seal go into the spare generation. -/
def otpProgram (t : Tab (BitVec 32)) (g : Nat) (d : List (BitVec 32)) : Tab (BitVec 32) :=
  match spare t g with
  | none => t
  | some k => otpPut t g k 0 (d.take 15 ++ [sealOf g k d])
/-- R413: a program that fails or is abandoned leaves an invalid generation; the seal dword is the value `x`, which the
spec leaves open, or another wrong one should `x` be the right seal or 0. -/
def otpSpoil (t : Tab (BitVec 32)) (g : Nat) (d : List (BitVec 32)) (x : BitVec 32) : Tab (BitVec 32) :=
  match spare t g with
  | none => t
  | some k =>
    let q := sealOf g k d
    let y := ([x, q ^^^ 1, q ^^^ 2].find? fun v => v != q && v != 0).getD x
    otpPut t g k 0 (d.take 15 ++ [y])
/-- R413: the lowest 0 bit of `n` bits after `bad` bits that would not burn. -/
def burnBit (n x bad : Nat) : Option Nat := ((List.range n).filter fun i => !x.testBit i)[bad]?
/-- Set bit `i` of the thermometer dwords from `dw` of the winning generation of a group. -/
def otpBurn (t : Tab (BitVec 32)) (g dw i : Nat) : Tab (BitVec 32) :=
  match winner t g with
  | none => t
  | some k => otpPut t g k (dw + i / 32) [BitVec.ofNat 32 (2 ^ (i % 32))]

/-! ### Operations (R413, R415) -/

/-- R413: the operation ends with ERR and ERRC. -/
def State.sbkErr (s : State) (c : Nat) : State := (s.wrf .sbkCtl 0 0 30 30 1).wrf .sbkCtl 0 0 29 27 c
/-- An operation begins. -/
def State.sbkBegin (s : State) (op g : Nat) : State :=
  ((s.wrf .sbkCtl 0 0 30 30 0).wrf .sbkCtl 0 0 29 27 0).modSbk fun b =>
    { b with busy := true, op := op, group := g,
             data := (List.range 15).foldl (fun d i => Tab.set (fun _ => 0) d i (s.rd .sbkWdata 0 i)) [] }
/-- R413: the ERRC with which OP 1 on a group is refused, 0 for none. -/
def programRefused (t : Tab (BitVec 32)) (g : Nat) : Nat :=
  if groupFrozen t g then 1
  else if g == 4 || 10 ≤ g then 3
  else if g == 1 then (if groupBlank t 1 && otpDlevel t == 0 then 0 else 3)
  else if (g == 0 || (6 ≤ g && g ≤ 9)) && otpDlevel t != 0 then 3
  else 0
/-- A write of SBK_CTL. -/
def sbkCtlWrite (w : Who) (v : BitVec 32) (s : State) : State :=
  if s.sbk.busy then s.reject w 0 (RegAt.key ⟨.sbkCtl, 0, 0⟩)
  else
    let s := s.plainWrite ⟨.sbkCtl, 0, 0⟩ v
    let g := fld v 11 8
    match fld v 2 0 with
    | 1 => if programRefused s.sbk.otp g = 0 then s.sbkBegin 1 g else s.sbkErr (programRefused s.sbk.otp g)
    | 2 => if (winner s.sbk.otp 4).isNone && groupFrozen s.sbk.otp 4 then s.sbkErr 1 else s.sbkBegin 2 4
    | 3 => if (winner s.sbk.otp 1).isNone then s.sbkErr 3 else s.sbkBegin 3 1
    | 4 => s.sbkBegin 4 g
    | _ => s
/-- A write of SBK_CTL whose OP is the one the command names. -/
def sbkCommand (op : Nat) (w : Who) (v : BitVec 32) (s : State) : State :=
  if fld v 2 0 == op then s.writeReg w .sbkCtl 0 0 (sbkCtlWrite w v) else s
/-- PROGRAM (R413 OP 1). -/
def execProgram (w : Who) (v : BitVec 32) (s : State) : Out := .next (sbkCommand 1 w v s)
/-- BURN_SVN (R413 OP 2). -/
def execBurnSvn (w : Who) (v : BitVec 32) (s : State) : Out := .next (sbkCommand 2 w v s)
/-- BURN_PROV (R413 OP 3). -/
def execBurnProv (w : Who) (v : BitVec 32) (s : State) : Out := .next (sbkCommand 3 w v s)
/-- RELOAD (R413 OP 4). -/
def execReload (w : Who) (v : BitVec 32) (s : State) : Out := .next (sbkCommand 4 w v s)

/-- The dwords that the running OP 1 writes. -/
def Sbk.dws (b : Sbk) : List (BitVec 32) := (List.range 15).map (Tab.get (fun _ => 0) b.data)
/-- R413: the effect of the running operation: `bad` bits that three attempts left at 0, and whether the verify passed. -/
def sbkEffect (bad : Nat) (ok : Bool) (s : State) : State :=
  let b := s.sbk
  match b.op with
  | 1 =>
    if ok then s.modSbk fun b => { b with otp := otpProgram b.otp b.group b.dws }
    else
      let (x, s) := s.fresh
      (s.modSbk fun b => { b with otp := otpSpoil b.otp b.group b.dws (x.setWidth 32) }).sbkErr 2
  | 2 =>
    let t := if (winner b.otp 4).isNone then otpProgram b.otp 4 (List.replicate 15 0) else b.otp
    s.modSbk fun b => { b with otp := match burnBit 64 ((groupDw t 4 13).toNat + (groupDw t 4 14).toNat * 2 ^ 32) bad with
      | some i => otpBurn t 4 13 i | none => t }
  | 3 => s.modSbk fun b => { b with otp := match burnBit 31 (groupDw b.otp 1 14).toNat bad with
      | some i => otpBurn b.otp 1 14 i | none => b.otp }
  | 4 => s.modSbk fun b => { b with view := b.otp }
  | _ => s
/-- R413: the running operation ends. -/
def sbkComplete (bad : Nat) (ok : Bool) (s : State) : State :=
  if s.sbk.busy then (sbkEffect bad ok s).modSbk fun b => { b with busy := false, op := 0, data := [] } else s
/-- R413: the running operation is abandoned for an alarm; an abandoned OP 1 spends a spare. -/
def sbkAbandon (s : State) : State :=
  if s.sbk.busy then
    let (x, s) := if s.sbk.op = 1 then s.fresh else (0, s)
    (s.modSbk fun b => { b with otp := if b.op = 1 then otpSpoil b.otp b.group b.dws (x.setWidth 32) else b.otp,
                                busy := false, op := 0, data := [] }).sbkErr 4
  else s

/-- R415: SBK_GRP of a group as the view holds it. -/
def grpReg (t : Tab (BitVec 32)) (g : Nat) : BitVec 32 :=
  let used := (List.range 4).foldl (fun a k => a + b2n (!genBlank t g k) * 2 ^ k) 0
  let bad := (List.range 4).foldl (fun a k => a + b2n (!genBlank t g k && !genValid t g k) * 2 ^ k) 0
  BitVec.ofNat 32 (b2n (winner t g).isSome * 2 ^ 31 + b2n (groupFrozen t g) * 2 ^ 30 + (winner t g).getD 0 * 2 ^ 28
    + used * 2 ^ 24 + bad * 2 ^ 20)
/-- R415: a read of the SBK block: the host and cores read 0. -/
def State.sbkRead (s : State) (w : Who) (n : RegName) (i : Nat) : BitVec 32 :=
  let g := s.rdf .sbkCtl 0 0 11 8
  if w != .shed then 0
  else match n with
    | .sbkCtl => putBit (s.rd .sbkCtl) 31 s.sbk.busy
    | .sbkGrp => grpReg s.sbk.view g
    | .sbkCount => BitVec.ofNat 32 (otpProv s.sbk.otp * 2 ^ 16 + otpLocks s.sbk.otp * 2 ^ 8 + otpSvn s.sbk.otp)
    | .sbkRdata => if g == 0 && 4 ≤ i && i ≤ 11 then 0 else groupDw s.sbk.view g i
    | _ => s.rd n 0 i
/-- A write of the SBK block. -/
def State.sbkWrite (s : State) (w : Who) (n : RegName) (i : Nat) (v : BitVec 32) : State :=
  match n with
  | .sbkCtl => sbkCtlWrite w v s
  | .sbkWdata => s.plainWrite ⟨n, 0, i⟩ v
  | _ => s

/-! ### DRBG instances (R309) -/

/-- The key and V of an instance as bytes. -/
def Drbg.kv (d : Drbg) : DrbgKV := (bytesBE 32 d.key.toNat, bytesBE 16 d.v.toNat)
/-- The instance with a new key and V. -/
def Drbg.put (d : Drbg) (x : DrbgKV) : Drbg :=
  { d with key := BitVec.ofNat 256 (natBE x.1), v := BitVec.ofNat 128 (natBE x.2) }
/-- R309: an instance from an entropy input and a personalisation string. -/
def Drbg.start (entropy pers : Bytes) : Drbg := { ({} : Drbg).put (drbgInstantiate entropy pers) with live := true }
/-- R310: a reseed. -/
def Drbg.reseed (d : Drbg) (entropy : Bytes) : Drbg :=
  if d.live then { d.put (drbgReseedKV d.kv entropy) with count := 0 } else d
/-- R309: the instance has served 2^32 generate requests since its last reseed. -/
def Drbg.spent (d : Drbg) : Bool := 2 ^ 32 ≤ d.count
/-- One generate request. -/
def Drbg.draw (d : Drbg) (n : Nat) : Bytes × Drbg :=
  let (o, x) := drbgGenerate d.kv n
  (o, { d.put x with count := d.count + 1 })
/-- R308: a 384-bit entropy input of the TRNG: six free values. -/
def State.entropy (s : State) : Bytes × State :=
  iter (fun (p : Bytes × State) => let (x, s) := p.2.fresh; (p.1 ++ bytesLE 8 x.toNat, s)) 6 ([], s)
/-- R309, R412: the device DRBG is instantiated. -/
def State.startDeviceDrbg (s : State) : State :=
  let (e, s) := s.entropy
  { s with drbgD := Drbg.start e (otpRoot s.sbk.otp) }

end Sys2Proof.Machine
end

