-- ==== Sys2Proof/Machine/KeyStore.lean ====
section
/-!
DEFINITION. The key store (R285 to R296, R308 to R310, R313): handles and their checks, creation and destruction of keys,
wrapping, the generators, and the commands of the TRNG.
-/
namespace Sys2Proof.Machine

/-! ### Handles and policy words (R285 to R288) -/

/-- R285: the fields of a handle payload. -/
def hRights (h : B64) : Nat := fld h 47 40
def hPart (h : B64) : Nat := fld h 39 34
def hGen (h : B64) : Nat := fld h 33 18
def hSlot (h : B64) : Nat := fld h 17 0
/-- R285: a handle. -/
def mkHandle (rights part gen slot : Nat) : B64 :=
  BitVec.ofNat 64 (rights % 256 * 2 ^ 40 + part % 64 * 2 ^ 34 + gen % 65536 * 2 ^ 18 + slot % 2 ^ 18)
/-- R287: the fields of a policy word. -/
def polOwner (p : B64) : Nat := fld p 63 58
def polGen (p : B64) : Nat := fld p 57 42
def polLive (p : B64) : Bool := p.getLsbD 41
def polType (p : B64) : Nat := fld p 39 32
def polUse (p : B64) : Nat := fld p 31 24
/-- R287: a policy word of a live key. -/
def mkPolicy (owner gen type use label : Nat) : B64 :=
  BitVec.ofNat 64 (owner % 64 * 2 ^ 58 + gen % 65536 * 2 ^ 42 + 2 ^ 41 + type % 256 * 2 ^ 32 + use % 256 * 2 ^ 24 + label % 2 ^ 24)
/-- R288: the rights that a type admits; none for a reserved type. -/
def typeRights (t : Nat) : Option Nat :=
  match t with
  | 1 | 2 => some 0xFC
  | 3 | 4 => some 0xC3
  | 5 => some 0xC2
  | 6 => some 0xC1
  | _ => none
/-- R288: the material is valid for its type: a short key leaves the upper bits 0, a P-256 scalar lies in 1 to n - 1. -/
def materialOk (t mat : Nat) : Bool :=
  match t with
  | 1 => mat < 2 ^ 128
  | 4 => 1 ≤ mat && mat < p256.n
  | 2 | 3 | 5 | 6 => mat < 2 ^ 256
  | _ => false
/-- The material as bytes, least significant first (R287). -/
def matBytes (mat : Nat) : Bytes := bytesLE 32 mat
/-- The AES key of a slot's type and material. -/
def aesKeyOf (t mat : Nat) : Bytes := if t = 1 then bytesLE 16 mat else bytesLE 32 mat

/-! ### Slots (R290 to R293) -/

/-- R292: a key is destroyed; a retired slot stays retired. -/
def Slot.destroy (k : Slot) : Slot := { mat := 0, pol := BitVec.ofNat 64 (min (polGen k.pol + 1) 0xFFFF * 2 ^ 42), bad := false }
def State.destroySlot (s : State) (i : Nat) : State := s.setSlot i (s.slot i).destroy
/-- R293: an uncorrectable slot is destroyed and recorded. -/
def State.slotFault (s : State) (i : Nat) : State :=
  (s.destroySlot i).record .kstErr 0 (BitVec.ofNat 32 (1 * 2 ^ 24 + i % 2 ^ 18))
/-- R293: what the SEC-DED groups of a slot show when it is read. -/
def State.slotRead (s : State) (i : Nat) (e : SlotEcc) : State :=
  match e with
  | .good => s
  | .corrected => s.inc32 .kstCecnt
  | .uncorrectable => s.setSlot i { s.slot i with bad := true }
/-- R309: a generator at its reseed limit is recorded. -/
def State.reseedLimit (s : State) (p : Nat) : State := s.record .kstErr 0 (BitVec.ofNat 32 (3 * 2 ^ 24 + p % 64 * 2 ^ 18))
/-- R289: the checks of a handle for partition `p`: the first REASON that applies, 0 for none. `ty` accepts types, `need` is
the rights needed, `e` is what the read of the slot meets (R293). -/
def handleCheck (s : State) (p : Option Nat) (h : B64) (ty : Nat → Bool) (need : Nat) (e : SlotEcc := .good) : Nat × State :=
  let i := hSlot h
  if fld h 63 48 != 0 || s.build.slots ≤ i then (1, s)
  else if p != some (hPart h) then (2, s)
  else
    let s := s.slotRead i e
    if (s.slot i).bad then (3, s.slotFault i)
    else
      let pol := (s.slot i).pol
      if !polLive pol || polGen pol != hGen h then (3, s)
      else if polOwner pol != hPart h then (4, s)
      else if !ty (polType pol) then (5, s)
      else if Nat.land need (hRights h) != need then (6, s)
      else if Nat.land need (polUse pol) != need then (7, s)
      else (0, s)
/-- R289: SINFO of trap 0x2A. -/
def handleInfo (reason : Nat) (h : B64) : B64 := BitVec.ofNat 64 (reason * 2 ^ 60 + hSlot h)
/-- R296: a key name as a handle with RIGHTS equal to USE. -/
def State.nameHandle (s : State) (p : Nat) (name : Nat) : B64 :=
  mkHandle (polUse (s.slot (name % 2 ^ 18)).pol) p (name / 2 ^ 18 % 65536) (name % 2 ^ 18)

/-- R290: the slots of partition `p`. -/
def State.keyBase (s : State) (p : Nat) : Nat := s.rdf .kstPbase 0 p 17 0
def State.keyCount (s : State) (p : Nat) : Nat := s.rdf .kstPcnt 0 p 18 0
/-- R290: the range of `p` overlaps that of another existing partition, or runs past the last slot. -/
def State.keyRangeBad (s : State) (p : Nat) : Bool :=
  let b := s.keyBase p
  let n := s.keyCount p
  s.build.slots < b + n || s.partIds.any fun q =>
    q != p && (s.part q).st != 0 && b < s.keyBase q + s.keyCount q && s.keyBase q < b + n
      && n != 0 && s.keyCount q != 0
/-- The first of `n` slots from `i` that the build has and that may be allocated (R291). -/
def freeSlot (s : State) : Nat → Nat → Option Nat
  | _, 0 => none
  | i, n + 1 =>
    let k := s.slot i
    if i < s.build.slots && !polLive k.pol && polGen k.pol != 0xFFFF then some i else freeSlot s (i + 1) n
/-- R291: a key is created for partition `p`; none where no slot qualifies. -/
def State.createKey (s : State) (p type use label mat : Nat) : Option (Nat × State) :=
  match freeSlot s (s.keyBase p) (s.keyCount p) with
  | none => none
  | some i =>
    let use := Nat.land use ((typeRights type).getD 0)
    some (i, s.setSlot i { mat := mat, pol := mkPolicy p (polGen (s.slot i).pol) type use label })
/-- R285: the name of the key in a slot. -/
def State.keyName (s : State) (i : Nat) : Nat := polGen (s.slot i).pol * 2 ^ 18 + i
/-- R292: PART_DESTROY destroys every slot whose OWNER is the partition. -/
def State.destroyKeysOf (s : State) (p : Nat) : State :=
  s.slots.foldl (fun s e => if polLive e.2.pol && polOwner e.2.pol == p then s.destroySlot e.1 else s) s

/-! ### Wrapping (R295) -/

/-- R295: a wrapped key. -/
def wrapKey (kek : Bytes) (pol : B64) (mat : Nat) : Bytes :=
  kwpWrap kek (bytesLE 8 (pol.toNat % 2 ^ 40) ++ matBytes mat)
/-- R295: type, use, label and material of a wrapped key; none where the unwrap is refused. -/
def unwrapKey (kek blob : Bytes) : Option (Nat × Nat × Nat × Nat) :=
  match kwpUnwrap kek blob with
  | none => none
  | some b =>
    let pol := BitVec.ofNat 64 (natLE (b.take 8))
    let mat := natLE (b.drop 8)
    if b.length = 40 && pol.toNat < 2 ^ 40 && (typeRights (polType pol)).isSome && materialOk (polType pol) mat then
      some (polType pol, polUse pol, fld pol 23 0, mat)
    else none

/-! ### Generators (R308 to R310) -/

/-- One generate request of a partition's instance on a side; none at the reseed limit. -/
def State.drawPart (s : State) (p side n : Nat) : Option (Bytes × State) :=
  let d := (s.part p).drbg side
  if d.spent then none
  else
    let (o, d) := d.draw n
    some (o, s.modPart p fun q => q.setDrbg side d)
/-- R309: bytes from a partition's instance, at most 65,536 to a request. -/
def State.drawBytes (s : State) (p side : Nat) : Nat → Nat → Option (Bytes × State)
  | 0, _ => some ([], s)
  | f + 1, n =>
    if n = 0 then some ([], s)
    else match s.drawPart p side (min n 65536) with
      | none => none
      | some (o, s) => match State.drawBytes s p side f (n - min n 65536) with
        | none => none
        | some (o2, s) => some (o ++ o2, s)
/-- R299: a scalar in 1 to n - 1 of a curve, by rejection of candidates; should `f` candidates all be rejected, a free
value. -/
def State.drawScalar (s : State) (p side : Nat) (c : Curve) : Nat → Option (Nat × State)
  | 0 => let (x, s) := s.fresh; some (1 + x.toNat % (c.n - 1), s)
  | f + 1 =>
    match s.drawPart p side c.len with
    | none => none
    | some (o, s) =>
      let k := natLE o
      if 1 ≤ k && k < c.n then some (k, s) else State.drawScalar s p side c f
/-- R299: the material of a new key. -/
def State.drawKey (s : State) (p side type : Nat) : Option (Nat × State) :=
  if type = 4 then s.drawScalar p side p256 64
  else (s.drawPart p side (if type = 1 then 16 else 32)).map fun x => (natLE x.1, x.2)

/-- R309: a partition's instances are instantiated from one entropy input, the host DRBG of a pair from a second. -/
def State.startPartDrbgs (s : State) (p : Nat) (paired : Bool) : State :=
  let (e, s) := s.entropy
  let d := Drbg.start e (bytesLE 1 p)
  if paired then
    let (e2, s) := s.entropy
    s.modPart p fun q => { q with drbg0 := d, drbg1 := d, drbgH := Drbg.start e2 (bytesLE 1 p) }
  else s.modPart p fun q => { q with drbg0 := d }
/-- R310: the interval in force. -/
def State.reseedEvery (s : State) : Nat := max 16 (s.rdf .kstReseed 0 0 15 0)
/-- R310: the reseed of one partition at a tick. -/
def State.reseedPart (s : State) (p : Nat) : State :=
  if (s.part p).st = 0 then s
  else
    let (e, s) := s.entropy
    if (s.part p).paired then
      let (e2, s) := s.entropy
      let x := (s.frame, BitVec.ofNat 384 (natLE e))
      s.modPart p fun q => { q with seeds0 := q.seeds0 ++ [x], seeds1 := q.seeds1 ++ [x], drbgH := q.drbgH.reseed e2 }
    else s.modPart p fun q => { q with drbg0 := q.drbg0.reseed e }
/-- DRBG_RESEED (R310): the reseed of the tick that opened this frame, once; an unhealthy TRNG skips it. -/
def drbgReseed (s : State) : State :=
  if !s.ticking || s.frame % s.reseedEvery != 0 || s.reseeded == s.frame + 1 then s
  else
    let s := { s with reseeded := s.frame + 1 }
    if !s.trngOk then s.incf .kstTrng 0 0 7 0 else s.partIds.foldl State.reseedPart s
/-- DRBG_RESEED (R310). -/
def execDrbgReseed (s : State) : Out := .next (drbgReseed s)
/-- TRNG_HEALTH_FAILURE (R308). -/
def execTrngHealthFailure (s : State) : Out :=
  .next ({ (s.incf .kstTrng 0 0 15 8) with trngOk := false }.record .kstErr 0 (BitVec.ofNat 32 (2 * 2 ^ 24)))
/-- TRNG_STARTUP_PASS (R308): where the boot found the TRNG unhealthy, the device DRBG is instantiated now (R309). -/
def trngStartupPass (s : State) : State :=
  let s := { s with trngOk := true }
  if !s.drbgD.live && 4 ≤ s.pwr.stage then s.startDeviceDrbg else s
/-- TRNG_STARTUP_PASS (R308). -/
def execTrngStartupPass (s : State) : Out := .next (trngStartupPass s)
/-- R39: the pair reseed inputs of ticks up to `a` are applied to the twin of a side. -/
def State.applySeeds (s : State) (p side a : Nat) : State :=
  s.modPart p fun q =>
    let l := if side = 0 then q.seeds0 else q.seeds1
    let q := (l.filter fun x => x.1 ≤ a).foldl (fun q x => q.setDrbg side ((q.drbg side).reseed (bytesLE 48 x.2.toNat))) q
    let r := l.filter fun x => a < x.1
    if side = 0 then { q with seeds0 := r } else { q with seeds1 := r }

/-! ### Registers (R313) -/

/-- A read of the KST block. -/
def State.kstRead (s : State) (n : RegName) (i : Nat) : BitVec 32 :=
  match n with
  | .kstStat => (s.rd n &&& 0x80000000) ||| BitVec.ofNat 32 (s.slots.filter fun e => polLive e.2.pol).length
  | .kstRetired => BitVec.ofNat 32 (s.slots.filter fun e => polGen e.2.pol == 0xFFFF).length
  | .kstTrng => putBit (s.rd n) 31 s.trngOk
  | _ => s.rd n 0 i
/-- R290: a partition runs. -/
def Part.runs (q : Part) : Bool := q.st == 3 || q.st == 4
/-- Any paired partition runs. -/
def State.pairRuns (s : State) : Bool := s.partIds.any fun p => (s.part p).paired && (s.part p).runs
/-- A write of the KST block. -/
def State.kstWrite (s : State) (w : Who) (n : RegName) (i : Nat) (v : BitVec 32) : State :=
  let lock := match n with
    | .kstPbase | .kstPcnt => (s.part i).runs
    | .kstReseed => s.pairRuns
    | _ => false
  if lock then s.reject w 0 (RegAt.key ⟨n, 0, i⟩) else s.plainWrite ⟨n, 0, i⟩ v

end Sys2Proof.Machine
end

