-- ==== Sys2Proof/Machine/Admund.lean ====
section
/-!
DEFINITION. The Admund word stream (R64 to R69): the checks of an input stream, the objects it becomes, and the encoding of
output; and how the host interface reads a partition's memory (R331).
-/
namespace Sys2Proof.Machine

/-! ### Words and markers (R64, R66) -/

/-- R64: a word as nine bytes. -/
def wordBytes (w : Word) : Bytes := w.tag :: bytesLE 8 w.pay.toNat
/-- R64: the word that nine bytes spell. -/
def bytesWord (b : Bytes) : Word := ⟨b.headD 0, BitVec.ofNat 64 (natLE ((b.drop 1).take 8))⟩
/-- R66: a marker. -/
def marker (kind count : Nat) : Word := ⟨0x1A, BitVec.ofNat 64 (kind % 256 * 2 ^ 56 + count % 2 ^ 32)⟩

/-! ### Input (R65 to R68) -/

/-- An item of a decoded body: a word, or the object of that number. -/
inductive AItem where
  | word (w : Word)
  | obj (i : Nat)
  deriving DecidableEq, Repr

/-- An object that a stream becomes: its KIND and body. -/
structure AObj where
  kind : Nat := 0x01
  body : List AItem := []
  deriving DecidableEq, Repr

/-- A structure being read: the number of its object, the items still missing (none at the top level), whether it is a KIND
3 item, and its items so far, newest first. -/
structure AOpen where
  no : Nat
  rem : Option Nat
  rawItems : Bool
  items : List AItem
  deriving DecidableEq, Repr

/-- What the check of a stream gives: a status with the offset of its fault, or the objects by number. -/
inductive ADec where
  | fault (status : BitVec 16) (off : Nat)
  | ok (objs : List AObj)
  deriving DecidableEq, Repr

/-- The objects by number. -/
abbrev AObjs := Tab AObj
def AObjs.put (t : AObjs) (i : Nat) (o : AObj) : AObjs := Tab.set (fun _ => { kind := 0 }) t i o
/-- The structure `f` is complete. -/
def AOpen.close (f : AOpen) (t : AObjs) : AObjs := t.put f.no ⟨if f.rawItems then 0x06 else 0x01, f.items.reverse⟩
/-- An item comes to the innermost structure. -/
def addItem (st : List AOpen) (x : AItem) : List AOpen :=
  match st with
  | [] => []
  | f :: t => { f with rem := f.rem.map (· - 1), items := x :: f.items } :: t
/-- Structures with nothing missing are complete. -/
def closeDone : List AOpen → AObjs → List AOpen × AObjs
  | [], t => ([], t)
  | f :: r, t => if f.rem == some 0 then closeDone r (f.close t) else (f :: r, t)
/-- R67: tags that may stand outside a KIND 3 item. -/
def topTag (t : BitVec 8) : Bool := [0x08, 0x10, 0x18, 0x19, 0x1A, 0x20].contains t.toNat
/-- R60: a byte string of `n` bytes: its KIND and words. -/
def bytesObj (b : Bytes) : AObj :=
  let len := (b.length + 7) / 8
  ⟨0x10 + (8 * len - b.length), (chunk 8 b).map fun c => .word (Word.raw (BitVec.ofNat 64 (natLE c)))⟩

/-- R67: the check of the rest of a stream: `b` from offset `off` on, the structures open, innermost first, the objects
complete, the number of the next object. -/
def aParse : Nat → Bytes → Nat → List AOpen → AObjs → Nat → ADec
  | 0, _, off, _, _, _ => .fault 0x0101 off
  | fuel + 1, b, off, st, objs, n =>
    let (st, objs) := closeDone st objs
    match st with
    | [] => .fault 0x0101 off
    | f :: _ =>
      if b.isEmpty then
        match f.rem with
        | none => .ok ((f.close objs).map Prod.snd)
        | some _ => .fault 0x0101 off
      else if b.length < 9 then .fault 0x0101 off
      else
        let w := bytesWord (b.take 9)
        let r := b.drop 9
        if f.rawItems then
          (if w.tag != 0x28 then .fault 0x0104 off else aParse fuel r (off + 9) (addItem st (.word w)) objs n)
        else if !topTag w.tag then .fault 0x0104 off
        else if w.tag != 0x1A then
          (if (w.tag == 0x10 && !charOk w.pay) || (w.tag == 0x18 && 6 < w.pay.toNat) then .fault 0x0101 off
           else aParse fuel r (off + 9) (addItem st (.word w)) objs n)
        else
          let kind := fld w.pay 63 56
          let c := fld w.pay 31 0
          if kind = 0 || 3 < kind || fld w.pay 55 32 != 0 || 8 < st.length then .fault 0x0101 off
          else
            let st := addItem st (.obj n)
            if kind = 1 then
              let pad := (c + 8) / 9 * 9
              if r.length < pad then .fault 0x0101 off
              else match ((r.take pad).drop c).findIdx? (· != 0) with
                | some i => .fault 0x0101 (off + 9 + c + i)
                | none => aParse fuel (r.drop pad) (off + 9 + pad) st (objs.put n (bytesObj (r.take c))) (n + 1)
            else aParse fuel r (off + 9) (⟨n, some c, kind == 3, []⟩ :: st) objs (n + 1)

/-- R65, R67: the check of a whole input stream. Every turn takes at least nine bytes, or ends. A word cut short by the end of
the input whose tag byte is not allowed either has both faults at one offset: it is answered as cut short (DESIGN CHOICE,
log 48). -/
def aDecode (b : Bytes) : ADec := aParse (b.length + 1) b 0 [⟨0, none, false, []⟩] [] 1

/-- R331: the word offsets of the objects from `a` on. -/
def objOffs : Nat → List AObj → List Nat
  | _, [] => []
  | a, o :: t => a :: objOffs (a + objSize o.body.length) t
/-- R331: the words that the objects take. -/
def objWords (l : List AObj) : Nat := (l.map fun o => objSize o.body.length).sum
/-- R60: a pointer to an object of a decoded stream. -/
def objPtr (col : Nat) (o : AObj) (va : Nat) : Word := mkWord ((kindPtr o.kind).getD tyVEC) false col (BitVec.ofNat 64 va)
/-- R68: the words of one object, its padding included. -/
def objImage (col va : Nat) (objs : List AObj) (offs : List Nat) (o : AObj) : List Word :=
  let body := o.body.map fun x => match x with
    | .word w => w
    | .obj i => objPtr col (objs.getD i {}) (va + offs.getD i 0)
  let ws := mkWord tyHDR false 0 (mkHdr o.body.length 0 o.kind false 0 false) :: body
  ws ++ List.replicate (objSize o.body.length - ws.length) Word.empty
/-- R68, R331: the objects as words from virtual address `va` on. -/
def objsImage (col va : Nat) (objs : List AObj) : List Word :=
  let offs := objOffs 0 objs
  objs.flatMap (objImage col va objs offs)

/-! ### Memory of a partition as the host interface reaches it (R226, R331) -/

/-- The transaction under way on the line of a physical word runs to its end first. -/
def State.calm (s : State) (pa : Nat) : State := settle 64 s (pa / 8)
/-- A coherent read of one word. -/
def State.agentRead (s : State) (pa : Nat) : Word × State := (s.calm pa).ncWord pa
/-- R226: PROOT of the strand 0 record of a side. -/
def State.proot (s : State) (p side : Nat) : B64 × State :=
  let r := s.agentRead ((s.part p).ctxOf side + 224)
  (r.1.pay, r.2)
/-- A walk by a non-caching agent of cell `n`: the physical word; none where it faults. -/
def agentWalk : Nat → State → Nat → Access → Nat → Nat → Nat → Nat → Option TlbEnt × State
  | 0, s, _, _, _, _, _, _ => (none, s)
  | f + 1, s, n, a, asid, va, j, table =>
    match (s.calm (table + tableIndex va j)).walkStep (n * s.build.cluPerCell) true 1 0 a asid va j table with
    | (.leaf e, s) => (if e.dev then none else some e, s)
    | (.next j' t', s) => agentWalk f s n a asid va j' t'
    | (_, s) => (none, s)
/-- A translation by a root: the entry; none where it faults. -/
def State.agentTranslate (s : State) (n : Nat) (root : B64) (a : Access) (va : Nat) : Option TlbEnt × State :=
  let mode := rootMode root
  if (preWalk 1 mode a va).isSome then (none, s)
  else agentWalk 5 s n a (rootAsid root) va (modeTop mode) (rootTable root)
/-- The physical word of a virtual address of partition `p` on a side; none where the walk faults. -/
def State.agentAddr (s : State) (p side : Nat) (a : Access) (va : Nat) : Option Nat × State :=
  let n := (s.part p).cellOf side
  let r := s.proot p side
  let t := r.2.agentTranslate n r.1 a va
  match t.1 with
  | some e => (if cellOfLine (e.addr va / 8) == n && t.2.linePopulated (e.addr va / 8) then some (e.addr va) else none, t.2)
  | none => (none, t.2)
/-- A read of one word of partition memory. -/
def State.partRead (s : State) (p side va : Nat) : Option Word × State :=
  match s.agentAddr p side .load va with
  | (some pa, s) => let r := s.agentRead pa; (some r.1, r.2)
  | (none, s) => (none, s)
/-- Writes of words from `va` on; false where a walk faults. -/
def partWrites (p side : Nat) : State → Nat → List Word → Bool × State
  | s, _, [] => (true, s)
  | s, va, w :: t =>
    match s.agentAddr p side .store va with
    | (some pa, s) => partWrites p side ((s.calm pa).agentWrite pa w) (va + 1) t
    | (none, s) => (false, s)

/-! ### Output (R69) -/

/-- Why an output is not encoded. -/
inductive EncErr where
  /-- R328: DETAIL 0x32 or 0x33. -/
  | detail (d : BitVec 8)
  /-- R331: a walk faulted. -/
  | walk
  deriving DecidableEq, Repr

/-- An encoding: it reads memory and may fail. -/
abbrev Enc := ExceptT EncErr (StateM State)

/-- A word of partition memory. -/
def encRead (p side va : Nat) : Enc Word := do
  let r := (← get).partRead p side va
  set r.2
  match r.1 with
  | some w => return w
  | none => throw .walk
/-- R69: the header that a pointer reaches, a `FWD` followed once: its address and payload. -/
def encHeader (p side : Nat) (w : Word) : Enc (Nat × B64) := do
  let a := w.pay.toNat
  let h ← encRead p side a
  let (a, h) ← (if h.isFwd then do
      let a2 := h.pay.toNat % 2 ^ 54
      return (a2, ← encRead p side a2)
    else pure (a, h) : Enc (Nat × Word))
  if !h.isHdr || kindPtr (hdrKind h.pay) != some w.ty then throw (.detail 0x32)
  if hdrSealed h.pay then throw (.detail 0x33)
  return (a, h.pay)
/-- R69: `n` body words from a virtual address on, in order, each read and then encoded by `f`. -/
def encBody (p side : Nat) (f : Word → Enc Bytes) : Nat → Nat → Enc Bytes
  | _, 0 => return []
  | va, n + 1 => do
    let a ← f (← encRead p side va)
    return a ++ (← encBody p side f (va + 1) n)
/-- R69: a body word of a raw body. -/
def encRaw (w : Word) : Enc Word :=
  if w.sec then throw (.detail 0x33) else if w.tag != 0x28 then throw (.detail 0x32) else return w
/-- R69: one word, with room for `d` more markers around its contents. A pointer at depth 9 fails as too deep, whatever it
reaches: its header is not read (DESIGN CHOICE, log 48). -/
def encWord (p side : Nat) : Nat → Word → Enc Bytes
  | 0, w =>
    if w.sec then throw (.detail 0x33)
    else if [0x08, 0x10, 0x18, 0x19, 0x20].contains w.tag.toNat then return wordBytes w
    else throw (.detail 0x32)
  | d + 1, w => do
    if w.sec then throw (.detail 0x33)
    if [0x08, 0x10, 0x18, 0x19, 0x20].contains w.tag.toNat then return wordBytes w
    if !(w.ty == tyVEC || w.ty == tyBYTES || w.ty == tyRAWV) || !ptrPayOk w.pay then throw (.detail 0x32)
    let (a, h) ← encHeader p side w
    if w.ty == tyVEC then return wordBytes (marker 2 (hdrLen h)) ++ (← encBody p side (encWord p side d) (a + 1) (hdrLen h))
    else if w.ty == tyRAWV then
      return wordBytes (marker 3 (hdrLen h)) ++ (← encBody p side (fun w => do return wordBytes (← encRaw w)) (a + 1) (hdrLen h))
    else
      let n := 8 * hdrLen h - (hdrKind h - 0x10)
      let data ← encBody p side (fun w => do return bytesLE 8 (← encRaw w).pay.toNat) (a + 1) (hdrLen h)
      return wordBytes (marker 1 n) ++ fitBytes ((n + 8) / 9 * 9) (data.take n)
/-- R69: the sequence of words that a vector holds. -/
def encodeOutput (p side : Nat) (w : Word) : Enc Bytes := do
  let (a, h) ← encHeader p side w
  encBody p side (encWord p side 8) (a + 1) (hdrLen h)

end Sys2Proof.Machine
end

