-- ==== Sys2Proof/Machine/Alarm.lean ====
section
/-!
DEFINITION. The alarm monitor (R397 to R406, R410, R414): sources, the tamper filter, decisions, the zeroization and its end
state, the lock burn, and the commands that write its registers.
-/
namespace Sys2Proof.Machine

/-! ### Policy (R397, R406) -/

/-- R397: the floor of each source. -/
def almFloor (src : Nat) : Nat := [2, 1, 1, 0, 0, 2, 0, 0, 0, 0, 2, 0].getD src 0
/-- The class that a policy gives a source; 12 and 13 are fixed at A2. -/
def polClass (pol : BitVec 32) (src : Nat) : Nat :=
  if src == 12 || src == 13 then 2 else if src < 12 then fld pol (2 * src + 1) (2 * src) else 0
/-- R399, R406: the class at which a source acts now. -/
def State.almClass (s : State) (src : Nat) : Nat :=
  let c := polClass (s.rd .almPolicy) src
  if s.alm.window then max (max (polClass s.alm.oldPol src) c) 2 else c
/-- R406: a policy raised to the floors, as the monitor loads it at a cold boot. -/
def floorPolicy (pol : BitVec 32) : BitVec 32 :=
  (List.range 12).foldl (fun p i => putFld p (2 * i + 1) (2 * i) (max (polClass pol i) (almFloor i))) 0
/-- R406: the policy at a cold boot. -/
def bootPolicy (t : Tab (BitVec 32)) : BitVec 32 :=
  floorPolicy (match winner t 3 with | some k => otpAt t 3 k 0 | none => 0x006AAEAB)

/-! ### The zeroization (R402, R403) -/

/-- R402: what one core loses. -/
def Core.zeroize (k : Core) : Core :=
  { k with regs := [], spr := k.spr.filter fun e => !(0x100 ≤ e.1 && e.1 ≤ 0x11F), sb := [], atomics := [],
           l1d := [], l1p := [], l1i := [], l1ip := [], locks := [], relock := [], inlineOp := none, xLoaded := false,
           part := none, next := none, wait := .none, walk := none }
/-- R402: what one cluster loses. -/
def Clu.zeroize (k : Clu) : Clu :=
  { k with l2p := [], evb := [], prio := [], work := [], jobq := [], jobrun := [] }
/-- R402: what one cell loses: its key, its fills, its maintenance operations; the Hoe stops. -/
def Cell.zeroize (k : Cell) : Cell :=
  { k with key := 0, hasKey := false, mcur := none, mpend := 0, fillq := [], fillLate := [], filling := none, fillAt := [],
           scrClear := 0 }
/-- R402: what one partition loses. -/
def Part.zeroize (q : Part) : Part :=
  { q with drbg0 := {}, drbg1 := {}, drbgH := {}, seeds0 := [], seeds1 := [], keyWait := none, repair := none }
/-- R348, R402: an outstanding command: it completes with 0x0400 and no output, as written in its arrival frame. -/
def Req.alarmed (r : Req) : Req :=
  { r with done := some r.arr, status := 0x0400, detail := 0, out := [], outNeed := 0, result := 0, mis := false, relFrm := none,
           fin := false, stg0 := none, stg1 := none, rep0 := none, rep1 := none }

/-- R402: the zeroization begins; every array that holds a secret is cleared and every engine stops. -/
def State.zeroize (s : State) (why : Nat) : State :=
  let s := s.modAlm fun a => { a with zbusy := true, zwhy := why, out := true }
  let s := s.coreIds.foldl (fun s c => s.modCore c Core.zeroize) s
  let s := s.cluIds.foldl (fun s m => s.modClu m Clu.zeroize) s
  let s := s.cellIds.foldl (fun s n => s.modCell n Cell.zeroize) s
  let s := s.partIds.foldl (fun s p => s.modPart p Part.zeroize) s
  let s := s.reqs.foldl (fun s e => s.modReq e.1 Req.alarmed) s
  { s with filled := [], mem := [], memErr := [], scratch := [], l2 := [], dir := [], net := [], mshr := [], slots := [],
           ncNet := [], ncAsk := [], ncGot := [], dirP := [], dirRes := [],
           drbgD := {}, jobs := [], strands := [] }

/-- R410: debug opens once source 10's response has completed; the token that asked for it succeeds. -/
def State.debugOpen (s : State) : State :=
  if s.alm.dbgPend && !s.alm.zbusy then
    let s := s.modAlm fun a => { a with dbg := true, dbgPend := false }
    if s.admWait == .dbg then s.admFinish 0 else s
  else s
/-- R410: source 10 has decided: its response is under way, or, as no zeroization is repeated, complete. -/
def State.debugResponse (s : State) : State := (s.modAlm fun a => { a with dbgPend := true }).debugOpen

/-- R403: the admin command that waited when the alarm came: ZEROIZE and SLEEP succeed; the wait for debug and Seedbank
operations goes on; every other wait is abandoned. -/
def State.admAfterZero (s : State) : State :=
  match s.admWait with
  | .zero => s.admFinish 0
  | .none | .dbg | .sbk _ => s
  | .cellStart _ | .cellStop _ => s.admFinish 0x0301
  | _ => s.admFinish 0x0400
/-- R403, R410: the end state. -/
def zeroizationComplete (s : State) : State :=
  if !s.alm.zbusy then s
  else
    let s := s.cellIds.foldl (fun s n => (s.setCellState n 4).modCell n fun k =>
      { k with acked := true, startPend := false, stopPend := false, restarted := false, restarting := false }) s
    let s := s.partIds.foldl (fun s p =>
      (((s.setPart p {}).wr .kstPbase 0 p 0).wr .kstPcnt 0 p 0).wr .frmLate 0 p 0) s
    let s := s.startDeviceDrbg.wrf .kstStat 0 0 31 31 1
    let s := s.modAlm fun a => { a with zbusy := false, out := if a.zwhy = 1 then a.inforce else a.out }
    let s := if s.alm.zwhy = 2 then s.modPwr fun p => { p with pmicDropPend := true } else s
    s.debugOpen.admAfterZero
/-- ZEROIZATION_COMPLETE (R403). -/
def execZeroizationComplete (s : State) : Out := .next (zeroizationComplete s)

/-! ### Decisions (R399, R400) -/

/-- R400: ALM_REC takes a decision. -/
def State.almRecord (s : State) (src cls : Nat) : State :=
  let v := s.rd .almRec
  let body := BitVec.ofNat 32 (2 ^ 31 + cls * 2 ^ 24 + src)
  let frm := BitVec.ofNat 32 s.frame
  let keep := (s.wr .almRec 0 0 (v ||| 0x40000000)).inc32 .almOvfcnt
  if s.alm.cls < cls then
    (s.wr .almRec 0 0 (body ||| (v &&& 0x60000000) ||| (if v.getLsbD 31 then 0x20000000 else 0))).wr .almRecfrm 0 0 frm
  else if 0 < s.alm.cls || v.getLsbD 31 then keep
  else (s.wr .almRec 0 0 (body ||| (v &&& 0x60000000))).wr .almRecfrm 0 0 frm
/-- R404: an A3 decision leads to a burn. -/
def State.canBurn (s : State) : Bool := (winner s.sbk.otp 1).isSome && otpLocks s.sbk.otp < 32
/-- R401: the response of a class. -/
def State.respond (s : State) (cls : Nat) : State :=
  let old := s.alm.cls
  match cls with
  | 0 => s
  | 1 => s.modAlm fun a => { a with cls := max a.cls 1, freezePend := a.freezePend || a.cls = 0 || a.liftPend }
  | 2 =>
    let s := s.modAlm fun a => { a with cls := max a.cls 2, inforce := true, out := true }
    if 2 ≤ old || s.alm.zbusy then s else s.zeroize 0
  | _ =>
    let s := s.modAlm fun a =>
      { a with cls := 3, inforce := true, out := true, lockedA3 := true, burnDue := a.burnDue || (old < 3 && s.canBurn) }
    if 3 ≤ old || s.alm.zbusy then s else s.zeroize 0
/-- R399: the active sources that have not acted. -/
def State.deciding (s : State) : List Nat :=
  (List.range 12).filter fun i => s.alm.level.getLsbD i && !s.alm.latch.getLsbD i
/-- R400: the highest class of sources that decide in one cycle. -/
def State.topClass (s : State) (l : List Nat) : Nat := l.foldl (fun a i => max a (s.almClass i)) 0
/-- R400: the decisions of one cycle beside the one that acts: not recorded, but counted. -/
def State.almOthers (s : State) (n : Nat) : State :=
  if n = 0 then s else iter (fun s => s.inc32 .almOvfcnt) n (s.wr .almRec 0 0 (s.rd .almRec ||| 0x40000000))
/-- R399, R400: the sources `l` decide in one alarm-clock cycle: the higher class acts, and ALM_REC takes the lower-numbered
source of that class. -/
def State.decide (s : State) (l : List Nat) : State :=
  if l.isEmpty then s
  else
    let cls := s.topClass l
    let src := (l.find? fun i => s.almClass i == cls).getD 0
    let s := s.modAlm fun a => { a with latch := l.foldl (fun b i => putBit b i true) a.latch }
    let s := ((s.almRecord src cls).almOthers (l.length - 1)).respond cls
    if l.contains 10 then s.debugResponse else s
/-- ALARM_DECISION (R399): every active source whose latch is 0 acts, all in one cycle. The command is the occurrence of
source `src`, if it is one of 0 to 5, and of the sources 0 to 5 in `also`; the others are made active elsewhere. -/
def alarmDecision (src : Nat) (also : BitVec 6) (s : State) : State :=
  let s := (List.range 6).foldl (fun s i => if i == src || also.getLsbD i then s.alarmInput i else s) s
  s.decide s.deciding
/-- ALARM_DECISION (R399). -/
def execAlarmDecision (src : Nat) (s : State) (also : BitVec 6 := 0) : Out := .next (alarmDecision src also s)
/-- ALARM_SOURCE_INACTIVE (R399): the filtered pins follow their own filter. -/
def alarmSourceInactive (src : Nat) (s : State) : State :=
  if 6 ≤ src && src ≤ 9 then s else if src < 16 then s.modAlm fun a => { a with level := putBit a.level src false } else s
/-- ALARM_SOURCE_INACTIVE (R399). -/
def execAlarmSourceInactive (src : Nat) (s : State) : Out := .next (alarmSourceInactive src s)

/-! ### The tamper filter (R398) -/

/-- R398: a sample of a pin; `lvl` is the filtered active level. -/
def Pin.tamper (p : Pin) (low : Bool) : Pin :=
  let w := (low :: p.smp).take 4
  let n := (w.filter id).length
  { p with smp := w, lvl := if 3 ≤ n then true else if n ≤ 1 then false else p.lvl,
           split := if n = 2 then satInc 8 p.split else 0 }
/-- TAMPER_SAMPLE (R398). -/
def tamperSample (k : Nat) (low : Bool) (s : State) : State :=
  let p := (Tab.get (fun _ => ({} : Pin)) s.tamper k).tamper low
  let chat := 16 ≤ p.split
  { s with tamper := Tab.set (fun _ => ({} : Pin)) s.tamper k p }.modAlm fun a =>
    { a with level := putBit a.level (6 + k) (p.lvl || chat),
             chat := if chat then putBit a.chat (6 + k) true else a.chat }
/-- TAMPER_SAMPLE (R398). -/
def execTamperSample (k : Nat) (low : Bool) (s : State) : Out :=
  .next (if k < 4 then tamperSample k low s else s)

/-! ### The lock burn (R404) -/

/-- LOCKS_BURN (R404, R413): after the zeroization the monitor burns the next LOCKS bit; an operation in progress is
abandoned. -/
def locksBurn (s : State) : State :=
  if s.alm.burnDue && !s.alm.zbusy && !s.alm.burn then
    let s := sbkAbandon s
    let s := match s.admWait with | .sbk _ => s.admFinish 0x0101 0x03 | _ => s
    s.modAlm fun a => { a with burn := true, burnDue := false }
  else s
/-- LOCKS_BURN (R404). -/
def execLocksBurn (s : State) : Out := .next (locksBurn s)
/-- LOCKS_BURN_COMPLETE (R404, R413): the lowest 0 bit after `bad` bits that three attempts left at 0. Where no bit is left, none
reads 1 and the burn goes on. -/
def locksBurnComplete (bad : Nat) (s : State) : State :=
  if s.alm.burn then
    match burnBit 32 (groupDw s.sbk.otp 1 13).toNat bad with
    | some i => (s.modSbk fun b => { b with otp := otpBurn b.otp 1 13 i }).modAlm fun a => { a with burn := false, lockedA3 := false }
    | none => s
  else s
/-- LOCKS_BURN_COMPLETE (R404). -/
def execLocksBurnComplete (s : State) (bad : Nat := 0) : Out := .next (locksBurnComplete bad s)
/-- R404: ALM_STAT.LOCKED. -/
def State.locked (s : State) : Bool := s.alm.lockedA3 || otpLocked s.sbk.otp

/-! ### Register writes (R399, R405, R406, R414) -/

/-- R399: a write of ALM_LATCH: a source that is still active keeps its latch; a latch that clears clears its CHAT bit. -/
def latchWrite (v : BitVec 32) (s : State) : State :=
  s.modAlm fun a =>
    let m := v.setWidth 16 &&& ~~~a.level
    { a with latch := a.latch &&& ~~~m, chat := a.chat &&& ~~~(m &&& a.latch) }
/-- LATCH_CLEAR (R399). -/
def execLatchClear (w : Who) (v : BitVec 32) (s : State) : Out := .next (s.writeReg w .almLatch 0 0 (latchWrite v))

/-- R405: a clear is refused. -/
def State.clearRefused (s : State) : Bool :=
  (!s.alm.inforce && !s.frozen) ||
    (List.range 16).any fun i => s.alm.level.getLsbD i && 2 ≤ s.almClass i
/-- R405: an alarm is cleared. -/
def State.alarmClear (s : State) : State :=
  s.modAlm fun a =>
    { a with out := false, inforce := false, cls := if s.frozen then 1 else 0, freezePend := false, liftPend := true,
             latch := a.latch &&& a.level, chat := a.chat &&& a.level }
/-- R401, R407: a freeze is lifted at the next tick; one still pending is dropped. -/
def State.lift (s : State) : State :=
  s.modAlm fun a => { a with liftPend := true, freezePend := false, cls := if a.cls = 1 && !s.frozen then 0 else a.cls }
/-- R406: the window opens or closes. -/
def State.setWindow (s : State) (b : Bool) : State :=
  s.modAlm fun a => { a with oldPol := if b && !a.window then s.rd .almPolicy else a.oldPol, window := b }
/-- R410: source 10 becomes active. -/
def State.requestDebug (s : State) : State := s.alarmInput 10
/-- R414: a write of ALM_CTL. -/
def almCtlWrite (w : Who) (v : BitVec 32) (s : State) : State :=
  if v.getLsbD 2 && s.clearRefused then s.reject w 0 (RegAt.key ⟨.almCtl, 0, 0⟩)
  else
    let s := if v.getLsbD 2 then s.alarmClear else s
    let s := if v.getLsbD 1 then s.lift else s
    let s := if v.getLsbD 3 then s.requestDebug else s
    s.setWindow (v.getLsbD 0)
/-- DBGREQ (R410): a write of ALM_CTL with DBGREQ set. -/
def execDbgreq (w : Who) (v : BitVec 32) (s : State) : Out :=
  .next (if v.getLsbD 3 then s.writeReg w .almCtl 0 0 (almCtlWrite w v) else s)
/-- ALM_CTL_CLEAR (R405): a write of ALM_CTL with CLEAR set. -/
def execAlmCtlClear (w : Who) (v : BitVec 32) (s : State) : Out :=
  .next (if v.getLsbD 2 then s.writeReg w .almCtl 0 0 (almCtlWrite w v) else s)
/-- LIFT (R401): a write of ALM_CTL with LIFT set. -/
def execLift (w : Who) (v : BitVec 32) (s : State) : Out :=
  .next (if v.getLsbD 1 then s.writeReg w .almCtl 0 0 (almCtlWrite w v) else s)
/-- WINDOW (R406): a write of ALM_CTL that opens or closes the window. -/
def execWindow (w : Who) (v : BitVec 32) (s : State) : Out := .next (s.writeReg w .almCtl 0 0 (almCtlWrite w v))

/-- R414: ALM_STAT. -/
def State.almStat (s : State) : BitVec 32 :=
  let a := s.alm
  BitVec.ofNat 32 (b2n a.inforce * 2 ^ 31 + a.cls % 4 * 2 ^ 28 + b2n a.window * 2 ^ 27 + b2n a.zbusy * 2 ^ 26
    + b2n (a.burn || a.burnDue) * 2 ^ 25 + b2n s.locked * 2 ^ 24 + b2n a.dbg * 2 ^ 23
    + b2n (a.freezePend || s.frozen) * 2 ^ 22)
/-- A read of the ALM block. -/
def State.almRead (s : State) (n : RegName) : BitVec 32 :=
  match n with
  | .almStat => s.almStat
  | .almRaw => s.alm.level.setWidth 32 ||| (s.alm.chat.setWidth 32 <<< 16)
  | .almLatch => s.alm.latch.setWidth 32
  | .almCtl => BitVec.ofNat 32 (b2n s.alm.window)
  | .almDbgnonce => s.alm.nonce
  | .almLockcnt => BitVec.ofNat 32 (otpProv s.sbk.otp * 2 ^ 8 + otpLocks s.sbk.otp)
  | _ => s.rd n
/-- A write of the ALM block. -/
def State.almWrite (s : State) (w : Who) (n : RegName) (v : BitVec 32) : State :=
  match n with
  | .almLatch => latchWrite v s
  | .almPolicy => if s.alm.window then s.wr .almPolicy 0 0 (v &&& 0x00FFFFFF) else s.reject w 0 (RegAt.key ⟨.almPolicy, 0, 0⟩)
  | .almCtl => almCtlWrite w v s
  | .almRec | .almOvfcnt => s.plainWrite ⟨n, 0, 0⟩ v
  | _ => s

end Sys2Proof.Machine
end

