-- ==== Sys2Proof/Machine/Shed.lean ====
section
/-!
DEFINITION. The Shed (chapter 14): mailboxes, the event log and its copy in flash, sensors, monitors, the BMC and console
interfaces. Admin commands and firmware bundles are in later files.
-/
namespace Sys2Proof.Machine

/-- The Shed serves its interfaces (R369). -/
def State.shedUp (s : State) : Bool := s.shd.run && !s.shd.locked

/-! ### Mailboxes (R370, R371) -/

/-- The queue behind the outbound buffer of mailbox `k`: 0 the host's, 1 + n the warden's of cell n. -/
def Shd.outq (d : Shd) (k : Nat) : List (List (BitVec 32)) :=
  match k with | 0 => d.outq0 | 1 => d.outq1 | 2 => d.outq2 | _ => d.outq3
def Shd.setOutq (d : Shd) (k : Nat) (q : List (List (BitVec 32))) : Shd :=
  match k with | 0 => { d with outq0 := q } | 1 => { d with outq1 := q } | 2 => { d with outq2 := q } | _ => { d with outq3 := q }
/-- Mailboxes of the build. -/
def State.mailboxes (s : State) : Nat := s.build.cells + 1

/-- R370: the header of a message. -/
def msgHead (status len seq type : Nat) : BitVec 32 :=
  BitVec.ofNat 32 (status * 2 ^ 24 + len * 2 ^ 16 + seq % 256 * 2 ^ 8 + type)
/-- A message of sixteen dwords. -/
def mkMsg (status len seq type : Nat) (body : List (BitVec 32)) : List (BitVec 32) :=
  (msgHead status len seq type :: body ++ List.replicate 15 0).take 16

/-- R371: a notice: dropped and counted where the queue is full. -/
def State.sendNotice (s : State) (k : Nat) (m : List (BitVec 32)) : State :=
  if (s.shd.outq k).length < 64 then s.modShd fun d => d.setOutq k (d.outq k ++ [m])
  else s.incf .shdMstat k 0 15 8
/-- R371: a request or reply; beyond 64 messages it waits behind the queue. -/
def State.sendMsg (s : State) (k : Nat) (m : List (BitVec 32)) : State := s.modShd fun d => d.setOutq k (d.outq k ++ [m])

/-- INBUSY. -/
def State.inBusy (s : State) (k : Nat) : Bool := (s.rd .shdMstat k).getLsbD 31
/-- OUTVALID. -/
def State.outValid (s : State) (k : Nat) : Bool := (s.rd .shdMstat k).getLsbD 30
/-- SHD_MSTAT as it reads. -/
def State.mstat (s : State) (k : Nat) : BitVec 32 := putFld (s.rd .shdMstat k) 22 16 (min 64 (s.shd.outq k).length)
/-- Dword `i` of the inbound message. -/
def State.inDw (s : State) (k i : Nat) : BitVec 32 := s.rd .shdIn k i
/-- TYPE of the inbound message that the Shed has yet to read, if any. -/
def State.inType (s : State) (k : Nat) : Option Nat :=
  if s.shedUp && s.inBusy k then some (fld (s.inDw k 0) 7 0) else none
/-- The Shed has read the inbound message. -/
def State.inDone (s : State) (k : Nat) : State := s.wrf .shdMstat k 0 31 31 0

/-- R371: a write of INDB. -/
def indbWrite (w : Who) (k : Nat) (v : BitVec 32) (s : State) : State :=
  if !v.getLsbD 0 then s
  else if s.inBusy k then s.reject w 0 (RegAt.key ⟨.shdIndb, k, 0⟩)
  else s.wrf .shdMstat k 0 31 31 1
/-- MAILBOX_SEND (R371). -/
def execMailboxSend (w : Who) (k : Nat) (v : BitVec 32) (s : State) : Out :=
  .next (s.writeReg w .shdIndb k 0 (indbWrite w k v))
/-- R371: a write of OUTACK. -/
def outackWrite (k : Nat) (v : BitVec 32) (s : State) : State :=
  if v.getLsbD 0 then s.wrf .shdMstat k 0 30 30 0 else s
/-- MAILBOX_ACK (R371). -/
def execMailboxAck (w : Who) (k : Nat) (v : BitVec 32) (s : State) : Out :=
  .next (s.writeReg w .shdOutack k 0 (outackWrite k v))

/-- R316: vectors of function `f`: 17 of the PF, 16 of a VF. -/
def msixVectors (f : Nat) : Nat := if f = 0 then 17 else 16
/-- What a dword of an MSI-X table holds at reset: bit 0 of the last dword of an entry, the mask, is set (PRESUMED, the PCI
Express layout; log 46). -/
def msixReset (k : Nat) : BitVec 32 := if k % 16 == 12 then 1 else 0
def State.msixWord (s : State) (f off : Nat) : BitVec 32 := Tab.get msixReset s.msixTab (f * 2 ^ 12 + off)
def State.msixMasked (s : State) (f v : Nat) : Bool := (s.msixWord f (16 * v + 12)).getLsbD 0
def State.msixPending (s : State) (f v : Nat) : Bool := Tab.get (fun _ => false) s.pba (f * 32 + v)
def State.setPending (s : State) (f v : Nat) (b : Bool) : State := { s with pba := Tab.set (fun _ => false) s.pba (f * 32 + v) b }
/-- R322, R438: a message-signalled interrupt of function `f`, while the link is up; one whose vector is masked stays
pending (R316). -/
def State.sendMsix (s : State) (f v : Nat) : State :=
  if s.msixMasked f v then s.setPending f v true
  else if s.pwr.link && !s.pwr.perst && Tab.get (fun _ => true) s.pwr.bme f then { s with msix := (f, v) :: s.msix } else s
/-- R316: a read of the MSI-X region of a function at a byte offset of its table, with its PBA at `pba`. -/
def State.msixRead (s : State) (f pba off : Nat) : BitVec 32 :=
  if off < 16 * msixVectors f then s.msixWord f off
  else if pba ≤ off && off < pba + 4 then
    BitVec.ofNat 32 ((List.range (msixVectors f)).foldl (fun a v => a + b2n (s.msixPending f v) * 2 ^ v) 0)
  else 0
/-- R316: a write of the MSI-X table; a pending vector whose mask is cleared is sent. -/
def State.msixWrite (s : State) (f off : Nat) (v : BitVec 32) : State :=
  if 16 * msixVectors f ≤ off then s
  else
    let v := if off % 16 == 12 then v &&& 1 else if off % 16 == 0 then v &&& 0xFFFFFFFC else v
    let s := { s with msixTab := Tab.set msixReset s.msixTab (f * 2 ^ 12 + off) v }
    if off % 16 == 12 && v == 0 && s.msixPending f (off / 16) then (s.setPending f (off / 16) false).sendMsix f (off / 16) else s

/-- Registers `name` of a unit from index `i` upward. -/
def wrList (s : State) (n : RegName) (unit i : Nat) : List (BitVec 32) → State
  | [] => s
  | v :: t => wrList (s.wr n unit i v) n unit (i + 1) t

/-- R372: a request that a warden answers with an ACK. -/
def wardenAsked (m : List (BitVec 32)) : Bool := 0x90 ≤ fld (m.headD 0) 7 0 && fld (m.headD 0) 7 0 ≤ 0x94
/-- MAILBOX_OUT_PLACE (R371): the oldest queued message is placed and its reader signalled. -/
def mailboxPlace (k : Nat) (s : State) : State :=
  if !s.shedUp || s.outValid k then s
  else match s.shd.outq k with
    | [] => s
    | m :: t =>
      let s := wrList (s.modShd fun d => d.setOutq k t) .shdOut k 0 m
      let s := s.wrf .shdMstat k 0 30 30 1
      if k = 0 then s.sendMsix 0 16
      else if wardenAsked m then s.modCell (k - 1) fun c => { c with askFrm := some s.frame }
      else s
/-- MAILBOX_OUT_PLACE (R371). -/
def execMailboxOutPlace (k : Nat) (s : State) : Out :=
  .next (if k < s.mailboxes then mailboxPlace k s else s)

/-! ### The event log (R375 to R377) -/

/-- R375: a record. -/
def eventRec (seq frame code sev inst : Nat) (arg : BitVec 32) : BitVec 128 :=
  BitVec.ofNat 128 (arg.toNat * 2 ^ 96 + inst % 256 * 2 ^ 88 + sev * 2 ^ 80 + code % 256 * 2 ^ 72 + frame % 2 ^ 48 * 2 ^ 24
    + seq % 2 ^ 24)
/-- The dwords of a record, low first. -/
def recDws (r : BitVec 128) : List (BitVec 32) := (List.range 4).map fun i => (r >>> (32 * i)).setWidth 32
/-- R376, R424: the severity of a code. -/
def codeSev (code : Nat) (arg : BitVec 32) : Nat :=
  if code == 0x01 then 0
  else if code == 0x10 || (0x90 ≤ code && code ≤ 0x93) then 1
  else if code == 0x04 || code == 0x12 || code == 0x15 || code == 0x22 || code == 0x23 || code == 0x41 || code == 0x60
    || code == 0x80 then 2
  else if code == 0x40 then (if fld arg 23 20 == 1 || fld arg 23 20 == 4 then 2 else 3)
  else if code == 0x02 || code == 0x14 || code == 0x70 then 4
  else 3
/-- R375: the SEQ after `v`. -/
def nextSeq24 (v : Nat) : Nat := if v % 2 ^ 24 == 0xFFFFFF then 1 else v % 2 ^ 24 + 1
/-- R377: codes whose INST names a cell. -/
def cellCode (code : Nat) : Bool := code == 0x10 || code == 0x30 || code == 0x41

/-- R377: EVENT_NOTEs of a record: to the host at its note level, to the warden of a cell it names, and for code 0x14 to
the wardens of the other cells. -/
def State.noteEvent (s : State) (r : BitVec 128) (code sev inst : Nat) : State :=
  let body := recDws r
  let s := if s.shd.note ≤ sev then
      (s.sendNotice 0 (mkMsg 0 4 0 0x82 body)).modShd fun d => { d with ibi := true } else s
  if sev < 3 then s
  else if code == 0x14 then
    s.cellIds.foldl (fun s n => if n != inst && (s.cell n).st != 4 then s.sendNotice (n + 1) (mkMsg 0 4 0 0x95 body) else s) s
  else if cellCode code && inst < s.build.cells then s.sendNotice (inst + 1) (mkMsg 0 4 0 0x95 body)
  else s

/-- R375, R377, R388: the Shed makes a record. -/
def State.logEvent (s : State) (code sev inst : Nat) (arg : BitVec 32) : State :=
  let q := nextSeq24 s.shd.logSeq
  let r := eventRec q s.frame code sev inst arg
  let old := if 8192 < q then q - 8192 else q + (2 ^ 24 - 1) - 8192
  let s := s.modShd fun d =>
    { d with logSeq := q, log := Tab.set (fun _ => 0) (Tab.set (fun _ => 0) d.log old 0) q r,
             toFlash := if d.noPers then d.toFlash else d.toFlash ++ [q], uartOut := r :: d.uartOut }
  s.noteEvent r code sev inst
/-- A record with the severity of its code. -/
def State.logCode (s : State) (code inst : Nat) (arg : BitVec 32) : State := s.logEvent code (codeSev code arg) inst arg

/-- R377: the record of a SEQ, 0 where it is not held. -/
def State.logRec (s : State) (q : Nat) : BitVec 128 := Tab.get (fun _ => 0) s.shd.log q
/-- R377: `n` records from SEQ `q`, across the wrap. -/
def logRecs (s : State) : Nat → Nat → List (BitVec 8)
  | _, 0 => []
  | q, n + 1 => bytesLE 16 (s.logRec q).toNat ++ logRecs s (nextSeq24 q) n

/-! ### Flash (R378, R379) -/

/-- An erased byte reads 0xFF. -/
def State.flashByte (s : State) (a : Nat) : BitVec 8 := Tab.get (fun _ => 0xFF) s.shd.flash a
/-- Bytes from an offset. -/
def State.flashBytes (s : State) (a n : Nat) : List (BitVec 8) := (List.range n).map fun i => s.flashByte (a + i)
/-- Program bytes from an offset upward. -/
def Shd.program (d : Shd) (a : Nat) : List (BitVec 8) → Shd
  | [] => d
  | b :: t => Shd.program { d with flash := Tab.set (fun _ => 0xFF) d.flash a b } (a + 1) t
/-- R378: erase the 64 KiB block at a block number. -/
def Shd.eraseBlock (d : Shd) (b : Nat) : Shd := { d with flash := Tab.drop (fun k => k / 65536 == b) d.flash }

/-- R379: CRC-32C of bytes. -/
def crc32c (l : List (BitVec 8)) : Nat :=
  let step := fun (c : Nat) => if c % 2 == 1 then Nat.xor (c / 2) 0x82F63B78 else c / 2
  Nat.xor (l.foldl (fun c b => iter step 8 (Nat.xor c b.toNat)) 0xFFFFFFFF) 0xFFFFFFFF

/-- R378: the log area begins at this erase block. -/
def logBlk0 : Nat := 0x2000000 / 65536
/-- R379: good blocks. -/
def Shd.goodBlocks (d : Shd) : Nat := ((List.range 64).filter fun i => !d.badBlk.getLsbD i).length
/-- R379: the next good block of the ring. -/
def Shd.nextBlk (d : Shd) : Nat :=
  ((List.range 64).find? fun i => !d.badBlk.getLsbD ((d.blk + 1 + i) % 64)).elim d.blk fun i => (d.blk + 1 + i) % 64
/-- R379: block `b` is erased and begun with its header, for a first record `q`. -/
def Shd.beginBlk (d : Shd) (b q : Nat) : Shd :=
  let n := Tab.get (fun _ => 0) d.erases b + 1
  let d := (d.eraseBlock (logBlk0 + b)).program ((logBlk0 + b) * 65536)
    (bytesLE 4 0x474C4556 ++ bytesLE 4 n ++ bytesLE 4 q ++ bytesLE 8 d.badBlk.toNat)
  { d with blk := b, ent := 1, erases := Tab.set (fun _ => 0) d.erases b n }
/-- R379: one record goes to the next entry. -/
def Shd.programRec (d : Shd) (q : Nat) (r : BitVec 128) : Shd :=
  let d := if d.ent = 0 then d.beginBlk d.blk q else if 2048 ≤ d.ent then d.beginBlk d.nextBlk q else d
  let b := bytesLE 16 r.toNat
  let d := d.program ((logBlk0 + d.blk) * 65536 + d.ent * 32) (b ++ bytesLE 4 (crc32c b))
  { d with ent := d.ent + 1 }
/-- R379: a failed erase or program marks the block bad; the next block takes the record. -/
def Shd.failBlk (d : Shd) : Shd :=
  let d := { d with badBlk := d.badBlk ||| BitVec.ofNat 64 (2 ^ (d.blk % 64)) }
  { d with blk := d.nextBlk, ent := 0 }

/-- LOG_FLASH_PROGRAM (R379): the waiting records are programmed; `ok` false is a flash failure at the first of them. -/
def logFlashProgram (ok : Bool) (s : State) : State :=
  if !s.shedUp || s.shd.noPers || s.shd.toFlash.isEmpty then s
  else
    let s := if ok then s else s.modShd Shd.failBlk
    if s.shd.goodBlocks < 8 then
      (s.modShd fun d => { d with noPers := true, toFlash := [] }).logCode 0x04 0 (BitVec.ofNat 32 s.shd.goodBlocks)
    else s.modShd fun d => { d.toFlash.foldl (fun d q => d.programRec q (s.logRec q)) d with toFlash := [] }
/-- LOG_FLASH_PROGRAM (R379). -/
def execLogFlashProgram (ok : Bool) (s : State) : Out := .next (logFlashProgram ok s)

/-- R379: the entry of block `b`, its record where the CRC checks. -/
def State.flashRec (s : State) (b e : Nat) : Option (BitVec 128) :=
  let a := (logBlk0 + b) * 65536 + e * 32
  let l := s.flashBytes a 16
  if natLE (s.flashBytes (a + 16) 4) == crc32c l && l.any (· != 0xFF) then some (BitVec.ofNat 128 (natLE l)) else none
/-- R379: the entries programmed in the log area: block and entry. -/
def State.flashEntries (s : State) : List (Nat × Nat) :=
  ((s.shd.flash.map fun x => x.1 / 32).eraseDups.filter fun k =>
    logBlk0 ≤ k / 2048 && k / 2048 < logBlk0 + 64 && k % 2048 != 0).map fun k => (k / 2048 - logBlk0, k % 2048)
/-- R379: the log as it is reloaded at a cold boot. -/
def State.restoreLog (s : State) : State :=
  let es : List ((Nat × Nat) × Nat × BitVec 128) := s.flashEntries.filterMap fun e => (s.flashRec e.1 e.2).map fun r => (e, fld r 23 0, r)
  let top := es.foldl (fun a x => max a x.2.1) 0
  let at_ : Option ((Nat × Nat) × Nat × BitVec 128) := es.find? fun x => x.2.1 == top
  let hdrs := (s.shd.flash.map fun x => x.1 / 65536).eraseDups.filter fun k => logBlk0 ≤ k && k < logBlk0 + 64
  s.modShd fun d =>
    let d := { d with logSeq := top, blk := ((at_.map fun (x : (Nat × Nat) × Nat × BitVec 128) => x.1.1).getD 0), ent := ((at_.map fun (x : (Nat × Nat) × Nat × BitVec 128) => x.1.2 + 1).getD 0),
                      erases := hdrs.foldl (fun t b => Tab.set (fun _ => 0) t (b - logBlk0) (natLE (s.flashBytes (b * 65536 + 4) 4))) [] }
    let d := { d with badBlk := if at_.isSome then BitVec.ofNat 64 (natLE (s.flashBytes ((logBlk0 + d.blk) * 65536 + 12) 8)) else 0 }
    (es.filter fun x => top < x.2.1 + 8192).foldl (fun d x => { d with log := Tab.set (fun _ => 0) d.log x.2.1 x.2.2 }) d

/-! ### Sensors (R374) -/

/-- R374: the build has thermal sensor `i`. -/
def hasTemp (b : Build) (i : Nat) : Bool :=
  if i < 12 then i < b.clusters else if i < 15 then i - 12 < b.cells else i < 24
/-- R374: the build has voltage monitor `i`. -/
def hasVmon (b : Build) (i : Nat) : Bool := if i < 3 then i < b.cells else i < 16
/-- R374, R434: the nominal voltage of monitor `i` in mV. -/
def vNominal (i : Nat) : Nat :=
  if i < 4 || i == 14 then 750 else if i < 6 || i == 10 || i == 15 then 850 else if i < 10 then 1100
  else if i == 11 then 1200 else 1800

/-- R374: a reading warns, and a reading has returned by the hysteresis. -/
def tempWarn (v : Int) : Bool := (if Config.gradeX then 800 else 760) ≤ v
def tempBack (v : Int) : Bool := v ≤ (if Config.gradeX then 784 else 744)
def voltWarn (i v : Nat) : Bool := 3 * vNominal i < 100 * ((v : Int) - vNominal i).natAbs
def voltBack (i v : Nat) : Bool := 100 * ((v : Int) - vNominal i).natAbs ≤ 2 * vNominal i
def clkWarn (lost : Bool) (v : Int) : Bool := lost || 200 < v.natAbs
def clkBack (lost : Bool) (v : Int) : Bool := !lost && v.natAbs ≤ 150

/-- R374: one sensor's result: its register, and code 0x80 where it crosses. -/
def State.sensor (s : State) (n : RegName) (i inst : Nat) (v : BitVec 32) (warn back : Bool) : State :=
  let s := s.wr n 0 i v
  if warn && !s.shd.warned.contains inst then
    (s.modShd fun d => { d with warned := inst :: d.warned }).logCode 0x80 inst v
  else if back then s.modShd fun d => { d with warned := d.warned.filter (· != inst) }
  else s

/-- SENSOR_CONVERSION (R374): the values of the thermal sensors, voltage monitors and clock monitors in order; bit 30 of a
clock's value is LOST. -/
def sensorConversion (temps volts clks : List (BitVec 32)) (s : State) : State :=
  if !s.shedUp then s
  else
    let val := fun (v : BitVec 32) => 0x80000000 ||| (v &&& 0xFFFF)
    let s := (List.range 24).foldl (fun s i =>
      if hasTemp s.build i then
        let x := sext 16 (dwAt temps i).toNat
        s.sensor .shdTemp i i (val (dwAt temps i)) (tempWarn x) (tempBack x)
      else s) s
    let s := (List.range 16).foldl (fun s i =>
      if hasVmon s.build i then
        let x := fld (dwAt volts i) 15 0
        s.sensor .shdVmon i (32 + i) (val (dwAt volts i)) (voltWarn i x) (voltBack i x)
      else s) s
    (List.range 4).foldl (fun s i =>
      let v := dwAt clks i
      let x := sext 16 v.toNat
      let l := v.getLsbD 30
      s.sensor .shdClkmon i (64 + i) (val v ||| (v &&& 0x40000000)) (clkWarn l x) (clkBack l x)) s
/-- SENSOR_CONVERSION (R374). -/
def execSensorConversion (temps volts clks : List (BitVec 32)) (s : State) : Out := .next (sensorConversion temps volts clks s)

/-! ### Monitors (R380 to R384) -/

/-- R380: the bin of a sample. -/
def monBin (shift : Nat) (v : BitVec 32) : Nat :=
  let w := v.toNat / 2 ^ shift
  if w = 0 then 0 else min 15 (Nat.log2 w + 1)
/-- R381: the instances of a source. -/
def monInstances (b : Build) (src : Nat) : Nat :=
  match src with
  | 1 => b.parts | 2 => b.cores | 3 => b.clusters | 4 => b.channels | 5 => b.clusters | 6 => 24 | 7 => 16 | 8 => 4 | _ => 0
/-- R381: monitor `m` receives samples. -/
def State.monLive (s : State) (m : Nat) : Bool :=
  let c := s.rd .monCfg 0 m
  let src := fld c 27 24
  let i := fld c 21 16
  i < monInstances s.build src && (src != 6 || hasTemp s.build i) && (src != 7 || hasVmon s.build i)
/-- R380: one sample. -/
def Mon.sample (k : Mon) (shift : Nat) (v : BitVec 32) : Mon :=
  { k with min := if v.toNat < k.min.toNat then v else k.min, max := if k.max.toNat < v.toNat then v else k.max,
           bins := Tab.mod (fun _ => 0) k.bins (monBin shift v) (satInc 48) }
/-- MONITOR_SAMPLE (R380). -/
def monitorSample (m : Nat) (v : BitVec 32) (s : State) : State :=
  if s.monLive m then s.setStaging m ((s.staging m).sample (fld (s.rd .monCfg 0 m) 12 8) v) else s
/-- R380, R381: a sample of source `src`, instance `i`, that the state itself gives: every monitor configured for it takes
it. -/
def State.monFeed (s : State) (src i : Nat) (v : BitVec 32) : State :=
  ((List.range 48).filter fun m => fld (s.rd .monCfg 0 m) 27 24 == src && fld (s.rd .monCfg 0 m) 21 16 == i).foldl
    (fun s m => monitorSample m v s) s
/-- R381: the sources whose samples are times in core cycles, which the state does not hold: frame occupancy, DDR read latency
and walk latency. -/
def timedSource (src : Nat) : Bool := src == 2 || src == 4 || src == 5
/-- MONITOR_SAMPLE (R380, R381): a sample of a timed source; the state itself gives those of the others. -/
def execMonitorSample (m : Nat) (v : BitVec 32) (s : State) : Out :=
  .next (if m < 48 && timedSource (fld (s.rd .monCfg 0 m) 27 24) then monitorSample m v s else s)
/-- R381: what a sensor gives a monitor once per frame: a temperature from -128 degrees on, millivolts, the absolute deviation of
a clock. -/
def State.sensorSample (s : State) (src i : Nat) : BitVec 32 :=
  match src with
  | 6 => BitVec.ofInt 32 (sext 16 (s.rdf .shdTemp 0 i 15 0) + 0x400)
  | 7 => BitVec.ofNat 32 (s.rdf .shdVmon 0 i 15 0)
  | _ => BitVec.ofNat 32 (sext 16 (s.rdf .shdClkmon 0 i 15 0)).natAbs
/-- R381: the sample of the frame for monitor `m`, where a sensor is its source. -/
def State.sampleSensor (s : State) (m : Nat) : State :=
  let c := s.rd .monCfg 0 m
  if 6 ≤ fld c 27 24 then monitorSample m (s.sensorSample (fld c 27 24) (fld c 21 16)) s else s

/-- R382: a cleared monitor. -/
def monCleared (frame : Nat) : Mon := { clrFrm := frame }
/-- R380, R382: the merge of monitor `m`; a threshold crossing is counted and its flag set. -/
def State.mergeMon (s : State) (m : Nat) : State :=
  let k := s.monitor m
  let g := s.staging m
  let thr := s.rd .monThr 0 m
  let cross := thr != 0 && thr.toNat ≤ g.max.toNat
  let k' : Mon :=
    { k with min := if g.min.toNat < k.min.toNat then g.min else k.min, max := if k.max.toNat < g.max.toNat then g.max else k.max,
             xing := if cross then BitVec.ofNat 32 (satInc 32 k.xing.toNat) else k.xing,
             bins := g.bins.foldl (fun t e => Tab.set (fun _ => 0) t e.1
               (Nat.min (2 ^ 48 - 1) (Tab.get (fun _ => 0) t e.1 + e.2))) k.bins }
  let s := (s.setMonitor m k').setStaging m {}
  if cross then
    (if m < 32 then s.wr .monThf0 0 0 (s.rd .monThf0 ||| BitVec.ofNat 32 (2 ^ m))
     else s.wr .monThf1 0 0 (s.rd .monThf1 ||| BitVec.ofNat 32 (2 ^ (m - 32))))
  else s
/-- R380 to R382: the clears and merges of a tick, and the sensors' samples of the frame that it opens. -/
def State.monTick (s : State) : State :=
  let s := s.monClr.foldl (fun s m => s.setMonitor m (monCleared s.frame)) s
  (List.range 48).foldl (fun s m => (s.mergeMon m).sampleSensor m) { s with monClr := [] }

/-- R383: the bank of a requester. -/
def snapBank : Who → Option Nat
  | .host => some 0
  | .shed => some 1
  | .core _ => none
def State.snapOf (s : State) (b : Nat) : Option Mon := Tab.get (fun _ => none) s.snap b
def State.takeSnap (s : State) (b m : Nat) : State := { s with snap := Tab.set (fun _ => none) s.snap b (some (s.monitor m)) }
/-- R383: a write of MON_SNAP. -/
def monSnapWrite (w : Who) (v : BitVec 32) (s : State) : State :=
  let s := s.wr .monSnap 0 0 (v &&& 0x3F)
  match snapBank w with
  | some b => if v.getLsbD 31 && fld v 5 0 < 48 then s.takeSnap b (fld v 5 0) else s
  | none => s
/-- MON_SNAPSHOT (R383). -/
def execMonSnapshot (w : Who) (v : BitVec 32) (s : State) : Out := .next (s.writeReg w .monSnap 0 0 (monSnapWrite w v))
/-- R382: a write of MON_CLR0 or MON_CLR1. -/
def monClrWrite (hi : Bool) (v : BitVec 32) (s : State) : State :=
  let ms := (List.range (if hi then 16 else 32)).filter fun i => v.getLsbD i
  { s with monClr := s.monClr ++ ms.map fun i => if hi then 32 + i else i }
/-- MON_CLR (R382). -/
def execMonClr (w : Who) (hi : Bool) (v : BitVec 32) (s : State) : Out :=
  .next (s.writeReg w (if hi then .monClr1 else .monClr0) 0 0 (monClrWrite hi v))
/-- R381, R382: a write of MON_CFGm; a reserved source has it rejected. -/
def monCfgWrite (w : Who) (m : Nat) (v : BitVec 32) (s : State) : State :=
  if 9 ≤ fld v 27 24 then s.reject w 0 (RegAt.key ⟨.monCfg, 0, m⟩)
  else
    let s := s.plainWrite ⟨.monCfg, 0, m⟩ v
    { s with monClr := s.monClr ++ [m] }
/-- MON_CFG_WRITE (R382). -/
def execMonCfgWrite (w : Who) (m : Nat) (v : BitVec 32) (s : State) : Out :=
  .next (s.writeReg w .monCfg 0 m (monCfgWrite w m v))

/-- R384: the 128 bytes of a monitor. -/
def State.monBytes (s : State) (m : Nat) (k : Mon) : List (BitVec 8) :=
  bytesLE 4 (s.rd .monCfg 0 m).toNat ++ bytesLE 4 k.min.toNat ++ bytesLE 4 k.max.toNat ++ bytesLE 4 k.xing.toNat
    ++ ((List.range 16).flatMap fun i => bytesLE 6 (Tab.get (fun _ => 0) k.bins i)) ++ bytesLE 6 k.clrFrm ++ zeros 10

/-- R396: a snapshot register as a bank gives it. -/
def monSnapReg (k : Mon) (n : RegName) (i : Nat) : BitVec 32 :=
  match n with
  | .monSmin => k.min
  | .monSmax => k.max
  | .monSxing => k.xing
  | .monSclrlo => BitVec.ofNat 32 k.clrFrm
  | .monSclrhi => BitVec.ofNat 32 (k.clrFrm / 2 ^ 32)
  | .monSbinlo => BitVec.ofNat 32 (Tab.get (fun _ => 0) k.bins i)
  | _ => BitVec.ofNat 32 (Tab.get (fun _ => 0) k.bins i / 2 ^ 32)
/-- A read of a register of the MON block. -/
def State.monRead (s : State) (w : Who) (n : RegName) (i : Nat) : BitVec 32 :=
  let snap := (snapBank w).bind s.snapOf
  match n with
  | .monSnap => (s.rd .monSnap) ||| (if snap.isSome then 0x40000000 else 0)
  | .monThf0 | .monThf1 | .monCfg | .monThr => s.rd n 0 i
  | .monClr0 | .monClr1 => 0
  | _ => match snap with | some k => monSnapReg k n i | none => 0
/-- A write of a register of the MON block. -/
def State.monWrite (s : State) (w : Who) (n : RegName) (i : Nat) (v : BitVec 32) : State :=
  match n with
  | .monSnap => monSnapWrite w v s
  | .monClr0 => monClrWrite false v s
  | .monClr1 => monClrWrite true v s
  | .monCfg => monCfgWrite w i v s
  | .monThf0 | .monThf1 | .monThr => s.plainWrite ⟨n, 0, i⟩ v
  | _ => s

/-! ### Messages that the Shed reads (R372) -/

/-- ECHO (R372). -/
def echoMsg (s : State) : State :=
  if s.inType 0 == some 0x01 then
    let m := (List.range 16).map fun i => if i = 0 then putFld (putFld (s.inDw 0 0) 31 24 0) 7 0 0x81 else s.inDw 0 i
    (s.inDone 0).sendMsg 0 m
  else s
/-- ECHO (R372). -/
def execEcho (s : State) : Out := .next (echoMsg s)
/-- NOTE_LEVEL (R372). -/
def noteLevelMsg (s : State) : State :=
  if s.inType 0 == some 0x02 then (s.inDone 0).modShd fun d => { d with note := fld (s.inDw 0 1) 3 0 } else s
/-- NOTE_LEVEL (R372). -/
def execNoteLevel (s : State) : Out := .next (noteLevelMsg s)
/-- LOG (R372): a warden's record; a code outside 0xA0 to 0xAF makes none. -/
def wardenLogMsg (n : Nat) (s : State) : State :=
  let k := n + 1
  if s.inType k == some 0x12 then
    let d := s.inDw k 1
    let a := s.inDw k 2
    let s := s.inDone k
    if fld d 7 0 / 16 == 0xA then s.logEvent (fld d 7 0) (fld d 11 8) (fld d 23 16) a else s
  else s
/-- WARDEN_LOG (R372). -/
def execWardenLog (n : Nat) (s : State) : Out := onCell s n (wardenLogMsg n s)
/-- THR_CLEAR (R372, R382). -/
def thrClearMsg (n : Nat) (s : State) : State :=
  let k := n + 1
  if s.inType k == some 0x13 then
    let a := s.inDw k 1
    let b := s.inDw k 2
    let s := s.inDone k
    (s.wr .monThf0 0 0 (s.rd .monThf0 &&& ~~~a)).wr .monThf1 0 0 (s.rd .monThf1 &&& ~~~b)
  else s
/-- THR_CLEAR (R372). -/
def execThrClear (n : Nat) (s : State) : Out := onCell s n (thrClearMsg n s)

/-! ### BMC and console (R386 to R388) -/

/-- A reply to the BMC. -/
def State.bmc (s : State) (l : List (BitVec 8)) : State := if s.shedUp then s.modShd fun d => { d with bmcOut := l } else s
/-- GET_SENSORS (R387). -/
def execGetSensors (s : State) : Out :=
  .next (s.bmc (dwBytes ((List.range 24).map (fun i => s.rd .shdTemp 0 i) ++ (List.range 16).map (fun i => s.rd .shdVmon 0 i)
    ++ (List.range 4).map (fun i => s.rd .shdClkmon 0 i))))
/-- GET_LOG of the BMC (R377, R387): 1 to 32 records; another count is unsupported. -/
def bmcGetLog (first : BitVec 24) (count : Nat) (s : State) : State :=
  if 1 ≤ count && count ≤ 32 then
    (s.bmc (logRecs s first.toNat count)).modShd fun d => { d with ibi := if s.shedUp then false else d.ibi }
  else s.bmc [0x05]
/-- BMC_GET_LOG (R387). -/
def execBmcGetLog (first : BitVec 24) (count : Nat) (s : State) : Out := .next (bmcGetLog first count s)
/-- GET_MON (R383, R387): from the Shed's own bank. -/
def getMonMsg (m : Nat) (s : State) : State :=
  if !s.shedUp then s else if 48 ≤ m then s.bmc [0x05] else (s.takeSnap 1 m).bmc (s.monBytes m (s.monitor m))
/-- GET_MON (R387). -/
def execGetMon (m : Nat) (s : State) : Out := .next (getMonMsg m s)

/-- MCTP_CONTROL (R386): Set and Get Endpoint ID (1, 2), Get MCTP Version Support (4), Get Message Type Support (5), Get
Vendor Defined Message Support (6); any other is answered ERROR_UNSUPPORTED_CMD. -/
def mctpControl (op arg : BitVec 8) (s : State) : State :=
  if !s.shedUp then s
  else match op.toNat with
    | 1 => (s.modShd fun d => { d with eid := arg }).bmc [0, 0, arg, 0]
    | 2 => s.bmc [0, s.shd.eid, 0, 0]
    | 4 => s.bmc [0, 1, 0xF1, 0xF3, 0xF1, 0x00]
    | 5 => s.bmc [0, 1, 0x7E]
    | 6 => s.bmc [0, 0xFF, 0]
    | _ => s.bmc [0x05]
/-- MCTP_CONTROL (R386). -/
def execMctpControl (op arg : BitVec 8) (s : State) : Out := .next (mctpControl op arg s)
/-- UART_INPUT (R388). -/
def uartInput (b : BitVec 8) (s : State) : State :=
  if s.alm.dbg && s.shedUp then s.modShd fun d => { d with uartIn := d.uartIn ++ [b] } else s
/-- UART_INPUT (R388). -/
def execUartInput (b : BitVec 8) (s : State) : Out := .next (uartInput b s)

end Sys2Proof.Machine
end

