-- ==== Sys2Proof/Machine/Timers.lean ====
section
/-!
DEFINITION. The timer unit (chapter 13): counting, compare, capture, the filtered pins, and its registers.
-/
namespace Sys2Proof.Machine

/-- R13: the frame period in fc. -/
def periodOf (sel : Nat) : Nat := 512 * 2 ^ (sel % 4)
/-- R13: the period in force. -/
def State.period (s : State) : Nat := periodOf s.sel

/-! ### Fields -/

/-- R365: TMU_CTL as it reads. -/
def State.tmuCtl (s : State) (n : Nat) : BitVec 32 :=
  let v := s.rd .tmuCtl 0 n
  if n = 0 then putFld (putFld v 31 30 0) 15 0 (s.period - 1) else v
/-- A 64-bit value of a register pair. -/
def State.pair (s : State) (lo hi : RegName) (n : Nat) : B64 :=
  BitVec.ofNat 64 ((s.rd lo 0 n).toNat + (s.rd hi 0 n).toNat * 2 ^ 32)
/-- R354, R365: TOP. -/
def State.tmuTop (s : State) (n : Nat) : B64 := if n = 0 then 0x0000FFFFFFFFFFFF else s.pair .tmuToplo .tmuTophi n
/-- R355: PHASE. -/
def State.tmuPhase (s : State) (n : Nat) : B64 := if n = 0 then 0 else s.pair .tmuPhaselo .tmuPhasehi n
/-- R365: the count; that of channel 0 is FRAME_NO. -/
def State.tmuCnt (s : State) (n : Nat) : B64 := if n = 0 then BitVec.ofNat 64 s.frame else (s.chan n).cnt
/-- R365: channel 0 runs from the first tick. -/
def State.tmuRuns (s : State) (n : Nat) : Bool := if n = 0 then s.ticking else (s.chan n).run
/-- R367: TMU_STAT as it reads. -/
def State.tmuStat (s : State) (n : Nat) : BitVec 32 :=
  let k := s.chan n
  (s.rd .tmuStat 0 n &&& 0xC9000000) ||| BitVec.ofNat 32 (b2n k.caprv * 2 ^ 29 + b2n k.capfv * 2 ^ 28
    + b2n k.lock * 2 ^ 26 + b2n (!k.pend.isEmpty) * 2 ^ 25 + b2n (s.tmuRuns n))
/-- Set bits of TMU_STAT. -/
def State.tmuFlag (s : State) (n : Nat) (m : BitVec 32) : State := s.wr .tmuStat 0 n (s.rd .tmuStat 0 n ||| m)
/-- R366: channels that contribute to the Shed's interrupt. -/
def State.tmuIrq (s : State) : Nat :=
  ((List.range 24).filter fun n => (s.tmuCtl n).getLsbD 29 && (s.tmuStat n &&& 0xF9000000) != 0).foldl (fun a n => a + 2 ^ n) 0
/-- A set of channels as bits. -/
def State.tmuRun (s : State) : Nat := ((List.range 24).filter s.tmuRuns).foldl (fun a n => a + 2 ^ n) 0

/-! ### Pins (R363, R364) -/

def State.timerPin (s : State) (k : Nat) : Pin := Tab.get (fun _ => {}) s.tpin k
def State.setTimerPin (s : State) (k : Nat) (p : Pin) : State := { s with tpin := Tab.set (fun _ => {}) s.tpin k p }

/-- R363, R398: one sample of a filtered pin, and whether it is the sixteenth 2-2 split in a row. -/
def Pin.sample (p : Pin) (x : Bool) : Pin × Bool :=
  let smp := (x :: p.smp).take 4
  let ones := (smp.filter id).length
  let lvl := if 3 ≤ ones then true else if ones ≤ 1 then false else p.lvl
  let split := if ones == 2 then p.split + 1 else 0
  ({ p with smp, lvl, split := min split 16 }, split == 16)

/-- R364: the level at a pin: driven by the unit while OE is 1, low for an OSRC that names no channel. -/
def State.pinLevel (s : State) (k : Nat) (x : Bool) : Bool :=
  let v := s.rd .tmuPin 0 k
  if v.getLsbD 29 then fld v 20 16 != 0 && fld v 20 16 < 24 && (s.timerPin k).drive else x
/-- R361: channel `n` captures from pin `k`. -/
def State.capturesFrom (s : State) (n k : Nat) : Bool :=
  let ctl := s.tmuCtl n
  ctl.getLsbD 24 && fld ctl 23 20 == k && s.tmuRuns n
/-- R361: a filtered edge of pin `k` reaches the channels that capture from it: the leading one is the rise, with CINV the
fall. -/
def State.pinEdge (s : State) (k : Nat) (rise : Bool) : State :=
  (List.range 24).foldl (fun s n =>
    if s.capturesFrom n k then s.modChan n fun c => { c with edge := some (rise != (s.tmuCtl n).getLsbD 26) } else s) s
/-- R363: pin `k` is sampled: the next sample follows 2^SDIV fc later. -/
def State.takeSample (s : State) (k : Nat) : State :=
  let p := s.timerPin k
  let r := p.sample (s.pinLevel k p.ext)
  let s := s.setTimerPin k { r.1 with due := 2 ^ fld (s.rd .tmuPin 0 k) 3 0 }
  let s := if r.2 then s.wr .tmuPin 0 k (s.rd .tmuPin 0 k ||| 0x40000000) else s
  if r.1.lvl != p.lvl then s.pinEdge k r.1.lvl else s
/-- TMU_PIN_SAMPLE (R363): the synchroniser of pin `k` shows the level, which is sampled when a sample is due. -/
def tmuPinSample (k : Nat) (level : Bool) (s : State) : State :=
  let s := s.setTimerPin k { s.timerPin k with ext := level }
  if (s.timerPin k).due = 0 then s.takeSample k else s
/-- TMU_PIN_SAMPLE (R363). -/
def execTmuPinSample (k : Nat) (level : Bool) (s : State) : Out :=
  .next (if k < 8 then tmuPinSample k level s else s)

/-- R360: every pin that channel `n` drives toggles. -/
def State.togglePins (s : State) (n : Nat) : State :=
  (List.range 8).foldl (fun s k =>
    let v := s.rd .tmuPin 0 k
    if v.getLsbD 29 && fld v 20 16 == n && n != 0 then
      s.setTimerPin k { s.timerPin k with drive := !(s.timerPin k).drive }
    else s) s

/-! ### Counting (R354, R355, R359, R360) -/

/-- R354: the count after an increment, and whether it wrapped. -/
def nextCount (top cnt : B64) : B64 × Bool :=
  if top != 0 && cnt == top then (0, true) else (cnt + 1, cnt + 1 == 0)

/-- R354: the fc from one increment to the next. -/
def State.tmuStep (s : State) (n : Nat) : Nat := fld (s.tmuCtl n) 15 0 + 1
/-- TMU_INCREMENT (R354, R359, R360): a running channel whose prescaler has expired increments; the match is tested against the
compare in force before a wrap loads the next. -/
def tmuIncrement (n : Nat) (s : State) : State :=
  let k := s.chan n
  if n = 0 || !k.run || k.pre < s.tmuStep n then s
  else
    let r := nextCount (s.tmuTop n) k.cnt
    let s := s.setChan n { k with cnt := r.1, pre := 0 }
    let s := if r.1 == k.cmpa then (s.tmuFlag n 0x80000000).togglePins n else s
    if r.2 then (s.tmuFlag n 0x40000000).modChan n fun k => { k with cmpa := s.pair .tmuCmplo .tmuCmphi n } else s
/-- TMU_INCREMENT (R354). -/
def execTmuIncrement (ch : Nat) (s : State) : Out :=
  .next (if ch < 24 then tmuIncrement ch s else s)

/-- R355: channel `n` starts, or its start is refused. -/
def State.tmuStartCh (s : State) (n : Nat) : State :=
  let k := s.chan n
  if k.run then s
  else if s.tmuTop n != 0 && s.tmuTop n < s.tmuPhase n then s.tmuFlag n 0x01000000
  else
    let c := s.pair .tmuCmplo .tmuCmphi n
    s.setChan n { k with run := true, cnt := s.tmuPhase n, cmpa := c, led := false, pre := 0 }

/-- R356: the writer is one that OWN of a channel admits. -/
def State.ownOk (s : State) (w : Who) (n : Nat) : Bool :=
  match w, fld (s.tmuCtl n) 31 30 with
  | .shed, _ => true
  | .host, o => o == 0 || o == 1
  | .core _, o => o == 0 || o == 2

/-- R355: a write of TMU_START. -/
def tmuStartWrite (v : BitVec 32) (s : State) : State :=
  ((List.range 24).filter fun n => n != 0 && v.getLsbD n).foldl State.tmuStartCh s
/-- TMU_START (R355). -/
def execTmuStart (w : Who) (v : BitVec 32) (s : State) : Out := .next (s.writeReg w .tmuStart 0 0 (tmuStartWrite v))

/-! ### Capture (R361, R362) -/

/-- R361: an edge enters the capture registers with the count given. -/
def State.takeEdge (s : State) (n : Nat) (leading : Bool) (v : B64) : State :=
  let k := s.chan n
  if leading then
    let s := if k.caprv then s.tmuFlag n 0x08000000 else s
    s.setChan n { k with capr := v, caprv := true, capfv := false, led := true }
  else if k.led then s.setChan n { k with capf := v, capfv := true, led := false }
  else s

/-- R361, R365: the count that a capture records. -/
def State.captureCount (s : State) (n : Nat) : B64 :=
  if n = 0 then BitVec.ofNat 64 (s.frame * 4096 + s.fc % 4096) else (s.chan n).cnt

/-- CAPTURE_EDGE (R361, R362): an edge that has reached channel `n` in this fc enters its registers, or its buffer while they
are locked. -/
def captureEdge (n : Nat) (leading : Bool) (s : State) : State :=
  let k := s.chan n
  if k.edge != some leading then s
  else
    let s := s.setChan n { k with edge := none }
    if k.lock then
      if k.pend.any fun e => e.1 == leading then s.tmuFlag n 0x08000000
      else s.modChan n fun k => { k with pend := k.pend ++ [(leading, s.captureCount n)] }
    else s.takeEdge n leading (s.captureCount n)
/-- CAPTURE_EDGE (R361). -/
def execCaptureEdge (ch : Nat) (leading : Bool) (s : State) : Out :=
  .next (if ch < 24 then captureEdge ch leading s else s)

/-- R362: the lock of a channel is released: the buffered edges enter in their order. -/
def State.unlockCapture (s : State) (n : Nat) : State :=
  let k := s.chan n
  k.pend.foldl (fun s e => s.takeEdge n e.1 e.2) (s.setChan n { k with lock := false, caprv := false, capfv := false, pend := [] })

/-! ### The frame clock (R354, R361, R363) -/

/-- What channel `n` has left to do in this fc: its edge, taken at the count of the fc, and an increment that is due; then one
fc passes for its prescaler. -/
def State.tmuFc (s : State) (n : Nat) : State :=
  let s := match (s.chan n).edge with
    | some b => captureEdge n b s
    | none => s
  let s := tmuIncrement n s
  if (s.chan n).run then s.modChan n fun k => { k with pre := k.pre + 1 } else s
/-- What pin `k` has left to do in this fc, and one fc passes. -/
def State.pinFc (s : State) (k : Nat) : State :=
  let s := if (s.timerPin k).due = 0 then s.takeSample k else s
  s.setTimerPin k { s.timerPin k with due := (s.timerPin k).due - 1 }
/-- One fc passes for the unit. -/
def State.timerFc (s : State) : State :=
  let s := (List.range 24).foldl State.tmuFc ((List.range 8).foldl State.pinFc s)
  { s with clock := s.clock + 1, fc := s.fc + 1 }
/-- Nothing in the unit changes while fc pass: no channel counts, no edge waits, every pin's filter holds its level. -/
def State.timersRest (s : State) : Bool :=
  ((List.range 24).all fun n => !(s.chan n).run && (s.chan n).edge.isNone) &&
  (List.range 8).all fun k =>
    let p := s.timerPin k
    p.smp.all (· == p.lvl) && p.split == 0 && s.pinLevel k p.ext == p.lvl
/-- The sampling of a pin at rest goes on. -/
def Pin.wait (p : Pin) (per d : Nat) : Pin :=
  { p with due := if d ≤ p.due then p.due - d else (per * d - (d - p.due)) % per }
/-- `d` fc pass for the unit and the clock. -/
def State.timersPass (s : State) (d : Nat) : State :=
  if s.timersRest then
    let s := { s with clock := s.clock + d, fc := s.fc + d }
    (List.range 8).foldl (fun s k =>
      let p := (s.timerPin k).wait (2 ^ fld (s.rd .tmuPin 0 k) 3 0) d
      if p == s.timerPin k then s else s.setTimerPin k p) s
  else iter State.timerFc d s

/-! ### Reads with effects (R357, R362) -/

/-- R357: the pair that a read concerns and its value in this fc; the compare of channel 0 reads 0 (R365). -/
def State.tmuWide (s : State) (n : Nat) (cmp : Bool) : Nat × B64 :=
  (n * 2 + b2n cmp, if cmp then (if n = 0 then 0 else (s.chan n).cmpa) else s.tmuCnt n)
/-- R357: a read of CNTLO or CMPALO. -/
def State.readLow (s : State) (w : Who) (n : Nat) (cmp : Bool) : BitVec 32 × State :=
  let x := s.tmuWide n cmp
  let i := shadowIdx w
  (x.2.setWidth 32, s.setShadow i { s.shadowOf i with valid := true, pair := x.1, hi := (x.2 >>> 32).setWidth 32 })
/-- R357: a read of CNTHI or CMPAHI. -/
def State.readHigh (s : State) (w : Who) (n : Nat) (cmp : Bool) : BitVec 32 × State :=
  let x := s.tmuWide n cmp
  let i := shadowIdx w
  let h := s.shadowOf i
  let good := h.valid && h.pair == x.1
  (if good then h.hi else (x.2 >>> 32).setWidth 32, s.setShadow i { h with good })
/-- R362: a read of CAPRLO. -/
def State.readLock (s : State) (n : Nat) : BitVec 32 × State :=
  ((s.chan n).capr.setWidth 32, s.modChan n fun k => { k with lock := true })
/-- R362: a read of CAPFHI. -/
def State.readUnlock (s : State) (n : Nat) : BitVec 32 × State :=
  (((s.chan n).capf >>> 32).setWidth 32, s.unlockCapture n)
/-- A command that reads a register. -/
def gives (r : BitVec 32 × State) : State := { r.2 with rdata := r.1 }

/-- CNT_LO_READ (R357). -/
def execCntLoRead (w : Who) (ch : Nat) (cmp : Bool) (s : State) : Out :=
  .next (if ch < 24 then gives (s.readLow w ch cmp) else s)
/-- CNT_HI_READ (R357). -/
def execCntHiRead (w : Who) (ch : Nat) (cmp : Bool) (s : State) : Out :=
  .next (if ch < 24 then gives (s.readHigh w ch cmp) else s)
/-- CAPTURE_LOCK_READ (R362). -/
def execCaptureLockRead (_w : Who) (ch : Nat) (s : State) : Out :=
  .next (if ch < 24 then gives (s.readLock ch) else s)
/-- CAPTURE_UNLOCK_READ (R362): by any requester. -/
def execCaptureUnlockRead (_w : Who) (ch : Nat) (s : State) : Out :=
  .next (if ch < 24 then gives (s.readUnlock ch) else s)

/-! ### Writes -/

/-- R356: a write of channel `n` by a writer that OWN admits. -/
def State.ownWrite (s : State) (w : Who) (nm : RegName) (n : Nat) (f : State → State) : State :=
  if s.ownOk w n then f s else s.reject w 1 (RegAt.key ⟨nm, 0, n⟩)

/-- R358: CMPLO goes to the staging; channel 0 discards it (R365). -/
def cmploSet (n : Nat) (v : BitVec 32) (s : State) : State :=
  if n = 0 then s else s.modChan n fun k => { k with stageLo := v }
/-- R358: CMPHI places both halves into the preload. -/
def cmphiSet (n : Nat) (v : BitVec 32) (s : State) : State :=
  if n = 0 then s else (s.wr .tmuCmplo 0 n (s.chan n).stageLo).wr .tmuCmphi 0 n v
/-- CMPLO_WRITE (R358). -/
def execCmploWrite (w : Who) (ch : Nat) (v : BitVec 32) (s : State) : Out :=
  .next (s.writeReg w .tmuCmplo 0 ch fun s => s.ownWrite w .tmuCmplo ch (cmploSet ch v))
/-- CMPHI_WRITE (R358). -/
def execCmphiWrite (w : Who) (ch : Nat) (v : BitVec 32) (s : State) : Out :=
  .next (s.writeReg w .tmuCmphi 0 ch fun s => s.ownWrite w .tmuCmphi ch (cmphiSet ch v))

/-- R355, R356, R365: a write of TMU_CTL. -/
def State.ctlWrite (s : State) (w : Who) (n : Nat) (v : BitVec 32) : State :=
  let off := RegAt.key ⟨.tmuCtl, 0, n⟩
  if n = 0 then s.wr .tmuCtl 0 0 ((s.rd .tmuCtl 0 0 &&& ~~~0x25F00000) ||| (v &&& 0x25F00000))
  else if (s.chan n).run || fld v 31 30 == 3 then s.reject w 0 off
  else s.plainWrite ⟨.tmuCtl, 0, n⟩ v

/-- A write of a register of the timer block (R354 to R367). -/
def State.tmuWrite (s : State) (w : Who) (nm : RegName) (n : Nat) (v : BitVec 32) : State :=
  match nm with
  | .tmuStart => tmuStartWrite v s
  | .tmuPin =>
    let old := s.rd .tmuPin 0 n
    let s := s.plainWrite ⟨.tmuPin, 0, n⟩ v
    if v.getLsbD 29 && !old.getLsbD 29 then s.setTimerPin n { s.timerPin n with drive := false } else s
  | .tmuCtl => s.ownWrite w nm n fun s => s.ctlWrite w n v
  | .tmuStat => s.ownWrite w nm n fun s => s.plainWrite ⟨.tmuStat, 0, n⟩ v
  | .tmuCmplo => s.ownWrite w nm n (cmploSet n v)
  | .tmuCmphi => s.ownWrite w nm n (cmphiSet n v)
  | .tmuToplo | .tmuTophi | .tmuPhaselo | .tmuPhasehi =>
    s.ownWrite w nm n fun s =>
      if s.tmuRuns n then s.reject w 0 (RegAt.key ⟨nm, 0, n⟩) else if n = 0 then s else s.plainWrite ⟨nm, 0, n⟩ v
  | _ => s

/-- A read of a register of the timer block. -/
def State.tmuRead (s : State) (w : Who) (nm : RegName) (n : Nat) : BitVec 32 × State :=
  match nm with
  | .tmuRun => (BitVec.ofNat 32 s.tmuRun, s)
  | .tmuShstat => (BitVec.ofNat 32 (b2n (s.shadowOf (shadowIdx w)).good), s)
  | .tmuIrq => (BitVec.ofNat 32 s.tmuIrq, s)
  | .tmuPin => (putBit (s.rd .tmuPin 0 n) 31 (s.timerPin n).lvl, s)
  | .tmuCtl => (s.tmuCtl n, s)
  | .tmuStat => (s.tmuStat n, s)
  | .tmuCntlo => s.readLow w n false
  | .tmuCnthi => s.readHigh w n false
  | .tmuCmpalo => s.readLow w n true
  | .tmuCmpahi => s.readHigh w n true
  | .tmuToplo => ((s.tmuTop n).setWidth 32, s)
  | .tmuTophi => ((s.tmuTop n >>> 32).setWidth 32, s)
  | .tmuCaprlo => s.readLock n
  | .tmuCaprhi => (((s.chan n).capr >>> 32).setWidth 32, s)
  | .tmuCapflo => ((s.chan n).capf.setWidth 32, s)
  | .tmuCapfhi => s.readUnlock n
  | .tmuStart => (0, s)
  | _ => (s.rd nm 0 n, s)

end Sys2Proof.Machine
end

