-- ==== Sys2Proof/Machine/Cells.lean ====
section
/-!
DEFINITION. Cells (R23 to R38, R237, R239, R256 to R259, R280, R281, R428, R429): the rotation, the checks and effects of
CELL_START, the maintenance sequencer and its operations, cell restart, and the placement of the warden (R441).
-/
namespace Sys2Proof.Machine

/-! ### The rotation (R23, R24) -/

/-- R23: the entry of core `c` in a row. -/
def State.rotEntry (s : State) (row c : Nat) : BitVec 8 := Tab.get (fun _ => 0xF1) s.rot (row * 64 + c)
def State.setRotEntry (s : State) (row c : Nat) (v : BitVec 8) : State :=
  { s with rot := Tab.set (fun _ => 0xF1) s.rot (row * 64 + c) v }
/-- The row attribute of cell `n`. -/
def State.rowAttr (s : State) (row n : Nat) : BitVec 32 := Tab.get (fun _ => 0x00010000) s.rotAttr (row * 4 + n)
def State.setRowAttr (s : State) (row n : Nat) (v : BitVec 32) : State :=
  { s with rotAttr := Tab.set (fun _ => 0x00010000) s.rotAttr (row * 4 + n) (v &&& 0x00013FFF) }
/-- FRM_CELLn_ROWS.ROWS. -/
def State.rowsOf (s : State) (n : Nat) : Nat := s.rdf .frmCellRows 0 n 8 0
/-- A cell is STOPPED or DOWN. -/
def State.cellIdle (s : State) (n : Nat) : Bool := (s.cell n).st == 0 || (s.cell n).st == 4
/-- R24: a reserved entry, or a partition the build does not have. -/
def entryBad (b : Build) (e : BitVec 8) : Bool :=
  let x := e.toNat
  (0x40 ≤ x && x < 0xF0) || (0xF3 ≤ x && x < 0xFF) || (x < 0x40 && b.parts ≤ x)
/-- R24: the rotation of cell `n` is refused. -/
def State.rotationBad (s : State) (n : Nat) : Bool :=
  let rows := s.rowsOf n
  rows == 0 || 256 < rows
    || ((List.range rows).any fun r => (s.coresOfCell n).any fun c => entryBad s.build (s.rotEntry r c))
    || !(List.range rows).any fun r => (s.rowAttr r n).getLsbD 16
/-- Cores that a row of cell `n` gives partition `p`. -/
def State.coresGiven (s : State) (n row p : Nat) : List Nat :=
  (s.coresOfCell n).filter fun c => (s.rotEntry row c).toNat == p
/-- R38: the rotations of two cells suit a pair. -/
def State.pairRotation (s : State) (p a b : Nat) : Bool :=
  s.rowsOf a == s.rowsOf b && (List.range (s.rowsOf a)).all fun r =>
    (s.coresGiven a r p).length ≤ 1 && (s.coresGiven b r p).length ≤ 1
/-- R45: the rotation of one cell suits a degraded pair. -/
def State.loneRotation (s : State) (p n : Nat) : Bool :=
  (List.range (s.rowsOf n)).all fun r => (s.coresGiven n r p).length ≤ 1
/-- R14: FRM_PERIOD.SEL. -/
def State.periodSel (s : State) : Nat := s.rdf .frmPeriod 0 0 1 0
/-- R29: FRM_CAL is refused. -/
def State.calBad (s : State) : Bool :=
  let slot := s.rdf .frmCal 0 0 15 8
  s.rdf .frmCal 0 0 7 0 < 4 || slot == 0 || periodOf s.periodSel < 256 + 4 * slot + 64

/-! ### Checks of CELL_START -/

/-- WAYSj of CELL_L2CFG as stored. -/
def State.cfgWays (s : State) (n j : Nat) : Nat := s.rdf .cellL2cfg n 0 (4 * j + 3) (4 * j)
/-- R237, R254, R256: CELL_L2CFG is refused. -/
def State.l2cfgBad (s : State) (n : Nat) : Bool :=
  let off := (s.rd .cellL2cfg n).getLsbD 31
  (List.range s.build.cluPerCell).any fun j =>
    let w := s.cfgWays n j
    let m := n * s.build.cluPerCell + j
    9 ≤ w || (off && w != 0)
      || ((List.range (16 - w)).filter fun i => !(s.rd .cluL2stat m).getLsbD i).length < 5
/-- R262: the channels of the cell break the population rules or failed. -/
def State.channelsBad (s : State) (n : Nat) : Bool :=
  let v := s.memCfg n
  fld v 13 12 == 0 || fld v 13 12 == 3 || fld v 9 8 == 3 || fld v 1 0 == 3
    || (List.range s.build.chanPerCell).any fun i =>
      let c := n * s.build.chanPerCell + i
      s.rd .memCfg c != v || (s.rd .memStat c).getLsbD 30
/-- R280: the bank is named by HOME_EXCL. -/
def State.exclNamed (s : State) (n bank : Nat) : Bool := (s.rd .homeExcl (4 * n) (bank / 32)).getLsbD (bank % 32)
/-- R281: the descriptors of the cell are refused. -/
def State.birBad (s : State) (n : Nat) : Bool :=
  let d := ((List.range 8).map fun i => s.rd .homeBir (4 * n) i).filter fun v => v.getLsbD 31
  let place := d.map fun v => (fld v 21 20, fld v 18 16)
  place.eraseDups.length != place.length
    || d.any fun v => 2 ^ s.rankBits n ≤ fld v 21 20 || fld v 7 0 < Config.minSlot (fld (s.memCfg n) 1 0)
      || (List.range 4).any fun b => s.exclNamed n (fld v 21 20 * 32 + fld v 18 16 * 4 + b)
/-- R266: the next CELL_START draws a new key. -/
def State.needsKey (s : State) (n : Nat) : Bool := (s.cell n).restarted || !(s.cell n).hasKey
/-- R24, R29, R237, R254, R256, R262, R281, R308: the DETAIL with which CELL_START is refused with 0x0101. -/
def State.cellStartRefused (s : State) (n : Nat) : Option (BitVec 8) :=
  if s.rotationBad n || s.calBad || s.l2cfgBad n || s.channelsBad n || s.birBad n then some 0
  else if s.needsKey n && (!s.trngOk || !s.drbgD.live || s.drbgD.spent) then some 0x09
  else none

/-! ### Bundles in flash (R389, R390) -/

/-- R378: where a slot begins. -/
def slotBase (slot : Nat) : Nat := slot * 0x1000000
/-- A little-endian field of a slot's bundle. -/
def State.bundleField (s : State) (slot off n : Nat) : Nat := natLE (s.flashBytes (slotBase slot + off) n)
/-- R390: offset and length of the section of a type. -/
def State.section? (s : State) (slot ty : Nat) : Option (Nat × Nat) :=
  (List.range (min 16 (s.bundleField slot 24 4))).findSome? fun i =>
    let e := 64 + 48 * i
    if s.bundleField slot e 4 == ty then some (s.bundleField slot (e + 4) 4, s.bundleField slot (e + 8) 4) else none
/-- R390: word `a` of the control-store image of the running bundle. -/
def State.imageWord (s : State) (a : Nat) : BitVec 96 :=
  match s.section? s.shd.slot 2 with
  | some (off, len) => if 12 * a + 12 ≤ len then BitVec.ofNat 96 (s.bundleField s.shd.slot (off + 12 * a) 12) else 0
  | none => 0

/-! ### The warden (R441) -/

/-- R64: the words that a body spells. -/
def bodyWords (b : Bytes) : List Word := (chunk 9 b).map bytesWord
/-- R198, R441: a management context record. -/
def mgmtRecord : List Word :=
  (List.range 512).map fun i =>
    if i == 192 then Word.nat (2 ^ 18 + 2)
    else if i == 193 then Word.link 2 0x2000
    else if i < 96 || (194 ≤ i && i < 256) then Word.nat 0
    else Word.empty
/-- R441, R429: region 0 is filled, the warden body placed, and a record written for each core of the cell. -/
def State.wardenPlace (s : State) (n : Nat) : State :=
  let base := n * 2 ^ 37
  let s := s.fillRegion n 0
  let s := agentWrites s (base + 0x2000) (bodyWords s.shd.warden)
  (List.range s.build.coresPerCell).foldl (fun s i => agentWrites s (base + 512 * i) mgmtRecord) s

/-! ### The maintenance sequencer (R258) -/

/-- The lowest operation waiting starts where none runs. -/
def Cell.mstart (k : Cell) : Cell :=
  match k.mcur with
  | some _ => k
  | none => match (List.range 16).find? fun i => k.mpend.getLsbD i with
    | some i => { k with mcur := some i, mpend := putBit k.mpend i false, mdone := false }
    | none => k
/-- Operations are requested together. -/
def State.mrequest (s : State) (n : Nat) (ops : List Nat) : State :=
  s.modCell n fun k => ({ k with mpend := ops.foldl (fun v i => putBit v i true) k.mpend } : Cell).mstart
/-- R259: CELL_MSEQ. -/
def State.mseq (s : State) (n : Nat) : BitVec 32 :=
  let k := s.cell n
  BitVec.ofNat 32 (b2n k.mcur.isSome * 2 ^ 31 + k.mcur.getD 0 % 16 * 2 ^ 24 + k.mpend.toNat % 256 * 2 ^ 8 + k.mlast % 16)
/-- Operation `op` runs in cell `n` and its work is done by `f`. -/
def State.mwork (s : State) (n op : Nat) (f : State → State) : State :=
  if (s.cell n).mcur == some op && !(s.cell n).mdone then (f s).modCell n fun k => { k with mdone := true } else s

/-! ### Draining and cleaning -/

/-- R246, R249: the stores and atomics that a core still holds are performed. -/
def Atomic.perform (a : Atomic) (s : State) : State :=
  match a with
  | .cas pa old new => let r := s.agentRead pa; if r.1 == old then r.2.agentWrite pa new else r.2
  | .aor pa bits => let r := s.agentRead pa; r.2.agentWrite pa ⟨r.1.tag, r.1.pay ||| bits⟩
def State.drainCore (s : State) (c : Nat) : State :=
  let k := s.core c
  let s := k.sb.foldl (fun s e => (s.calm e.pa).agentWrite e.pa e.w) s
  let s := k.atomics.foldl (fun s a => a.perform s) s
  s.modCore c fun k => { k with sb := [], atomics := [] }
/-- Lines of cell `n` that an L2, an eviction buffer or the directory holds. -/
def State.cachedLines (s : State) (n : Nat) : List Nat :=
  let a := s.l2.filterMap fun e => if s.build.cellOfClu (e.1 / 2 ^ 36) == n then some (e.1 % 2 ^ 36) else none
  let b := (s.clusOfCell n).flatMap fun m => (s.clu m).evb.map fun e => e.line
  let c := s.dir.filterMap fun e => if cellOfLine e.1 == n then some e.1 else none
  (a ++ b ++ c).eraseDups
/-- R257: one line is written back where it is dirty, and every copy goes. -/
def State.cleanLine (s : State) (l : Nat) : State :=
  let s := s.calm (l * 8)
  match s.dirtyData l with
  | some d => (s.purgeLine l).dramWrite l d
  | none => s.purgeLine l
/-- The first level caches, translation of locks and prefetch streams of a cell's cores go. -/
def State.dropL1s (s : State) (n : Nat) : State :=
  (s.coresOfCell n).foldl (fun s c => s.modCore c fun k =>
    { k with l1d := [], l1p := [], l1i := [], l1ip := [], streams := [], locks := [], relock := [] }) s
/-- R257: the L2 caches of a cell are cleaned and invalidated. -/
def State.l2Clean (s : State) (n : Nat) : State :=
  let s := (s.coresOfCell n).foldl State.drainCore s
  ((s.cachedLines n).foldl State.cleanLine s).dropL1s n
/-- MAINT_L2_CLEAN (R257, R258). -/
def execMaintL2Clean (n : Nat) (s : State) : Out := onCell s n (s.mwork n 0 fun s => s.l2Clean n)
/-- R239: the scratch ways cleared: at a stop those of sealed clusters, at a start those of clusters whose WAYSj changed. -/
def scratchClear (n : Nat) (s : State) : State :=
  ((s.clusOfCell n).foldl (fun s m => if (s.cell n).scrClear.getLsbD (s.cluIdx m) then s.clearScratch m else s) s).modCell n
    fun k => { k with scrClear := 0 }
/-- MAINT_SCRATCH_CLEAR (R239, R258). -/
def execMaintScratchClear (n : Nat) (s : State) : Out := onCell s n (s.mwork n 1 (scratchClear n))
/-- R258: operation 2. -/
def directoryInit (n : Nat) (s : State) : State :=
  let s := (s.clusOfCell n).foldl (fun s m => s.wrf .cluL2stat m 0 15 0 0) s
  { s with dir := Tab.drop (fun k => cellOfLine k == n) s.dir, net := s.net.filter fun x => cellOfLine x.line != n,
           ncNet := s.ncNet.filter fun x => cellOfLine x.line != n, ncAsk := s.ncAsk.filter fun x => cellOfLine x.line != n,
           dirP := Tab.drop (fun k => k / 2048 / 4 == n) s.dirP, dirRes := s.dirRes.filter fun x => cellOfLine x.line != n,
           mshr := Tab.drop (fun k => cellOfLine (k % 2 ^ 36) == n) s.mshr }
/-- MAINT_DIRECTORY_INIT (R258). -/
def execMaintDirectoryInit (n : Nat) (s : State) : Out := onCell s n (s.mwork n 2 (directoryInit n))
/-- R281: the regions of a descriptor. -/
def State.birRegions (s : State) (n : Nat) (v : BitVec 32) : List Nat :=
  let r := s.birRange n v
  (List.range (r.2 / 16384)).map fun i => r.1 / 16384 + i
/-- R280, R281: the exclusion words and descriptors come into force. -/
def bankApply (n : Nat) (s : State) : State :=
  let old := fun i => s.birOn n i
  let new := fun i => s.rd .homeBir (4 * n) i
  let s := (List.range 8).foldl (fun s i =>
    if (old i).getLsbD 31 && !((new i).getLsbD 31) then (s.birRegions n (old i)).foldl (fun s r => s.clearRegion n r) s else s) s
  let s := s.modCell n fun k =>
    { k with exclOn := (List.range 4).foldl (fun t i => Tab.set (fun _ => 0) t i (s.rd .homeExcl (4 * n) i)) [],
             birOn := (List.range 8).foldl (fun t i => Tab.set (fun _ => 0) t i (new i)) [], exclDirty := false }
  let s := (s.filledRegions n).foldl (fun s r =>
    if s.bankExcluded n (s.bankIndex n (r * 16384)) then s.clearRegion n r else s) s
  (List.range 8).foldl (fun s i =>
    if (new i).getLsbD 31 && !((old i).getLsbD 31) then (s.birRegions n (new i)).foldl (fun s r => s.fillRegion n r) s else s) s
/-- MAINT_BANK_EXCLUSION (R258, R280, R281). -/
def execMaintBankExclusion (n : Nat) (s : State) : Out := onCell s n (s.mwork n 3 (bankApply n))
/-- R263, R447: operation 4; the data rate comes into force, and memory survives. -/
def ddrRetrain (n : Nat) (s : State) : State :=
  (s.wrf .clkDdr 0 0 (2 * n + 1) (2 * n) (fld (s.memCfg n) 1 0)).modCell n fun k => { k with cfgDirty := false }
/-- MAINT_DDR_RETRAINING (R258, R263). -/
def execMaintDdrRetraining (n : Nat) (s : State) : Out := onCell s n (s.mwork n 4 (ddrRetrain n))
/-- R277, R278: an error that the self-test found in codeword `cw` of line `l`: it is logged with SRC 3, and an uncorrectable
one excludes its bank. -/
def State.testCw (s : State) (n l cw : Nat) (e : List (Nat × BitVec 8)) : State :=
  let out := fun (s : State) =>
    let b := s.bankIndex n (lineInCell l)
    (s.wr .homeExcl (4 * n) (b / 32) (putBit (s.rd .homeExcl (4 * n) (b / 32)) (b % 32) true)).modCell n fun k =>
      { k with exclDirty := true }
  match cwOutcome (normErr (errOf cw e)) with
  | .clean => s
  | .corrected p v => s.memEvent l 3 1 cw p v
  | .address => out (s.memEvent l 3 3 cw 0x3F 0)
  | .uncorrectable => out (s.memEvent l 3 2 cw 0x3F 0)
/-- R277: what the self-test found in a line; lines past capacity and in excluded banks are passed over (R280). -/
def State.testFault (s : State) (n : Nat) (x : Nat × List (Nat × BitVec 8)) : State :=
  if cellOfLine x.1 != n || !s.linePopulated x.1 then s else (s.testCw n x.1 0 x.2).testCw n x.1 1 x.2
/-- MAINT_SELFTEST (R277): `found` are the lines in which the test found errors, with those errors. -/
def execMaintSelftest (n : Nat) (found : List (Nat × List (Nat × BitVec 8))) (s : State) : Out :=
  onCell s n (s.mwork n 5 fun s => (found.foldl (fun s x => s.testFault n x) s).clearMap n)

/-! ### Starting and stopping (R35, R36) -/

/-- R266: a new cell key, drawn through the device DRBG; its halves differ (DESIGN CHOICE, log 53: where the draw gives equal
halves, one bit is changed). -/
def State.newCellKey (s : State) (n : Nat) : State :=
  let r := s.drbgD.draw 64
  let v := natLE r.1
  let v := if v / 2 ^ 256 == v % 2 ^ 256 then Nat.xor v 1 else v
  ({ s with drbgD := r.2 } : State).modCell n fun k =>
    { k with key := BitVec.ofNat 512 v, hasKey := true, keyGen := k.keyGen + 1 }
/-- R36, R258: CELL_START is accepted: the cell enters STARTING and its operations are requested. -/
def State.cellBegin (s : State) (n : Nat) : State :=
  let k := s.cell n
  let cfg := s.rd .cellL2cfg n
  let s := if s.needsKey n then s.newCellKey n else s
  let s := if k.restarted then s.clearMap n else s
  let s := if k.restarted && s.shd.hasWarden then s.wardenPlace n else s
  let ops := (if (cfg ^^^ k.l2cfg) &&& 0xFFFF != 0 then [1] else []) ++ (if k.restarted then [2] else [])
    ++ (if k.exclDirty then [3] else []) ++ (if k.cfgDirty then [4] else [])
  let s := (s.setCellState n 1).modCell n fun k =>
    { k with startPend := true, restarted := false, l2cfg := cfg, l2off := cfg.getLsbD 31
             scrClear := BitVec.ofNat 4 (maskOf 4 fun j => fld cfg (4 * j + 3) (4 * j) != fld k.l2cfg (4 * j + 3) (4 * j)) }
  s.mrequest n ops
/-- R35: CELL_STOP of a cell that is not DOWN is accepted. -/
def State.cellHalt (s : State) (n : Nat) : State :=
  (s.setCellState n 3).modCell n fun k => { k with stopPend := true, startPend := false, helloWait := false }
/-- R35, R257: the cores of the cell stop, at a tick, and the cleaning is requested. -/
def State.cellQuiesce (s : State) (n : Nat) : State :=
  let s := (s.coresOfCell n).foldl (fun s c => (s.drainCore c).modCore c fun k =>
    { k.tlbClear with entry := 0xFF, part := none, next := none, preempt := false, switched := true, wait := .none }) s
  let sealed := (s.clusOfCell n).any s.scratchSealed
  (s.modCell n fun k => { k with stopPend := false, acked := true, scrClear := BitVec.ofNat 4 (fld k.l2cfg 19 16) }).mrequest n (if sealed then [0, 1] else [0])
/-- R205: the lockup record of a core clears. -/
def State.lockClear (s : State) (c : Nat) : State :=
  (((s.wr .cluCoreStat (c / 4) (c % 4) 0).wr .cluCoreLkpc (c / 4) (c % 4) 0).wr .cluCoreLkpch (c / 4) (c % 4) 0).wr
    .cluCoreLkfrm (c / 4) (c % 4) 0
/-- R185: LOCKUP_N is asserted while a core or the Shed is locked up. -/
def State.lockPin (s : State) : State :=
  s.modPwr fun w => { w with lockupN := s.shd.locked || s.coreIds.any fun c => (s.core c).locked }
/-- R34, R185, R205, R254: the cell has stopped; its cores are no longer locked up, and their records clear. -/
def State.cellStopped (s : State) (n : Nat) : State :=
  let s := ((s.coresOfCell n).foldl (fun s c => (s.lockClear c).modCore c fun k => { k with locked := false }) s).lockPin
  let s := (s.clusOfCell n).foldl (fun s m => (s.wrf .cluL2stat m 0 15 0 0).wrf .cluL2err m 0 29 0 0) s
  let s := s.setCellState n 0
  if s.admWait == .cellStop n then s.admFinish 0 else s
/-- R441: the boot rotation of a cell: one row with CAL_OK and no Rake budget; every core at 0xF2, or at 0xFF in a cluster
that failed its measurement (R122). -/
def State.bootRotation (s : State) (n : Nat) : State :=
  let s := (s.wrf .frmCellRows 0 n 8 0 1).setRowAttr 0 n 0x00010000
  (s.coresOfCell n).foldl (fun s c => s.setRotEntry 0 c (if (s.clu (c / 4)).csOk then 0xF2 else 0xFF)) s
/-- R440 stage 6, R443: what the Shed does for a cell whose channels trained: key, region 0, warden, boot rotation,
CELL_START; the HELLO is then awaited. A cell that cannot start, or has no warden, stays STOPPED. -/
def State.bootStart (s : State) (n : Nat) : State :=
  let resolve := fun (s : State) => s.modCell n fun k => { k with resolved := true }
  if !s.trngOk then resolve s
  else
    let s := (if (s.cell n).hasKey then s else s.newCellKey n).fillRegion n 0
    if !s.shd.hasWarden then resolve s
    else
      let s := (s.wardenPlace n).bootRotation n
      if (s.cellStartRefused n).isSome then resolve s
      else (s.cellBegin n).modCell n fun k => { k with helloWait := true }
/-- R258: the running operation ends; the next begins; a cell that was STOPPING has stopped. -/
def maintOpComplete (n : Nat) (s : State) : State :=
  match (s.cell n).mcur with
  | none => s
  | some op =>
    if !(s.cell n).mdone then s
    else
      let s := s.modCell n fun k => ({ k with mcur := none, mlast := op, mdone := false } : Cell).mstart
      let s := if op == 5 && (s.cell n).selftest then
          (s.modCell n fun k => { k with selftest := false }).bootStart n else s
      if (s.cell n).st == 3 && (s.cell n).mcur.isNone && !(s.cell n).stopPend then s.cellStopped n else s
/-- MAINT_OP_COMPLETE (R258). -/
def execMaintOpComplete (n : Nat) (s : State) : Out := onCell s n (maintOpComplete n s)

/-! ### Restart (R428) -/

/-- R428: jobs of a cell's coprocessors are gone, and their tickets. -/
def State.dropJobs (s : State) (which : Job → Bool) : State :=
  s.jobs.foldl (fun s e => match e.2 with
    | some j =>
      if which j then
        (s.setJob e.1 none).modStrand (strandKey j.part j.side j.strand) fun x =>
          { x with tickets := x.tickets.filter fun t => t.2 != e.1 + 1 }
      else s
    | none => s) s
/-- R428 steps 1 to 3: everything of the cell is held in reset and invalidated. -/
def State.cellWipe (s : State) (n : Nat) : State :=
  let s := s.dropJobs fun j => s.build.cellOfClu j.clu == n
  let s := (s.coresOfCell n).foldl (fun s c => (s.setCore c {}).lockClear c) s
  let s := s.lockPin
  let s := (s.clusOfCell n).foldl (fun s m =>
    let s := s.wrf .cluL2stat m 0 15 0 0
    let bad := (s.clu m).csBad
    let s := s.modClu m fun k =>
      { k with cs := bad.foldl (fun t a => Tab.set (fun _ => 0) t a (s.imageWord a)) k.cs, csBad := [], l2p := [], evb := [],
               prio := [], work := [], rtlb := [], jobq := [], jobrun := [] }
    s.clearScratch m) s
  let s := directoryInit n s
  let s := { s with l2 := Tab.drop (fun k => s.build.cellOfClu (k / 2 ^ 36) == n) s.l2 }
  s.modCell n fun k =>
    { k with mcur := none, mpend := 0, mdone := false, fillq := [], fillLate := [], filling := none, fillAt := [], hello := false, held := none,
             shoot := [], shootNow := [] }
/-- R428: CELL_STOP of a DOWN cell. -/
def State.cellRestart (s : State) (n : Nat) : State := (s.cellWipe n).modCell n fun k => { k with restarting := true }
/-- R428 step 4: the restart is complete, at a tick. -/
def State.cellRestarted (s : State) (n : Nat) : State :=
  let s := (s.setCellState n 0).modCell n fun k => { k with restarting := false, restarted := true }
  if s.admWait == .cellStop n then s.admFinish 0 else s
/-- R428: a cluster has not left reset in time. -/
def cellRestartTimeout (n : Nat) (s : State) : State :=
  if (s.cell n).restarting then
    let s := (s.modCell n fun k => { k with restarting := false }).wr .cellDownwhy n 0 (BitVec.ofNat 32 (2 ^ 31 + 4 * 2 ^ 24))
    if s.admWait == .cellStop n then s.admFinish 0x0301 else s
  else s
/-- CELL_RESTART_TIMEOUT (R428). -/
def execCellRestartTimeout (n : Nat) (s : State) : Out := onCell s n (cellRestartTimeout n s)

end Sys2Proof.Machine
end

