-- ==== Sys2Proof/Machine/Host.lean ====
section
/-!
DEFINITION. The host command interface (R315 to R336, R350, R351): queue pairs, fetch and its checks, the request arena,
delivery, the I/O commands, completion by a partition, release under R32 and R41, and function resets.
-/
namespace Sys2Proof.Machine

/-! ### Queue pairs (R319 to R323) -/

/-- R316, R318: function `f` is present: 0 the PF; v, while the host has enabled it, the VF bound to partition v - 1. -/
def State.funcOk (s : State) (f : Nat) : Bool := f ≤ min s.pwr.numVf s.build.parts
/-- R316, R323: a queue pair register of function `f`. -/
def State.qreg (s : State) (n : RegName) (f q : Nat) : BitVec 32 :=
  if f = 0 then s.rd n 0 q else Tab.get (fun _ => 0) s.vfbar (f * 0x4000 + 0x100 * q + n.row.off)
def State.setQreg (s : State) (n : RegName) (f q : Nat) (v : BitVec 32) : State :=
  if f = 0 then s.wr n 0 q v else { s with vfbar := Tab.set (fun _ => 0) s.vfbar (f * 0x4000 + 0x100 * q + n.row.off) v }
def qkey (f q : Nat) : Nat := f * 16 + q
def State.qst (s : State) (f q : Nat) : Qp := s.qp (qkey f q)
def State.setQst (s : State) (f q : Nat) (x : Qp) : State := s.setQp (qkey f q) x
def State.qEn (s : State) (f q : Nat) : Bool := (s.qreg .qpCtl f q).getLsbD 31
def State.qIen (s : State) (f q : Nat) : Bool := (s.qreg .qpCtl f q).getLsbD 1
/-- R323: entries minus 1 of the SQ and CQ. -/
def State.sqsz (s : State) (f q : Nat) : Nat := fld (s.qreg .qpSize f q) 11 0
def State.cqsz (s : State) (f q : Nat) : Nat := fld (s.qreg .qpSize f q) 27 16
def State.sqTail (s : State) (f q : Nat) : Nat := fld (s.qreg .qpSqtail f q) 11 0
/-- R323: a 64-bit address of two registers. -/
def State.qaddr (s : State) (lo hi : RegName) (f q : Nat) : Nat := (s.qreg lo f q).toNat + (s.qreg hi f q).toNat * 2 ^ 32
/-- Bus Master Enable of function `f` is 1 and the link is up. -/
def State.canDma (s : State) (f : Nat) : Bool := s.pwr.link && Tab.get (fun _ => true) s.pwr.bme f

/-- The I/O commands outstanding, in fetch order. -/
def State.reqList (s : State) : List (Nat × Req) := s.reqs.filterMap fun e => e.2.map fun r => (e.1, r)
/-- R321: commands of a queue that are fetched and not yet posted or discarded. -/
def State.outstanding (s : State) (f q : Nat) : Nat :=
  if f = 0 then (s.adm.filter fun a => a.q == q).length + (s.admDone.filter fun a => a.cmd.q == q).length
  else (s.reqList.filter fun e => e.2.vf == f && e.2.q == q).length
/-- R323: QP_STAT. -/
def State.qpStat (s : State) (f q : Nat) : BitVec 32 :=
  let x := s.qst f q
  BitVec.ofNat 32 (b2n (s.qEn f q || s.outstanding f q != 0) * 2 ^ 31 + b2n x.err * 2 ^ 30 + x.errc % 8 * 2 ^ 24
    + x.sqHead % 4096)

/-- R351: one record of the HCI log; the newest 1,024 are held. -/
def State.hciLogRec (s : State) (event f q detail cid : Nat) : State :=
  let n := seqAdd s.shd.hciSeq 1
  s.modShd fun d =>
    { d with hciSeq := n,
             hciLog := (Tab.set (fun _ => none) d.hciLog n
               (some ⟨s.frame, event, f, q, detail, cid⟩)).filter fun e => seqDist e.1 n < 1024 }
/-- R320, R350: a queue or DMA error. -/
def State.hciError (s : State) (reason f q cid : Nat) : State :=
  (s.record .hciErr 0 (BitVec.ofNat 32 (reason % 16 * 2 ^ 24 + f % 128 * 2 ^ 16 + q % 16 * 2 ^ 8))).hciLogRec reason f q 0
    (if reason = 6 || reason = 7 then cid else 0)
/-- R320: a queue in error. -/
def State.queueError (s : State) (f q errc : Nat) : State :=
  (s.setQst f q { s.qst f q with err := true, errc := errc }).hciError errc f q 0

/-- R320: a write of QP_SQTAIL. -/
def tailWrite (f q : Nat) (v : BitVec 32) (s : State) : State :=
  let t := fld v 11 0
  if s.sqsz f q < t then s.queueError f q 1 else s.setQreg .qpSqtail f q (BitVec.ofNat 32 t)
/-- R320: a write of QP_CQHEAD. -/
def headWrite (f q : Nat) (v : BitVec 32) (s : State) : State :=
  let n := s.cqsz f q + 1
  let h := fld v 11 0
  let adv := (h + n - fld (s.qreg .qpCqhead f q) 11 0 % n) % n
  if n ≤ h || (s.qst f q).used < adv then s.queueError f q 2
  else (s.setQreg .qpCqhead f q (BitVec.ofNat 32 h)).setQst f q { s.qst f q with used := (s.qst f q).used - adv }
/-- R319: a write of QP_CTL. Disabling stops fetching at once: a fetch that waits for arena space ends. -/
def qpCtlWrite (f q : Nat) (v : BitVec 32) (s : State) : State :=
  let ien := v &&& 2
  if !v.getLsbD 31 then (s.setQreg .qpCtl f q ien).setQst f q { s.qst f q with held := none }
  else if s.qEn f q then s.setQreg .qpCtl f q (0x80000000 ||| ien)
  else if s.sqsz f q = 0 || s.cqsz f q < s.sqsz f q then
    ((s.setQreg .qpCtl f q ien).setQst f q { s.qst f q with errc := 5 }).hciError 5 f q 0
  else
    (((s.setQreg .qpCtl f q (0x80000000 ||| ien)).setQreg .qpSqtail f q 0).setQreg .qpCqhead f q 0).setQst f q {}
/-- A write of a queue pair register: the VF's are the host's alone (R316), the PF's follow R11. -/
def State.qpWrite (s : State) (w : Who) (n : RegName) (f q : Nat) (g : State → State) : Out :=
  if !s.funcOk f || 16 ≤ q then .next s
  else if f = 0 then .next (s.writeReg w n 0 q g)
  else .next (if w == .host then g s else s)
/-- SQ_TAIL_DOORBELL (R320). -/
def execSqTailDoorbell (vf q : Nat) (v : BitVec 32) (s : State) : Out := s.qpWrite .host .qpSqtail vf q (tailWrite vf q v)
/-- CQ_HEAD_DOORBELL (R320). -/
def execCqHeadDoorbell (vf q : Nat) (v : BitVec 32) (s : State) : Out := s.qpWrite .host .qpCqhead vf q (headWrite vf q v)
/-- QP_ENABLE (R319): a write of QP_CTL with EN set. -/
def execQpEnable (w : Who) (vf q : Nat) (v : BitVec 32) (s : State) : Out :=
  s.qpWrite w .qpCtl vf q (fun s => if v.getLsbD 31 then qpCtlWrite vf q v s else s)
/-- QP_DISABLE (R319): a write of QP_CTL with EN clear. -/
def execQpDisable (w : Who) (vf q : Nat) (v : BitVec 32) (s : State) : Out :=
  s.qpWrite w .qpCtl vf q (fun s => if v.getLsbD 31 then s else qpCtlWrite vf q v s)

/-! ### Commands (R324 to R326) -/

def HostCmdOp (c : HostCmd) : Nat := fld (dwAt c.dw 0) 7 0
def cmdFlags (c : HostCmd) : Nat := fld (dwAt c.dw 0) 15 8
def cmdCid (c : HostCmd) : Nat := fld (dwAt c.dw 0) 31 16
def cmdTarget (c : HostCmd) : Nat := (dwAt c.dw 1).toNat
def cmdInLen (c : HostCmd) : Nat := (dwAt c.dw 4).toNat
def cmdOutLen (c : HostCmd) : Nat := (dwAt c.dw 7).toNat
def cmdPs (c : HostCmd) : List (BitVec 32) := (c.dw.drop 8).take 8
def cmdInSgl (c : HostCmd) : Bool := cmdFlags c % 2 == 1
def cmdOutSgl (c : HostCmd) : Bool := cmdFlags c / 2 % 2 == 1
def cmdInline (c : HostCmd) : Bool := cmdFlags c / 4 % 2 == 1
/-- R324: the longest buffer. -/
def maxLen : Nat := 0x100000

/-- R325: a descriptor list that must give `need` bytes, exactly so for input: `seg` bytes of the segment are left, `tot`
bytes and `n` data descriptors have come. -/
def sglOk (need : Nat) (exact : Bool) : List (BitVec 64 × BitVec 32 × BitVec 32) → Nat → Nat → Nat → Bool
  | l, seg, tot, n =>
    match l with
    | [] => need ≤ tot && (!exact || tot == need)
    | (_, len, ty) :: t =>
      if need ≤ tot then !exact || tot == need
      else if seg < 16 then false
      else if ty == 0 then
        1 ≤ len.toNat && len.toNat ≤ maxLen && n < 256 && sglOk need exact t (seg - 16) (tot + len.toNat) (n + 1)
      else if ty == 1 then len.toNat % 16 == 0 && len.toNat ≤ 4096 && sglOk need exact t len.toNat tot n
      else false
/-- R325: the data descriptors of a list. -/
def sglData (l : List (BitVec 64 × BitVec 32 × BitVec 32)) : List (Nat × Nat) :=
  (l.filter fun d => d.2.2 == 0).map fun d => (d.1.toNat, d.2.1.toNat)
/-- R325: the data descriptors that a list needs to give `need` bytes. -/
def sglUsed : Nat → List (Nat × Nat) → Nat
  | 0, _ => 0
  | _, [] => 0
  | need, (_, n) :: t => 1 + sglUsed (need - n) t
/-- R325, R326 step 5: both lists are well formed, and together they use at most 256 data descriptors. -/
def sglsOk (c : HostCmd) : Bool :=
  (!cmdInSgl c || sglOk (cmdInLen c) true c.inSgl 4096 0 0) && (!cmdOutSgl c || sglOk (cmdOutLen c) false c.outSgl 4096 0 0)
    && (if cmdInSgl c then sglUsed (cmdInLen c) (sglData c.inSgl) else 0)
      + (if cmdOutSgl c then sglUsed (cmdOutLen c) (sglData c.outSgl) else 0) ≤ 256

/-- R330: the opcodes of a VF. -/
def ioOps : List Nat := [0x40, 0x42, 0x48, 0x49, 0x4A, 0x50, 0x58]
/-- R31, R330: the class of an I/O command; an opcode that is not assigned counts in class 0. -/
def ioClass (c : HostCmd) : Nat :=
  match HostCmdOp c with
  | 0x40 => cmdTarget c / 2 ^ 24 % 8
  | 0x42 => 8 | 0x48 => 9 | 0x49 => 10 | 0x4A => 11 | 0x50 => 12 | 0x58 => 13
  | _ => 0
/-- R296, R330: the upper bits of a name are 0. -/
def nameBitsOk (hi : BitVec 32) : Bool := hi.toNat < 4
/-- R326 step 2: the parameters from `n` on, which the opcode does not use, are 0. -/
def restZero (c : HostCmd) (n : Nat) : Bool := ((cmdPs c).drop n).all (· == 0)
/-- R326 step 2 for an I/O command: no reserved bit is set. -/
def ioBitsOk (c : HostCmd) : Bool :=
  let p := dwAt (cmdPs c)
  cmdFlags c < 8
    && (if cmdInline c then HostCmdOp c == 0x40 && !cmdInSgl c && cmdInLen c ≤ 32 else true)
    && (match HostCmdOp c with
        | 0x40 => cmdTarget c < 2 ^ 27 && (cmdInline c || (cmdPs c).all (· == 0))
        | 0x42 => cmdTarget c == 0 && (p 0).toNat < 2 ^ 20 && restZero c 1
        | 0x48 | 0x4A => cmdTarget c == 0 && nameBitsOk (p 1) && restZero c 2
        | 0x49 => cmdTarget c == 0 && nameBitsOk (p 1) && nameBitsOk (p 3) && restZero c 4
        | 0x50 => cmdTarget c == 0 && restZero c 1
        | _ => cmdTarget c == 0 && restZero c 0)
/-- R326 step 3 for an I/O command. -/
def ioLensOk (c : HostCmd) : Bool :=
  let i := cmdInLen c
  let o := cmdOutLen c
  i ≤ maxLen && o ≤ maxLen
    && (match HostCmdOp c with
        | 0x40 => true
        | 0x48 => i == 48 && 9 ≤ o
        | 0x49 => i == 0 && 63 ≤ o
        | 0x50 => i == 0 && (dwAt (cmdPs c) 0).toNat ≤ o
        | _ => i == 0)
/-- R326 step 4 for an I/O command. -/
def ioParamsOk (c : HostCmd) : Bool :=
  HostCmdOp c != 0x50 || (1 ≤ (dwAt (cmdPs c) 0).toNat && (dwAt (cmdPs c) 0).toNat ≤ 4096)
/-- R325: the input bytes of a command. -/
def cmdInput (c : HostCmd) (input : Bytes) : Bytes :=
  fitBytes (cmdInLen c) (if cmdInline c then dwBytes (cmdPs c) else input)
/-- R326: how the fetch of an I/O command fails: status, DETAIL and RESULT. -/
def ioFetchFault (c : HostCmd) (input : Bytes) (dma : DmaRes) : Option (BitVec 16 × BitVec 8 × Nat) :=
  if !ioOps.contains (HostCmdOp c) then some (0x0100, 0, 0)
  else if !ioBitsOk c then some (0x0101, 0x01, 0)
  else if !ioLensOk c then some (0x0101, 0x02, 0)
  else if !ioParamsOk c then some (0x0101, 0x03, 0)
  else if !sglsOk c then some (0x0101, 0x07, 0)
  else if dma == .inError then some (0x0101, 0x20, 0)
  else if dma == .outError then some (0x0101, 0x21, 0)
  else if HostCmdOp c = 0x40 then
    match aDecode (cmdInput c input) with
    | .fault st off => some (st, 0x10, off)
    | .ok _ => none
  else none

/-! ### Requests -/

/-- R31: K of a class of partition `p`. -/
def State.kOf (s : State) (p cls : Nat) : Nat := Tab.get (fun _ => 2) (s.part p).ks cls
/-- R32: the release frame of arrival `a`, ceiling `k`, written in frame `d`. -/
def releaseFrame (a k d : Nat) : Nat := a + (if d < a + k then 1 else (d - a) / k + 1) * k
/-- R22: the arrival frame of a command fetched now. -/
def State.arrival (s : State) : Nat := (s.frame + (if s.cutoff then 2 else 1)) % 2 ^ 48
/-- A command that completes at once, written in its arrival frame. -/
def Req.finish (r : Req) (d : Nat) (status : BitVec 16) (detail : BitVec 8 := 0) (out : Bytes := []) (result : Nat := 0) : Req :=
  { r with done := some d, status := status, detail := detail, out := out, outNeed := out.length, result := BitVec.ofNat 64 result }
/-- R347: the status of a command to a partition that is not RUNNING. -/
def State.notRunning (s : State) (p : Nat) : BitVec 16 :=
  let q := s.part p
  if q.st != 0 && !q.paired && (s.cell q.cell0).st == 4 then 0x0301 else 0x0102

/-- R332: the STATE word of a record on a side. -/
def Req.recState (r : Req) (side : Nat) (abandoned : Bool) : Word :=
  let acc := r.accepted.getLsbD side
  Word.nat (b2n r.cancel + 2 * b2n acc + 4 * b2n (acc && (if side = 0 then r.dig0.isSome else r.dig1.isSome)) + 8 * b2n abandoned)
/-- R331: an arena walk faulted: the partition is fault-stopped, and the command completes with DETAIL 0x40. -/
def State.arenaFault (s : State) (p side r : Nat) : State :=
  let s := s.walkStop ((s.part p).cellOf side) p 4
  s.modReq r fun q => if q.done.isSome then q else
    { q.finish s.frame 0x0300 0x40 with relFrm := some (s.frame + 1), fin := true }
/-- Sides of a partition whose memory the host interface reaches. -/
def State.reachSides (s : State) (p : Nat) : List Nat :=
  (s.part p).live.filter fun x => (s.cell ((s.part p).cellOf x)).st != 4
/-- R332: STATE is written in the records of a request. -/
def State.putRecState (s : State) (r : Nat) (abandoned : Bool) : State :=
  match s.req r with
  | none => s
  | some q =>
    match q.recOff with
    | none => s
    | some off =>
      (s.reachSides q.part).foldl (fun s side =>
        let w := partWrites q.part side s ((s.part q.part).arenaVa + off + 6) [q.recState side abandoned]
        if w.1 then w.2 else w.2.arenaFault q.part side r) s

/-! ### The request arena (R331, R332) -/

/-- Words used in the ring. -/
def Part.arenaUsed (q : Part) : Nat := (q.spans.map Span.len).sum
/-- R331: where a span of `n` words would start, and the words it takes with a skipped tail. In an empty arena a span that
fits only with part of the tail it skips takes the whole arena (DESIGN CHOICE, log 47: it could never be fetched
otherwise). -/
def Part.arenaFit (q : Part) (n : Nat) : Option (Nat × Nat) :=
  let tail := q.arenaLen - q.arenaHead
  let free := q.arenaLen - q.arenaUsed
  if n ≤ tail then (if n ≤ free then some (q.arenaHead, n) else none)
  else if tail + n ≤ free then some (0, tail + n)
  else if q.spans.isEmpty && n ≤ q.arenaLen then some (0, q.arenaLen)
  else none
/-- R331: spans are freed in ring order. -/
def dropFreed : List Span → List Span
  | [] => []
  | x :: t => if x.freed then dropFreed t else x :: t
/-- R331: the span of a request is freed. -/
def State.freeSpan (s : State) (p r : Nat) : State :=
  s.modPart p fun q => { q with spans := dropFreed (q.spans.map fun x => if x.req == r then { x with freed := true } else x) }
/-- R332: the lowest free ticket of a partition. -/
def State.freeTicket (s : State) (p : Nat) : Nat :=
  let used := s.reqList.filterMap fun e => if e.2.part == p && e.2.recOff.isSome then some e.2.ticket else none
  ((List.range (used.length + 1)).find? fun t => !used.contains t).getD 0
/-- R332: the ten words of a record. -/
def recordWords (r : Req) (ticket : Nat) (top : Word) : List Word :=
  [mkWord tyHDR false 0 (mkHdr 8 0 0x01 false 0 false),
   Word.nat (ticket + r.q * 2 ^ 16 + r.cid * 2 ^ 20), Word.nat r.entry, Word.nat (r.cls + r.outLen * 2 ^ 32), Word.nat r.arr,
   top, Word.nat 0, mkWord tySPECIAL false 0 3, Word.nil, Word.empty]
/-- R331: the words of a span: the record, the objects, the output reserve; rounded up to even. -/
def spanWords (objs : List AObj) (outLen : Nat) : Nat := (10 + objWords objs + (outLen + 7) / 8 + 1) / 2 * 2
/-- R68: the objects of an input; none for an empty one. -/
def inputObjs (inp : Bytes) : List AObj := if inp.isEmpty then [] else match aDecode inp with | .ok l => l | .fault _ _ => []
/-- R331: the span of one side is written. -/
def State.writeSpan (s : State) (p side r off : Nat) (q : Req) (objs : List AObj) : State :=
  let va := (s.part p).arenaVa + off
  let col := (s.rk p side).col
  let top := if objs.isEmpty then Word.nil else mkWord tyVEC false col (BitVec.ofNat 64 (va + 10))
  let w := partWrites p side s va (recordWords q q.ticket top ++ objsImage col (va + 10) objs)
  if w.1 then w.2 else w.2.arenaFault p side r
/-- R331, R332: request `r` takes the span that `fit` gives. -/
def State.place (s : State) (r : Nat) (fit : Nat × Nat) : State :=
  match s.req r with
  | none => s
  | some q =>
    let objs := inputObjs q.inp
    let n := spanWords objs q.outLen
    let off := fit.1
    let q := { q with recOff := some off, outOff := off + 10 + objWords objs, ticket := s.freeTicket q.part }
    let s := (s.setReq r (some q)).modPart q.part fun x =>
      { x with spans := x.spans ++ [⟨off, fit.2, r, false⟩], arenaHead := (off + n) % max x.arenaLen 1 }
    (s.reachSides q.part).foldl (fun s side => s.writeSpan q.part side r off q objs) s

/-! ### Fetch (R321, R326, R347, R348) -/

/-- R330: key, RANDOM and PING commands that a function holds. -/
def State.stagedOn (s : State) (f : Nat) : Nat :=
  (s.reqList.filter fun e => e.2.vf == f && e.2.op != 0x40 && e.2.op != 0x42).length
/-- R321: an SQ from which the interface may fetch. A queue whose fetch waits for arena space is passed over. -/
def State.mayFetch (s : State) (f q : Nat) : Bool :=
  s.funcOk f && s.qEn f q && !(s.qst f q).err && (s.qst f q).held.isNone && (s.qst f q).sqHead != s.sqTail f q
    && s.outstanding f q < s.cqsz f q && !s.alm.zbusy && s.canDma f && (f != 0 || (s.shd.run && !s.shd.locked))
/-- R321: the SQ of function `f` whose turn is next within the function. -/
def State.nextSq (s : State) (f : Nat) : Option Nat :=
  ((List.range 16).map fun i => (Tab.get (fun _ => 0) s.rrQ f + i) % 16).find? fun q => s.mayFetch f q
/-- R321: the function and SQ that the round-robin serves next. -/
def State.nextTurn (s : State) : Option (Nat × Nat) :=
  let n := s.build.parts + 1
  (((List.range n).map fun i => (s.rrFunc + i) % n).find? fun f => (s.nextSq f).isSome).bind fun f =>
    (s.nextSq f).map fun q => (f, q)
/-- R321: the turn is the SQ's. -/
def State.canFetch (s : State) (f q : Nat) : Bool := s.nextTurn == some (f, q)
/-- R321: the SQ has had its turn. -/
def State.turnTaken (s : State) (f q : Nat) : State :=
  { s with rrFunc := (f + 1) % (s.build.parts + 1), rrQ := Tab.set (fun _ => 0) s.rrQ f ((q + 1) % 16) }
/-- R319: the head of the SQ advances: its command is fetched. -/
def State.sqAdvance (s : State) (f q : Nat) : State :=
  s.setQst f q { s.qst f q with sqHead := ((s.qst f q).sqHead + 1) % (s.sqsz f q + 1), held := none }
/-- R351: a command refused at fetch. -/
def State.logRefused (s : State) (f q : Nat) (st : BitVec 16) (det : BitVec 8) (cid : Nat) : State :=
  s.hciLogRec 10 f q (if st == 0x0100 then 0xFF else det.toNat) cid
/-- R331: the fetch waits for arena space; the command stays in its SQ. -/
def State.holdFetch (s : State) (f q : Nat) (c : HostCmd) (input : Bytes) (dma : DmaRes) : State :=
  if (s.qst f q).held.isSome then s
  else (s.setQst f q { s.qst f q with held := some (c, input, dma) }).inc32 .hciArenawait
/-- R22, R324, R331: the request of an I/O command fetched now. -/
def State.newReq (s : State) (f q : Nat) (c : HostCmd) : Req :=
  { vf := f, q := q, op := HostCmdOp c, cid := cmdCid c, part := f - 1, cls := ioClass c, k := s.kOf (f - 1) (ioClass c), arr := s.arrival,
    ps := cmdPs c, outAddr := qwAt c.dw 5, outLen := cmdOutLen c,
    outSgl := if cmdOutSgl c then sglData c.outSgl else [], entry := cmdTarget c % 2 ^ 24 }
/-- R321: a command is taken from its SQ with its place in the fetch order. -/
def State.takeCmd (s : State) (f q : Nat) (r : Req) : State :=
  let s := s.sqAdvance f q
  { s with reqNo := s.reqNo + 1 }.setReq s.reqNo (some r)
/-- R326, R347, R348: a well-formed command that completes at its fetch: its status. -/
def State.refuseAt (s : State) (p op : Nat) : Option (BitVec 16) :=
  if s.alm.inforce then some 0x0400
  else if (s.part p).st = 0 then some 0x0102
  else if (op = 0x40 || op = 0x42) && (s.part p).st != 3 then some (s.notRunning p)
  else none
/-- R326, R331, R347, R348: a fetched I/O command. -/
def ioFetch (f q : Nat) (c : HostCmd) (input : Bytes) (dma : DmaRes) (s : State) : State :=
  let op := HostCmdOp c
  let r := s.newReq f q c
  if ioOps.contains op && op != 0x40 && op != 0x42 && 16 ≤ s.stagedOn f then s
  else match ioFetchFault c input dma with
    | some (st, det, off) =>
      let s := if det = 0x20 then s.hciError 6 f q (cmdCid c) else if det = 0x21 then s.hciError 7 f q (cmdCid c) else s
      (s.logRefused f q st det (cmdCid c)).takeCmd f q (r.finish r.arr st det [] off)
    | none => match s.refuseAt (f - 1) op with
      | some st => s.takeCmd f q (r.finish r.arr st)
      | none =>
        let r := { r with inp := cmdInput c input }
        if op = 0x40 then
          match (s.part (f - 1)).arenaFit (spanWords (inputObjs r.inp) r.outLen) with
          | none => s.holdFetch f q c input dma
          | some fit => (s.takeCmd f q r).place s.reqNo fit
        else s.takeCmd f q r

/-- ARENA_WAIT_FETCH (R331): a fetch that waits for arena space proceeds where the span now fits. -/
def arenaWaitFetch (f q : Nat) (s : State) : State :=
  match (s.qst f q).held with
  | some (c, input, dma) => if s.alm.zbusy || (s.qst f q).err || !s.qEn f q then s else ioFetch f q c input dma s
  | none => s
/-- ARENA_WAIT_FETCH (R331). -/
def execArenaWaitFetch (vf q : Nat) (s : State) : Out :=
  .next (if !s.funcOk vf || 16 ≤ q then s else arenaWaitFetch vf q s)

/-! ### Delivery and service (R17 step 6, R330, R336) -/

/-- R333: an `INVOKE` is delivered. -/
def State.deliverReq (s : State) (r : Nat) : State :=
  match s.req r with
  | none => s
  | some q =>
    let s := s.setReq r (some { q with delivered := true })
    s.modPart q.part fun x => x.live.foldl (fun x side => x.setDlv side (x.dlv side ++ [r])) x
/-- R22, R17: an `INVOKE` that is due and not yet delivered. -/
def Req.dueInvoke (q : Req) (frame : Nat) : Bool :=
  q.op == 0x40 && q.recOff.isSome && !q.delivered && q.done.isNone && q.arr ≤ frame
/-- R333: insertion by arrival frame, later fetches after earlier ones. -/
def insArr (x : Nat × Req) : List (Nat × Req) → List (Nat × Req)
  | [] => [x]
  | y :: t => if y.2.arr ≤ x.2.arr then y :: insArr x t else x :: y :: t
/-- R22: at its tick, frame `f` and its core cycle count are stamped on the `INVOKE`s that arrive with it. -/
def Req.stamped (q : Req) (f cyc : Nat) : Req := if q.op == 0x40 && q.arr == f then { q with stamp := cyc } else q
/-- R22. -/
def State.stampAll (s : State) : State :=
  s.reqList.foldl (fun s e => s.setReq e.1 (some (e.2.stamped s.frame (s.clock * 8)))) s

/-- R336: the request that a CANCEL names. -/
def State.cancelTarget (s : State) (r : Req) : Option Nat :=
  let p0 := dwAt r.ps 0
  (s.reqList.find? fun e => e.2.op == 0x40 && e.2.vf == r.vf && e.2.q == fld p0 19 16 && e.2.cid == fld p0 15 0
    && e.2.recOff.isSome && e.2.done.isNone && e.2.accepted == 0).map Prod.fst
/-- R289, R296: a key name of partition `p` passes its checks. -/
def State.nameOk (s : State) (p : Nat) (name : Nat) (ty : Nat → Bool) (need : Nat) (e : SlotEcc := .good) : Bool × State :=
  let r := handleCheck s (some p) (s.nameHandle p name) ty need e
  (r.1 == 0, r.2)
/-- What serving a command gives: status, DETAIL, output and RESULT. -/
abbrev Served := BitVec 16 × BitVec 8 × Bytes × Nat
/-- KEY_IMPORT_WRAPPED (R295, R296). -/
def serveImport (r : Req) (s : State) : Served × State :=
  let kek := qwAt r.ps 0
  let (ok, s) := s.nameOk r.part kek (· == 2) 0x20
  if !ok then ((0x0101, 0x04, [], 0), s)
  else match unwrapKey (matBytes (s.slot (kek % 2 ^ 18)).mat) r.inp with
    | none => ((0x0101, 0x05, [], 0), s)
    | some (ty, use, lab, mat) =>
      match s.createKey r.part ty use lab mat with
      | none => ((0x0101, 0x06, [], 0), s)
      | some (i, s) => ((0, 0, wordBytes (Word.nat (s.keyName i)), 0), s)
/-- KEY_EXPORT_WRAPPED (R295, R296). -/
def serveExport (e : SlotEcc) (r : Req) (s : State) : Served × State :=
  let kek := qwAt r.ps 0
  let key := qwAt r.ps 2
  let (ok, s) := s.nameOk r.part kek (· == 2) 0x10 e
  if !ok then ((0x0101, 0x04, [], 0), s)
  else
    let (ok, s) := s.nameOk r.part key (fun _ => true) 0x80
    if !ok then ((0x0101, 0x04, [], 0), s)
    else
      let k := s.slot (key % 2 ^ 18)
      let b := wrapKey (matBytes (s.slot (kek % 2 ^ 18)).mat) k.pol k.mat
      ((0, 0, wordBytes (marker 1 48) ++ fitBytes 54 b, 0), s)
/-- KEY_DESTROY (R292, R296). -/
def serveDestroy (r : Req) (s : State) : Served × State :=
  let key := qwAt r.ps 0
  let (ok, s) := s.nameOk r.part key (fun _ => true) 0
  if ok then ((0, 0, [], 0), s.destroySlot (key % 2 ^ 18)) else ((0x0101, 0x04, [], 0), s)
/-- RANDOM (R309, R330): from the partition's instance, or the host DRBG of a pair. -/
def serveRandom (r : Req) (s : State) : Served × State :=
  let n := (dwAt r.ps 0).toNat
  let q := s.part r.part
  let d := if q.paired then q.drbgH else q.drbg0
  if d.spent then ((0x0300, 0x08, [], 0), s.reseedLimit r.part)
  else
    let (o, d) := d.draw n
    ((0, 0, o, 0), s.modPart r.part fun q => if q.paired then { q with drbgH := d } else { q with drbg0 := d })
/-- CANCEL (R336, R347). -/
def serveCancel (r : Req) (s : State) : Served × State :=
  if (s.part r.part).st != 3 && (s.part r.part).st != 4 then ((s.notRunning r.part, 0, [], 0), s)
  else match s.cancelTarget r with
    | none => ((0, 0, [], 0), s)
    | some t => ((0, 0, [], 1), (s.modReq t fun x => { x with cancel := true }).putRecState t false)
/-- PING (R330). -/
def servePing (r : Req) (s : State) : Served × State := ((0, 0, [], r.arr), s)
/-- A command served by `g`. -/
def State.serveBy (s : State) (no : Nat) (r : Req) (g : Req → State → Served × State) : State :=
  let (x, s) := g r s
  s.setReq no (some (r.finish (max r.arr s.frame) x.1 x.2.1 x.2.2.1 x.2.2.2))
/-- What serves an opcode. -/
def serverOf (op : Nat) : Req → State → Served × State :=
  match op with
  | 0x42 => serveCancel
  | 0x48 => serveImport
  | 0x49 => serveExport .good
  | 0x4A => serveDestroy
  | 0x50 => serveRandom
  | _ => servePing
/-- A command other than `INVOKE` that is due and not yet served. -/
def Req.dueServe (q : Req) (frame : Nat) : Bool := q.op != 0x40 && q.done.isNone && q.arr ≤ frame
/-- The oldest command of a queue and opcode that is due is served by `g`. -/
def serveOldest (f q op : Nat) (g : Req → State → Served × State) (s : State) : State :=
  if s.frozen || s.alm.zbusy then s
  else match s.reqList.find? fun e => e.2.vf == f && e.2.q == q && e.2.op == op && e.2.dueServe s.frame with
    | some e => s.serveBy e.1 e.2 g
    | none => s
/-- R17 step 6 for one command, as it stands when its turn comes: delivered, or served. -/
def State.stepSixOne (s : State) (no : Nat) : State :=
  match s.req no with
  | none => s
  | some r =>
    if r.dueInvoke s.frame then s.deliverReq no
    else if r.dueServe s.frame then s.serveBy no r (serverOf r.op)
    else s
/-- R17 step 6, R330, R336: every command that is due, in order of arrival and then of fetch. -/
def State.stepSix (s : State) : State :=
  if s.frozen then s
  else
    let l := (s.reqList.filter fun e => e.2.dueInvoke s.frame || e.2.dueServe s.frame).foldl (fun l e => insArr e l) []
    l.foldl (fun s e => s.stepSixOne e.1) s
/-- A command of a VF's queue. -/
def onVf (s : State) (f q : Nat) (t : State) : Out :=
  if f = 0 || !s.funcOk f || 16 ≤ q then .next s else .next t
/-- INVOKE (R331, R333): the queue's oldest `INVOKE` takes its span if it still waits for it, and is delivered if it is due. -/
def invokeCmd (f q : Nat) (s : State) : State :=
  let s := arenaWaitFetch f q s
  if s.frozen || s.alm.zbusy then s
  else match s.reqList.find? fun e => e.2.vf == f && e.2.q == q && e.2.dueInvoke s.frame with
    | some e => s.deliverReq e.1
    | none => s
/-- INVOKE (R331, R333). -/
def execInvoke (vf q : Nat) (s : State) : Out := onVf s vf q (invokeCmd vf q s)
/-- CANCEL (R336). -/
def execCancel (vf q : Nat) (s : State) : Out := onVf s vf q (serveOldest vf q 0x42 serveCancel s)
/-- KEY_IMPORT_WRAPPED (R296). -/
def execKeyImportWrapped (vf q : Nat) (s : State) : Out := onVf s vf q (serveOldest vf q 0x48 serveImport s)
/-- KEY_EXPORT_WRAPPED (R296). -/
def execKeyExportWrapped (vf q : Nat) (s : State) (e : SlotEcc := .good) : Out := onVf s vf q (serveOldest vf q 0x49 (serveExport e) s)
/-- KEY_DESTROY (R296). -/
def execKeyDestroy (vf q : Nat) (s : State) : Out := onVf s vf q (serveOldest vf q 0x4A serveDestroy s)
/-- RANDOM (R330). -/
def execRandom (vf q : Nat) (s : State) : Out := onVf s vf q (serveOldest vf q 0x50 serveRandom s)
/-- PING (R330). -/
def execPing (vf q : Nat) (s : State) : Out := onVf s vf q (serveOldest vf q 0x58 servePing s)

/-! ### Completion by a partition (R334, R353) -/

/-- R334 steps 2, 3: the output that word 7 of a record names. The vector is one of R69's pointers: a sealed one fails as they
do (DEDUCED, log 48). -/
def replyOutput (p side : Nat) (w7 : Word) : Enc Bytes :=
  if w7 == Word.nil then return []
  else if w7.ty == tyVEC && !w7.malformed && ptrPayOk w7.pay then encodeOutput p side w7
  else throw (.detail 0x32)
/-- R334 steps 2, 3: the reply of a request on a side. -/
def State.reply (s : State) (r : Req) (side off : Nat) : Option Reply × State :=
  let va := (s.part r.part).arenaVa + off
  let a := s.partRead r.part side (va + 7)
  match a.1 with
  | none => (none, a.2)
  | some w6 =>
    let b := a.2.partRead r.part side (va + 8)
    match b.1 with
    | none => (none, b.2)
    | some w7 =>
      let n := w6.pay.toNat
      if !w6.isFix || w6.sec || !(n == 0 || (0x8000 ≤ n && n ≤ 0xFFFF)) then (some { status := 0x0101, detail := 0x31 }, b.2)
      else
        let e := (replyOutput r.part side w7).run.run b.2
        match e.1 with
        | .error .walk => (none, e.2)
        | .error (.detail d) => (some { status := if d = 0x33 then 0x0105 else 0x0101, detail := d }, e.2)
        | .ok o =>
          if r.outLen < o.length then (some { status := 0x0101, detail := 0x30, outNeed := o.length }, e.2)
          else (some { status := BitVec.ofNat 16 n, out := o, outNeed := o.length }, e.2)
/-- R327, R41: the part of a completion that the twins write, its frame, SQHEAD and phase 0. -/
def completionBytes (r : Req) (frame sqhead phase : Nat) : Bytes :=
  bytesLE 2 r.cid ++ bytesLE 2 r.status.toNat ++ bytesLE 6 frame ++ bytesLE 2 sqhead
    ++ bytesLE 4 (r.q + phase * 2 ^ 16 + r.detail.toNat * 2 ^ 24) ++ bytesLE 4 r.outNeed ++ bytesLE 8 r.result.toNat ++ zeros 4
/-- R41: the digest of a twin's completion and output. -/
def replyDigest (r : Req) : BitVec 256 := BitVec.ofNat 256 (natLE (sha3_256 (completionBytes r 0 0 0 ++ r.out)))
/-- R331, R334: the output words in the reserve of the span. -/
def State.stageOut (s : State) (r : Req) (side : Nat) : Bool × State :=
  partWrites r.part side s ((s.part r.part).arenaVa + r.outOff)
    ((chunk 8 r.out).map fun b => Word.raw (BitVec.ofNat 64 (natLE b)))
/-- A reply as the completion of a request. -/
def Req.withReply (r : Req) (x : Reply) : Req :=
  { r with status := x.status, detail := x.detail, out := x.out, outNeed := x.outNeed, result := 0 }
/-- The digest, the reply staged and the reply being encoded of a side. -/
def Req.dig (r : Req) (side : Nat) : Option (BitVec 256) := if side = 0 then r.dig0 else r.dig1
def Req.rep (r : Req) (side : Nat) : Option Reply := if side = 0 then r.rep0 else r.rep1
def Req.stg (r : Req) (side : Nat) : Option (Nat × Reply) := if side = 0 then r.stg0 else r.stg1
def Req.setStg (r : Req) (side : Nat) (x : Option (Nat × Reply)) : Req :=
  if side = 0 then { r with stg0 := x } else { r with stg1 := x }
def Req.setRep (r : Req) (side : Nat) (x : Option Reply) (d : Option (BitVec 256)) : Req :=
  if side = 0 then { r with rep0 := x, dig0 := d } else { r with rep1 := x, dig1 := d }
/-- R32, R41, R43: a twin's reply, staged in frame `x.d`, takes effect: alone it is the completion of a single or degraded
partition; of two, the lower-numbered cell's is, where their digests are equal. -/
def Req.takeReply (r : Req) (p : Part) (side : Nat) (x : Reply) : Req :=
  let n := r.withReply x
  let d := replyDigest n
  let k := r.setRep side (some x) (some d)
  if !p.paired || p.degraded then { k.withReply x with done := some x.d }
  else match r.dig (1 - side), r.rep (1 - side) with
    | some e, some y =>
      { k.withReply (if p.cellOf side < p.cellOf (1 - side) then x else y) with done := some x.d, mis := e != d }
    | _, _ => { k.withReply x with firstD := x.d }
/-- R334 step 5: the reply of a side is staged, and its frame is that of R32. -/
def State.staged (s : State) (no side : Nat) (r : Req) (x : Reply) : State :=
  let r := r.setStg side none
  if r.done.isSome then s.setReq no (some r)
  else (s.setReq no (some (r.takeReply (s.part r.part) side { x with d := s.frame }))).putRecState no false
/-- R334: what has been encoded by now is staged. A lost twin's is not (R43). -/
def State.stageDue (s : State) : State :=
  s.reqList.foldl (fun s e => [0, 1].foldl (fun s side =>
    match s.req e.1 with
    | none => s
    | some r => match r.stg side with
      | some (c, x) => if c ≤ s.clock && !(s.part r.part).lostSide side then s.staged e.1 side r x else s
      | none => s) s) s
/-- R334: the ticket names a delivered request that this side has not accepted. -/
def Req.acceptable (q : Req) (p side ticket : Nat) : Bool :=
  q.part == p && q.op == 0x40 && q.recOff.isSome && q.ticket == ticket && q.delivered && q.done.isNone
    && !q.accepted.getLsbD side
/-- R334: request `no` is completed by the twin of `side`: ACCEPTED is set, the reply is read, and it is encoded at one word
per fabric cycle. What the encoding reads and writes is taken at once: the partition must leave it unchanged until STAGED. -/
def State.acceptReq (s : State) (no side : Nat) (r : Req) (off : Nat) : State :=
  let s := (s.setReq no (some { r with accepted := r.accepted ||| BitVec.ofNat 2 (2 ^ side) })).putRecState no false
  let x := s.reply r side off
  match x.1 with
  | none => x.2.arenaFault r.part side no
  | some y =>
    let w := x.2.stageOut { r with out := y.out } side
    if !w.1 then w.2.arenaFault r.part side no
    else (w.2.modReq no fun q => q.setStg side (some (w.2.clock + (y.out.length + 7) / 8, y))).stageDue
/-- R353: an ignored write of CLU_RQDONE. -/
def State.rqErr (s : State) (m reason p ticket : Nat) : State :=
  s.record .cluRqderr m (BitVec.ofNat 32 (reason * 2 ^ 24 + p % 64 * 2 ^ 16 + ticket))
/-- A write of CLU_RQDONE by core `c` on its cluster `m` (R334). -/
def rqdoneWrite (w : Who) (m : Nat) (v : BitVec 32) (s : State) : State :=
  let t := fld v 15 0
  match w with
  | .core c =>
    match (s.core c).part with
    | none => s.rqErr m 2 0 t
    | some p =>
      let side := s.sideOfCore c p
      match s.reqList.find? fun e => e.2.acceptable p side t with
      | none => s.rqErr m 1 p t
      | some e => match e.2.recOff with
        | none => s
        | some off => if (s.part p).runs && !(s.part p).lostSide side then s.acceptReq e.1 side e.2 off else s.rqErr m 1 p t
  | _ => s
/-- RQDONE (R334, R353). -/
def execRqdone (w : Who) (m : Nat) (v : BitVec 32) (s : State) : Out :=
  .next (s.writeReg w .cluRqdone m 0 (rqdoneWrite w m v))

/-! ### Release (R32, R33, R41 to R44, R322, R335) -/

/-- R42: a pair mismatch. -/
def State.pairMismatch (s : State) (p why : Nat) : State :=
  let v := s.rd .frmPairStat
  let s := if v.getLsbD 31 then s.wr .frmPairStat 0 0 (v ||| 0x40000000)
    else s.wr .frmPairStat 0 0 (BitVec.ofNat 32 (2 ^ 31 + fld v 30 30 * 2 ^ 30 + why % 4 * 2 ^ 8 + p % 64))
  (s.inc32 .frmPairMiscnt).alarmInput 11
/-- R42: the completion of a mismatch. -/
def Req.mismatched (r : Req) (frame : Nat) : Req :=
  { r with done := some frame, status := 0x0500, detail := 0, out := [], outNeed := 0, result := 0, mis := false,
           relFrm := some frame, fin := true }
/-- R41: the frames a lone digest may wait. -/
def State.waitMax (s : State) : Nat := max 1 (s.rdf .frmPairCfg 0 0 7 0)
/-- R41: a request of a pair that one digest alone has kept beyond WAITMAX. -/
def Req.loneExpired (r : Req) (waitmax frame : Nat) : Bool :=
  r.done.isNone && (r.dig0.isSome || r.dig1.isSome) && releaseFrame r.arr r.k r.firstD + waitmax ≤ frame
/-- R33: a completion falls due with the release frame `rel`: LATE, and FRM_LATEp; R381: the latency of an accepted `INVOKE`. -/
def State.fallDue (s : State) (no : Nat) (r : Req) (rel : Nat) : State :=
  let late := r.arr + r.k < rel
  let s := if late then s.inc32 .frmLate 0 r.part else s
  let s := if r.op == 0x40 && r.accepted != 0 then s.monFeed 1 r.part (BitVec.ofNat 32 (r.done.getD rel - r.arr)) else s
  s.setReq no (some { r with relFrm := some rel, fin := true, status := if late && r.status == 0 then 0x0001 else r.status })
/-- R33, R42: request `no` ends in a mismatch at this tick; one that is late counts. -/
def State.misReq (s : State) (no : Nat) (r : Req) (why : Nat) : State :=
  let s := if r.arr + r.k < s.frame then s.inc32 .frmLate 0 r.part else s
  (s.setReq no (some (r.mismatched s.frame))).pairMismatch r.part why
/-- R17 step 4: one outstanding command at the tick of the current frame. -/
def State.compareReq (s : State) (no : Nat) (r : Req) : State :=
  let q := s.part r.part
  if r.fin then s
  else match r.done with
    | some d =>
      let rel := releaseFrame r.arr r.k d
      if s.frame < rel then s
      else if r.mis then s.misReq no r 0
      else s.fallDue no r rel
    | none => if q.paired && !q.degraded && r.loneExpired s.waitMax s.frame then s.misReq no r 1 else s
/-- R17 step 4. -/
def State.compareAll (s : State) : State := s.reqList.foldl (fun s e => s.compareReq e.1 e.2) s
/-- R41: the check of WAITMAX for partition `p` alone. -/
def pairWaitmaxExpiry (p : Nat) (s : State) : State :=
  s.reqList.foldl (fun s e =>
    if e.2.part == p && (s.part p).paired && !(s.part p).degraded && !e.2.fin && e.2.loneExpired s.waitMax s.frame then
      s.misReq e.1 e.2 1
    else s) s
/-- PAIR_WAITMAX_EXPIRY (R41). -/
def execPairWaitmaxExpiry (p : Nat) (s : State) : Out := onPart s p (pairWaitmaxExpiry p s)

/-- The command is gone: its span is freed. -/
def State.dropReq (s : State) (no : Nat) (r : Req) : State := (s.freeSpan r.part no).setReq no none
/-- A byte of host memory. -/
def State.hostWrite (s : State) (a : Nat) : Bytes → State
  | [] => s
  | b :: t => State.hostWrite { s with hostMem := Tab.set (fun _ => 0) s.hostMem (a % 2 ^ 64) b } (a + 1) t
/-- R325, R335: output bytes go to the pieces of an output buffer in order. -/
def hostScatter : List (Nat × Nat) → Bytes → State → State
  | [], _, s => s
  | (a, n) :: t, b, s => hostScatter t (b.drop n) (s.hostWrite a (b.take n))
/-- R322, R327: one entry of a CQ is written. -/
def State.postEntry (s : State) (f q : Nat) (b : Bytes) : State :=
  let x := s.qst f q
  let n := s.cqsz f q + 1
  let s := s.hostWrite (s.qaddr .qpCqbase .qpCqbaseh f q + 32 * x.cqTail) b
  s.setQst f q { x with cqTail := (x.cqTail + 1) % n, phase := if x.cqTail + 1 = n then !x.phase else x.phase,
                        used := x.used + 1 }
/-- R335: an output that cannot be written: the completion says so, and HCI_ERR and the HCI log record it. -/
def Req.noOutput (r : Req) : Req := { r with status := 0x0101, detail := 0x21, out := [], outNeed := 0 }
/-- A completion that has fallen due: of an I/O command, by its number, or of an admin command. -/
inductive Due where
  | io (no : Nat) (r : Req)
  | adm (d : AdmDone)
  deriving DecidableEq, Repr
/-- The request whose completion a finished admin command posts. -/
def AdmDone.req (d : AdmDone) : Req :=
  { vf := 0, q := d.cmd.q, op := d.cmd.op, cid := d.cmd.cid, part := 0, cls := 0, arr := d.cmd.arr, ps := [],
    outAddr := d.cmd.outAddr, outLen := d.cmd.outLen, outSgl := d.cmd.outSgl, status := d.status, detail := d.detail, out := d.out,
    outNeed := d.out.length, result := d.result, discard := d.cmd.discard, stalled := d.stalled, relFrm := some (d.fin + 1) }
/-- The completion, and its place in the fetch order. -/
def Due.req : Due → Req
  | .io _ r => r
  | .adm d => d.req
def Due.no : Due → Nat
  | .io n _ => n
  | .adm d => d.cmd.no
/-- The completion is kept, as `f` changes it. -/
def State.keepDue (s : State) (x : Due) (f : Req → Req) : State :=
  match x with
  | .io no r => s.setReq no (some (f r))
  | .adm d =>
    let r := f d.req
    { s with admDone := s.admDone ++ [{ d with status := r.status, detail := r.detail, out := r.out, stalled := r.stalled }] }
/-- The completion is gone. -/
def State.dropDue (s : State) (x : Due) : State :=
  match x with
  | .io no r => s.dropReq no r
  | .adm _ => s
/-- R322, R335: a completion that has fallen due is posted, held or discarded; and whether it was posted. -/
def State.postDue (s : State) (x : Due) : State × Bool :=
  let r := x.req
  let f := r.vf
  let k := s.qst f r.q
  if r.discard || !s.qEn f r.q then (s.dropDue x, false)
  else if k.err then (s.keepDue x id, false)
  else if s.cqsz f r.q + 1 ≤ k.used then
    (if r.stalled then s.keepDue x id else (s.keepDue x fun r => { r with stalled := true }).inc32 .hciCqstall, false)
  else if !s.canDma f then
    ((if r.out.isEmpty then s.keepDue x id else (s.hciError 7 f r.q r.cid).keepDue x Req.noOutput).queueError f r.q 4, false)
  else
    let s := hostScatter (if r.outSgl.isEmpty then [(r.outAddr, r.outLen)] else r.outSgl) r.out s
    let s := s.postEntry f r.q (completionBytes r (r.relFrm.getD s.frame) k.sqHead (b2n k.phase))
    (s.dropDue x, true)
/-- R322: the order of posting at one tick: arrival frame, function, SQ, fetch order. -/
def postBefore (a b : Due) : Bool :=
  if a.req.arr != b.req.arr then a.req.arr < b.req.arr
  else if a.req.vf != b.req.vf then a.req.vf < b.req.vf
  else if a.req.q != b.req.q then a.req.q < b.req.q
  else a.no ≤ b.no
def insPost (x : Due) : List Due → List Due
  | [] => [x]
  | y :: t => if postBefore y x then y :: insPost x t else x :: y :: t
/-- R322: completions are posted in order; then each queue's interrupt, once. -/
def State.postAll (s : State) (l : List Due) : State :=
  let r := (l.foldl (fun l e => insPost e l) []).foldl (fun (a : State × List (Nat × Nat)) e =>
    let x := a.1.postDue e
    let k := (e.req.vf, e.req.q)
    (x.1, if x.2 && !a.2.contains k then a.2 ++ [k] else a.2)) (s, [])
  r.2.foldl (fun s k => if s.qIen k.1 k.2 then s.sendMsix k.1 k.2 else s) r.1
/-- R329: the admin commands that the Shed finished before this frame; none while it zeroizes. -/
def State.admDue (s : State) : List AdmDone := if s.alm.zbusy then [] else s.admDone.filter fun d => d.fin < s.frame
/-- The finished admin commands `l` are taken to be posted. -/
def State.takeAdm (s : State) (l : List AdmDone) : State := { s with admDone := s.admDone.filter fun d => !l.contains d }
/-- R17 step 5, R322: every completion that has fallen due is posted; those of I/O commands stay held in a freeze. -/
def State.releaseAll (s : State) : State :=
  let due := s.reqList.filter fun e => e.2.fin && (e.2.relFrm.getD 0) ≤ s.frame
  let s := (due.filter fun e => e.2.discard).foldl (fun s e => s.dropReq e.1 e.2) s
  let io := if s.frozen then [] else (due.filter fun e => !e.2.discard).map fun e => Due.io e.1 e.2
  (s.takeAdm s.admDue).postAll (io ++ s.admDue.map Due.adm)
/-- ADMIN_COMPLETION_POST (R329, R339): at the tick that opened this frame, the commands finished before it are posted. -/
def adminCompletionPost (s : State) : State := (s.takeAdm s.admDue).postAll (s.admDue.map Due.adm)
/-- ADMIN_COMPLETION_POST (R329). -/
def execAdminCompletionPost (s : State) : Out := .next (adminCompletionPost s)

/-! ### Ends of partitions (R43, R344, R346, R347) -/

/-- A command completes with `status` at the tick of frame `f`. -/
def Req.endAt (r : Req) (f : Nat) (status : BitVec 16) (detail : BitVec 8 := 0) : Req :=
  { r.finish f status detail with relFrm := some f, fin := true, mis := false }
/-- R43: one command of a partition that runs degraded from this tick on, `side` surviving: the survivor's reply alone
counts. A completion whose release frame has passed is released at this tick; the lost twin's reply is gone. -/
def State.degradeReq (s : State) (no side : Nat) (r : Req) : State :=
  let r := (r.setStg (1 - side) none).setRep (1 - side) none none
  match r.rep side with
  | none => s.setReq no (some { r with done := none, mis := false })
  | some x =>
    let r := { r.withReply x with done := some x.d, mis := false }
    let rel := releaseFrame r.arr r.k x.d
    if s.frame ≤ rel then s.setReq no (some r) else s.fallDue no r s.frame
/-- R43: from this tick partition `p` runs degraded. Commands whose digests are both present and equal are as they were. -/
def State.degradeReqs (s : State) (p : Nat) : State :=
  let side := if (s.part p).lost == 1 then 1 else 0
  s.reqList.foldl (fun s e =>
    let r := e.2
    if r.part != p || r.op != 0x40 || r.recOff.isNone || r.fin || (r.done.isSome && !r.mis) then s else s.degradeReq e.1 side r) s
/-- R347: the completion of a request is ACCEPTED by every twin that must complete it, and is handled once it is staged. -/
def Req.awaited (r : Req) (p : Part) : Bool :=
  if p.paired && !p.degraded then
    p.sides.all fun side => (r.rep side).isSome || ((r.stg side).isSome && !p.lostSide side)
  else p.live.any fun side => (r.stg side).isSome
/-- R347: partition `p` is fault-stopped at this tick. -/
def State.faultReqs (s : State) (p : Nat) (status : BitVec 16) : State :=
  let s := s.reqList.foldl (fun s e =>
    if e.2.part == p && e.2.done.isNone && !e.2.awaited (s.part p) then s.setReq e.1 (some (e.2.endAt s.frame status)) else s) s
  s.modPart p fun q => { q with dlv0 := [], dlv1 := [] }
/-- R346: PART_STOP takes effect at this tick: requests that are not accepted are abandoned. -/
def State.stopReqs (s : State) (p : Nat) : State :=
  let s := s.reqList.foldl (fun s e =>
    if e.2.part == p && e.2.op == 0x40 && e.2.done.isNone && e.2.accepted == 0 then
      (s.putRecState e.1 true).modReq e.1 fun r => r.endAt s.frame 0x0102 0x34
    else s) s
  s.modPart p fun q => { q with dlv0 := [], dlv1 := [] }
/-- R344: PART_DESTROY: every command outstanding completes with 0x0102 at the next tick. -/
def State.destroyReqs (s : State) (p : Nat) : State :=
  s.reqList.foldl (fun s e => if e.2.part == p then s.setReq e.1 (some (e.2.endAt (s.frame + 1) 0x0102)) else s) s

/-! ### Function resets (R318) -/

/-- R323: the queue registers of function `f` clear, and so does its MSI-X table (PRESUMED, the PCI Express reset; log 46). -/
def State.clearQueues (s : State) (f : Nat) : State :=
  let s := { s with msixTab := Tab.drop (fun k => k / 2 ^ 12 == f) s.msixTab, pba := Tab.drop (fun k => k / 32 == f) s.pba }
  let s := (List.range 16).foldl (fun s q => s.setQst f q {}) s
  if f = 0 then
    [RegName.qpSqbase, .qpSqbaseh, .qpCqbase, .qpCqbaseh, .qpSize, .qpCtl, .qpSqtail, .qpCqhead].foldl (fun s n =>
      (List.range 16).foldl (fun s q => s.wr n 0 q 0) s) s
  else { s with vfbar := Tab.drop (fun k => k / 0x4000 == f) s.vfbar }
/-- R318: FLR of VF `f`. -/
def State.flrVf (s : State) (f : Nat) : State :=
  let s := s.clearQueues f
  s.reqList.foldl (fun s e =>
    if e.2.vf != f then s
    else if e.2.done.isSome then s.dropReq e.1 e.2
    else s.setReq e.1 (some { e.2 with discard := true })) s
/-- R318: FLR of the PF, a hot reset or a link that goes down: every VF's FLR, and the admin queues. -/
def State.flrPf (s : State) : State :=
  let s := ((List.range s.build.parts).foldl (fun s i => s.flrVf (i + 1)) s).clearQueues 0
  (State.modPwr { s with adm := s.adm.map (fun a => { a with discard := true }), admDone := [] } fun w => { w with numVf := 0 })
/-- FLR (R318, R351). -/
def execFlr (vf : Nat) (s : State) : Out :=
  if !s.funcOk vf then .next s
  else .next ((if vf = 0 then s.flrPf else s.flrVf vf).hciLogRec 8 vf 0xFF 0 0)
/-- LINK_DOWN (R318). -/
def execLinkDown (s : State) : Out := .next (if s.pwr.link then (s.flrPf).modPwr fun w => { w with link := false } else s)
/-- R316, R318: the host configures the functions of a part that is ready: it enables the first `numVf` VFs, and the functions
in `noBm` have Bus Master Enable 0. -/
def State.hostConfig (s : State) (numVf : Nat) (noBm : List Nat) : State :=
  s.modPwr fun w => { w with numVf := min numVf s.build.parts, bme := noBm.foldl (fun t f => Tab.set (fun _ => true) t f false) [] }
/-- LINK_UP (R318): the link trains, or stands, and the host configures the functions, once configuration requests succeed
(R317). -/
def execLinkUp (s : State) (numVf : Nat := 0) (noBm : List Nat := []) : Out :=
  .next (if s.pwr.perst then s
    else
      let s := s.modPwr fun w => { w with link := true }
      if s.pwr.ready then s.hostConfig numVf noBm else s)

end Sys2Proof.Machine
end

