-- ==== Sys2Proof/Machine/Admin.lean ====
section
/-!
DEFINITION. Admin commands (R324 to R329, R337 to R345, R349): their fetch, the warden's part in them (R372, R373), each
command's execution, firmware bundles (R389 to R394), tokens (R408 to R410), and the posting of their completions; the
event log's taking of unit records (R376).
-/
namespace Sys2Proof.Machine

/-! ### Fetch (R326, R338) -/

/-- R338: what is fixed of an opcode: whether TARGET names a partition (1), a cell (2) or nothing (0), the parameters used,
the exact input length where it is fixed, the least output length. -/
structure AdmRow where
  target : Nat
  params : Nat
  inp : Option Nat
  out : Nat
/-- The row of an opcode of the PF; none where it is not assigned. -/
def admRow (b : Build) (c : HostCmd) : Option AdmRow :=
  let p := dwAt (cmdPs c)
  match HostCmdOp c with
  | 0x01 => some ⟨if p 0 == 1 then 1 else 0, if p 0 == 2 then 2 else 1, some 0, 4096⟩
  | 0x02 => some ⟨0, 3, some 0, if (p 2).toNat ≤ 256 then 16 * (p 2).toNat else 0⟩
  | 0x03 => some ⟨0, 2, some 0, 0⟩
  | 0x04 => some ⟨0, 1, some 0, 0⟩
  | 0x08 => some ⟨0, 2, none, 0⟩
  | 0x09 => some ⟨0, 1, some 0, 0⟩
  | 0x10 => some ⟨1, 0, some 128, 0⟩
  | 0x11 | 0x12 | 0x13 => some ⟨1, 0, some 0, 0⟩
  | 0x14 => some ⟨1, 1, some 128, 0⟩
  | 0x15 => some ⟨1, 0, none, 0⟩
  | 0x16 => some ⟨1, 1, some 0, 0⟩
  | 0x18 => some ⟨2, 3, some ((p 1).toNat * (b.coresPerCell + 4)), 0⟩
  | 0x19 | 0x1A => some ⟨2, 0, some 0, 0⟩
  | 0x20 => some ⟨0, 2, some 0, if (p 1).toNat ≤ 48 then 128 * (p 1).toNat else 0⟩
  | 0x21 => some ⟨0, 2, some 0, 0⟩
  | 0x30 => some ⟨0, 0, none, 0⟩
  | 0x3E | 0x3F => some ⟨0, 1, some 0, 0⟩
  | _ => none
/-- R326 step 2 for an admin command. -/
def admBitsOk (r : AdmRow) (c : HostCmd) : Bool :=
  cmdFlags c < 4 && cmdTarget c < (match r.target with | 1 => 64 | 2 => 4 | _ => 1) && restZero c r.params
/-- R326 step 3 for an admin command. -/
def admLensOk (r : AdmRow) (c : HostCmd) : Bool :=
  cmdInLen c ≤ maxLen && cmdOutLen c ≤ maxLen && r.out ≤ cmdOutLen c
    && (match r.inp with | some n => cmdInLen c == n | none => true)
/-- R338: the value field of a feature. -/
def featureMax (id : Nat) : Nat := match id with | 1 => 4 | 2 => 0x100 | 3 => 0x10000 | 4 => 0x10000 | _ => 0
/-- R326 step 4 for an admin command. -/
def admParamsOk (b : Build) (r : AdmRow) (c : HostCmd) : Bool :=
  let p := fun i => (dwAt (cmdPs c) i).toNat
  (r.target != 1 || cmdTarget c < b.parts) && (r.target != 2 || cmdTarget c < b.cells)
    && (match HostCmdOp c with
        | 0x01 => p 0 ≤ 2 && (p 0 != 2 || (1 ≤ p 1 && p 1 ≤ b.parts))
        | 0x02 => 1 ≤ p 2 && p 2 ≤ 256 && (p 0 == 1 || p 0 == 0x20 || (0x10 ≤ p 0 && p 0 < 0x10 + b.cells))
        | 0x03 => p 1 < featureMax (p 0)
        | 0x04 => 0 < featureMax (p 0)
        | 0x08 => p 0 % 4096 == 0
        | 0x09 => p 0 ≤ 1
        | 0x14 => p 0 < 64
        | 0x16 => p 0 < b.cells
        | 0x18 => p 0 + p 1 ≤ 256 && 1 ≤ p 2 && p 2 ≤ 256
        | 0x20 => 1 ≤ p 1 && p 1 ≤ 48 && p 0 + p 1 ≤ 48
        | 0x21 => p 1 < 2 ^ 16
        | 0x3E => p 0 == 0x534C4550
        | 0x3F => p 0 == 0x5A45524F
        | _ => true)
/-- R326: how the fetch of an admin command fails: status and DETAIL. -/
def admFetchFault (b : Build) (c : HostCmd) (dma : DmaRes) : Option (BitVec 16 × BitVec 8) :=
  match admRow b c with
  | none => some (0x0100, 0)
  | some r =>
    if !admBitsOk r c then some (0x0101, 0x01)
    else if !admLensOk r c then some (0x0101, 0x02)
    else if !admParamsOk b r c then some (0x0101, 0x03)
    else if !sglsOk c then some (0x0101, 0x07)
    else if dma == .inError then some (0x0101, 0x20)
    else if dma == .outError then some (0x0101, 0x21)
    else none
/-- R326, R337: a fetched admin command. -/
def admFetch (q : Nat) (c : HostCmd) (input : Bytes) (dma : DmaRes) (s : State) : State :=
  let s := s.sqAdvance 0 q
  let s := { s with reqNo := s.reqNo + 1 }
  let a : Adm := { arr := s.arrival, no := s.reqNo - 1,
                   q := q, cid := cmdCid c, op := HostCmdOp c, target := cmdTarget c, ps := cmdPs c,
                   inp := fitBytes (cmdInLen c) input, outAddr := qwAt c.dw 5, outLen := cmdOutLen c,
                   outSgl := if cmdOutSgl c then sglData c.outSgl else [] }
  match admFetchFault s.build c dma with
  | some (st, det) =>
    let s := if det = 0x20 then s.hciError 6 0 q (cmdCid c) else if det = 0x21 then s.hciError 7 0 q (cmdCid c) else s
    let x : AdmDone := { cmd := { a with inp := [] }, status := st, detail := det, fin := s.frame }
    { s.logRefused 0 q st det (cmdCid c) with admDone := s.admDone ++ [x] }
  | none => { s with adm := s.adm ++ [a] }
/-- COMMAND_FETCH (R321, R326): the queue whose turn it is. -/
def commandFetch (f q : Nat) (c : HostCmd) (input : Bytes) (dma : DmaRes) (s : State) : State :=
  if !s.canFetch f q then s
  else
    let s := s.turnTaken f q
    if dma == .sqError then s.queueError f q 3
    else if f = 0 then admFetch q c input dma s
    else ioFetch f q c input dma s
/-- COMMAND_FETCH (R326). -/
def execCommandFetch (vf q : Nat) (cmd : HostCmd) (input : Bytes) (dma : DmaRes) (s : State) : Out :=
  .next (if !s.funcOk vf || 16 ≤ q then s else commandFetch vf q cmd input dma s)

/-! ### Execution (R337, R339) -/

/-- R339: opcodes that an alarm in force does not refuse. -/
def alarmAdmits : List Nat := [0x01, 0x02, 0x04, 0x20, 0x30, 0x3E, 0x3F]
/-- The command at the head of the queue is executed by `f` where it is of opcode `op` and nothing is waited for. -/
def State.admRun (s : State) (op : Nat) (f : Adm → State → State) : State :=
  match s.adm with
  | [] => s
  | a :: _ =>
    if s.shedUp && s.admWait == .none && a.op == op && !s.alm.zbusy then
      (if s.alm.inforce && !alarmAdmits.contains op then s.admFinish 0x0400 else f a s)
    else s
/-- A parameter of a command. -/
def Adm.p (a : Adm) (i : Nat) : Nat := (dwAt a.ps i).toNat
/-- A little-endian field of its input. -/
def Adm.fieldLE (a : Adm) (off n : Nat) : Nat := natLE ((a.inp.drop off).take n)

/-! ### Wardens (R372, R373) -/

/-- R372: a request goes to the warden of cell `n`, with words for its staging buffer; before its HELLO it waits. -/
def State.toWarden (s : State) (n : Nat) (m : List (BitVec 32)) (ws : List Word) : State :=
  if (s.cell n).hello then (agentWrites s (s.cell n).stagePa ws).sendMsg (n + 1) m
  else s.modCell n fun k => { k with held := some (m, ws) }
/-- A request to the wardens of `cells`, whose ACKs the command waits for. -/
def State.askWardens (s : State) (cells : List Nat) (type len : Nat) (body : List (BitVec 32)) (ws : List Word) : State :=
  let q := (s.shd.seq + 1) % 256
  let s := s.modShd fun d => { d with seq := q }
  let s := cells.foldl (fun s n => (s.modCell n fun k => { k with askFrm := none }).toWarden n (mkMsg 0 len q type body) ws) s
  { s with admWait := .ack cells q }
/-- R345, R373: the cells whose wardens a partition's commands concern. -/
def Part.askCells (q : Part) : List Nat := (q.sides.filter fun x => !q.lostSide x || q.repaired).map q.cellOf
/-- R372: the words of an image body, or of a partition block. -/
def blockWords (b : Bytes) : List Word := (dwords b).map fun d => Word.nat d.toNat
/-- R342: the body of an image. -/
def Adm.body (a : Adm) : Bytes := (a.inp.drop (32 + a.fieldLE 16 4)).take (a.fieldLE 20 4)
/-- R344, R373: partition `p` returns to ABSENT; its key range, late count and generators are cleared. -/
def State.partGone (s : State) (p : Nat) : State :=
  let s := { s with strands := Tab.drop (fun k => k / 128 == p) s.strands }
  (((s.setPart p {}).wr .kstPbase 0 p 0).wr .kstPcnt 0 p 0).wr .frmLate 0 p 0
/-- R373: every ACK has come. -/
def State.ackDone (s : State) (a : Adm) : State :=
  let p := a.target % 64
  match a.op with
  | 0x11 => (s.partGone p).admFinish 0
  | 0x13 => { s.modPart p fun q => { q with startPend := true } with admWait := .startTick }
  | 0x15 =>
    let v := a.fieldLE 8 4
    (s.modPart p fun q => { q with st := 2, imgVer := v }).admFinish 0 0 [] (BitVec.ofNat 64 v)
  | _ => s.admFinish 0
/-- R373: a warden refused, failed or did not answer in time. -/
def State.ackFailed (s : State) (a : Adm) : State :=
  let p := a.target % 64
  let s := s.logCode 0x03 p (BitVec.ofNat 32 a.op)
  let s := s.cellIds.foldl (fun s n => s.modCell n fun k => { k with held := none }) s
  let s := match a.op with
    | 0x10 => s.partGone p
    | 0x11 => s.modPart p fun q => { q with st := 5 }
    | _ => s
  s.admFinish 0x0300
/-- R373: an ACK of the warden of cell `n` with a SEQ and STATUS. -/
def State.takeAck (s : State) (n seq status : Nat) : State :=
  match s.admWait, s.adm with
  | .ack cells q, a :: _ =>
    if q != seq || !cells.contains n then s
    else if status != 0 then s.ackFailed a
    else
      let rest := cells.filter (· != n)
      if rest.isEmpty then s.ackDone a else { s with admWait := .ack rest q }
  | _, _ => s
/-- WARDEN_ACK (R372, R373). -/
def wardenAck (n : Nat) (s : State) : State :=
  let k := n + 1
  if s.inType k == some 0x11 then
    let h := s.inDw k 0
    (s.inDone k).takeAck n (fld h 15 8) (fld h 31 24)
  else s
/-- WARDEN_ACK (R372, R373). -/
def execWardenAck (n : Nat) (s : State) : Out := onCell s n (wardenAck n s)
/-- R373: the time for an ACK of the warden of cell `n` is over, counted from OUTVALID. A request held for a HELLO that cannot
come, as its cell is STOPPED or DOWN, is given up too (DESIGN CHOICE, log 55). -/
def State.ackLate (s : State) (n : Nat) : Bool :=
  match (s.cell n).askFrm with
  | some f => f + 1024 * max 1 (s.rdf .shdWdto 0 0 15 0) ≤ s.frame
  | none => (s.cell n).held.isSome && s.cellIdle n
/-- WARDEN_TIMEOUT (R373). -/
def wardenTimeout (n : Nat) (s : State) : State :=
  match s.admWait, s.adm with
  | .ack cells _, a :: _ => if cells.contains n && s.shedUp && s.ackLate n then s.ackFailed a else s
  | _, _ => s
/-- WARDEN_TIMEOUT (R373). -/
def execWardenTimeout (n : Nat) (s : State) : Out := onCell s n (wardenTimeout n s)
/-- R372: the request held for the warden of cell `n` goes out with its HELLO; an image body that exceeds the staging buffer
is not sent. -/
def State.sendHeld (s : State) (n : Nat) : State :=
  match (s.cell n).held with
  | none => s
  | some (m, ws) =>
    let s := s.modCell n fun k => { k with held := none }
    if (s.cell n).stageLen < ws.length && fld (m.headD 0) 7 0 == 0x91 then
      (match s.admWait with | .ack _ _ => s.admFinish 0x0101 0x02 | _ => s)
    else s.toWarden n m ws
/-- HELLO (R372, R443). -/
def helloMsg (n : Nat) (s : State) : State :=
  let k := n + 1
  if s.inType k == some 0x10 then
    State.sendHeld ((s.inDone k).modCell n fun c =>
      { c with hello := true, stagePa := qwAt [s.inDw k 1, s.inDw k 2] 0 % 2 ^ 39, stageLen := (s.inDw k 3).toNat,
               resolved := c.resolved || c.helloWait, helloWait := false }) n
  else s
/-- HELLO (R372). -/
def execHello (n : Nat) (s : State) : Out := onCell s n (helloMsg n s)

/-! ### Device commands -/

/-- FRM_STATUS. -/
def State.frmStatus (s : State) : BitVec 32 :=
  BitVec.ofNat 32 (s.cellIds.foldl (fun a n => a + b2n ((s.cell n).st == 2) * 2 ^ (8 + n)) 0 + b2n s.frozen * 2 + b2n s.ticking)
/-- R350: HCI_STATUS. -/
def State.hciStatus (s : State) : BitVec 32 :=
  BitVec.ofNat 32 (b2n s.pwr.ready * 2 ^ 31 + b2n s.alm.inforce * 2 ^ 30 + b2n s.frozen * 2 ^ 29 + s.pwr.numVf % 128 * 2 ^ 16
    + b2n (!s.adm.isEmpty || s.shd.busyStuck) * 2 ^ 8)
/-- R340: bytes 4 to 127 of a partition's block. -/
def State.partBlock (s : State) (p : Nat) : Bytes :=
  let q := s.part p
  bytesLE 4 (s.rd .kstPbase 0 p).toNat ++ bytesLE 4 (s.rd .kstPcnt 0 p).toNat ++ zeros 4 ++ bytesLE 8 q.ctx0 ++ bytesLE 8 q.ctx1
    ++ bytesLE 8 q.arenaVa ++ bytesLE 4 q.arenaLen ++ zeros 4
    ++ ((List.range 16).map fun i => BitVec.ofNat 8 (if i < 14 then s.kOf p i else 0)) ++ bytesLE 32 q.imgKey.toNat
    ++ bytesLE 4 q.minVer ++ zeros 28
/-- R341: the IDENTIFY reply. -/
def State.identify (s : State) (a : Adm) : Bytes :=
  let b := s.build
  fitBytes 4096 (match a.p 0 with
    | 0 =>
      bytesLE 4 b.glbId ++ bytesLE 1 b.cells ++ bytesLE 1 b.clusters ++ bytesLE 1 b.cores ++ bytesLE 1 b.parts ++ bytesLE 4 b.slots
        ++ bytesLE 4 s.periodSel ++ bytesLE 8 s.frame
        ++ ((List.range 3).flatMap fun n => bytesLE 8 (if n < b.cells then s.capLines n else 0))
        ++ ((List.range 3).flatMap fun i => bytesLE 4 (Config.version s.shd.bundleVer i).toNat) ++ zeros 4
        ++ dwBytes ((List.range 8).map fun i => s.rd .cluCsmeas 0 i)
    | 1 =>
      let p := a.target % 64
      let q := s.part p
      if q.st = 0 then []
      else bytesLE 1 q.st ++ bytesLE 1 q.cell0 ++ bytesLE 1 (if q.paired then q.cell1 else 0)
        ++ bytesLE 1 (b2n q.paired + 2 * b2n q.degraded) ++ s.partBlock p ++ bytesLE 4 q.imgVer ++ bytesLE 4 (s.rd .frmLate 0 p).toNat
    | _ =>
      bytesLE 2 ((List.range 16).foldl (fun x q => x + b2n (s.qEn (a.p 1) q) * 2 ^ q) 0) ++ bytesLE 1 (a.p 1 - 1))
/-- IDENTIFY (R341). -/
def execIdentify (s : State) : Out := .next (s.admRun 0x01 fun a s => s.admFinish 0 0 (s.identify a))
/-- R426: the record of a SEQ of a cell's error log. -/
def State.elogBytes (s : State) (n q : Nat) : Bytes :=
  if q != 0 && Tab.get (fun _ => 0) (s.cell n).elogSeq (q % 64) == q then dwBytes ((List.range 4).map (s.elogDw n q)) else zeros 16
/-- R351: the record of a SEQ of the HCI log. -/
def State.hciBytes (s : State) (q : Nat) : Bytes :=
  match Tab.get (fun _ => (none : Option HciRec)) s.shd.hciLog q with
  | some r => bytesLE 4 q ++ bytesLE 6 r.frame ++ bytesLE 1 r.event ++ bytesLE 1 r.func ++ bytesLE 1 r.queue ++ bytesLE 1 r.detail
      ++ bytesLE 2 r.cid
  | none => zeros 16
/-- R377, R426, R351: the records that GET_LOG returns. -/
def State.getLog (s : State) (id first count : Nat) : Bytes :=
  if id = 1 then logRecs s first count
  else (List.range count).flatMap fun i =>
    let q := if first == 0 && i == 0 then 0 else seqAdd first i
    if id = 0x20 then s.hciBytes q else s.elogBytes (id - 0x10) q
/-- GET_LOG (R338). -/
def execGetLog (s : State) : Out := .next (s.admRun 0x02 fun a s => s.admFinish 0 0 (s.getLog (a.p 0) (a.p 1) (a.p 2)))
/-- R338: SET_FEATURE. -/
def setFeature (a : Adm) (s : State) : State :=
  let v := a.p 1
  match a.p 0 with
  | 1 => if s.cellIds.all s.cellIdle then (s.wrf .frmPeriod 0 0 1 0 v).admFinish 0 else s.admFinish 0x0103
  | 2 => if s.pairRuns then s.admFinish 0x0103 else (s.wrf .frmPairCfg 0 0 7 0 v).admFinish 0
  | 3 => if s.pairRuns then s.admFinish 0x0103 else (s.wrf .kstReseed 0 0 15 0 v).admFinish 0
  | _ => (s.cellIds.foldl (fun s n => s.wrf .homeHoectl (4 * n) 0 31 16 v) s).admFinish 0
/-- SET_FEATURE (R338). -/
def execSetFeature (s : State) : Out := .next (s.admRun 0x03 setFeature)
/-- R338: the value of a feature. -/
def State.feature (s : State) (id : Nat) : Nat :=
  match id with
  | 1 => s.periodSel
  | 2 => s.rdf .frmPairCfg 0 0 7 0
  | 3 => s.rdf .kstReseed 0 0 15 0
  | _ => s.rdf .homeHoectl 0 0 31 16
/-- GET_FEATURE (R338). -/
def execGetFeature (s : State) : Out :=
  .next (s.admRun 0x04 fun a s => s.admFinish 0 0 [] (BitVec.ofNat 64 (s.feature (a.p 0))))
/-- MON_READ (R384): each monitor from one snapshot of the Shed's bank. -/
def monRead (a : Adm) (s : State) : State :=
  let ms := (List.range (a.p 1)).map fun i => a.p 0 + i
  (ms.foldl (fun s m => s.takeSnap 1 m) s).admFinish 0 0 (ms.flatMap fun m => s.monBytes m (s.monitor m))
/-- MON_READ (R384). -/
def execMonRead (s : State) : Out := .next (s.admRun 0x20 monRead)
/-- MON_CLEAR (R382, R384). -/
def execMonClear (s : State) : Out :=
  .next (s.admRun 0x21 fun a s => (monClrWrite true (dwAt a.ps 1) (monClrWrite false (dwAt a.ps 0) s)).admFinish 0)

/-! ### Firmware (R389 to R394) -/

/-- R394: the copy of the slot control that wins. -/
def Shd.ctlWins (d : Shd) : Option (Bool × SlotCtl) :=
  if d.ctl0.good && (!d.ctl1.good || d.ctl1.gen ≤ d.ctl0.gen) then some (false, d.ctl0)
  else if d.ctl1.good then some (true, d.ctl1) else none
/-- The slot control in force, of slot A where no copy is good. -/
def Shd.ctl (d : Shd) : SlotCtl := (d.ctlWins.map Prod.snd).getD {}
/-- R394: the other copy is written. -/
def Shd.ctlPut (d : Shd) (f : SlotCtl → SlotCtl) : Shd :=
  let n := { f d.ctl with good := true, gen := d.ctl.gen + 1 }
  match d.ctlWins with
  | some (false, _) => { d with ctl1 := n }
  | _ => { d with ctl0 := n }
/-- R392: the slot that the last cold boot did not run. -/
def Shd.spareSlot (d : Shd) : Nat := 1 - d.slot % 2
/-- R392: the fragment is refused. -/
def Shd.stageBad (d : Shd) (off len n : Nat) : Bool :=
  0x1000000 < len || len < off + n || (n % 4096 != 0 && off + n != len)
    || (off != 0 && (d.stageLen != some len || (List.range ((n + 4095) / 4096)).any fun i => d.pages.contains (off / 4096 + i)))
/-- R392: a fragment at offset 0 starts a new staging: any pending mark on the slot goes and its blocks are erased. -/
def Shd.stageBegin (d : Shd) (len : Nat) : Shd :=
  let t := d.spareSlot
  let d := if d.ctl.pendFlag && d.ctl.pend == t then d.ctlPut fun c => { c with pendFlag := false, trial := 0 } else d
  let d := (List.range ((len + 65535) / 65536)).foldl (fun d i => d.eraseBlock (t * 256 + i)) d
  { d with stageLen := some len, pages := [] }
/-- FW_STAGE (R392): `ok` false is a flash failure. -/
def fwStage (ok : Bool) (a : Adm) (s : State) : State :=
  let off := a.p 0
  let len := a.p 1
  let n := a.inp.length
  if s.shd.stageBad off len n then s.admFinish 0x0101 0x03
  else
    let s := if off = 0 then s.modShd fun d => d.stageBegin len else s
    if !ok then s.admFinish 0x0101 0x20
    else
      (s.modShd fun d =>
        { d.program (slotBase d.spareSlot + off) a.inp with
          pages := (List.range ((n + 4095) / 4096)).map (fun i => off / 4096 + i) ++ d.pages }).admFinish 0
/-- FW_STAGE (R392). -/
def execFwStage (flashOk : Bool) (s : State) : Out := .next (s.admRun 0x08 (fwStage flashOk))

/-- R390: the section table is well formed. -/
def State.sectionsOk (s : State) (slot : Nat) : Bool :=
  let f := s.bundleField slot
  let n := f 24 4
  let signed := f 28 4
  let ty := fun i => f (64 + 48 * i) 4
  let count := fun t => ((List.range (min 16 n)).filter fun i => ty i == t).length
  1 ≤ n && n ≤ 16 && count 1 == 1 && count 2 == 1 && count 4 == 1 && count 3 ≤ 1
    && ((List.range 16).all fun i =>
      let e := 64 + 48 * i
      if n ≤ i then (s.flashBytes (slotBase slot + e) 48).all (· == 0)
      else 1 ≤ ty i && ty i ≤ 4 && f (e + 4) 4 % 4096 == 0 && 4096 ≤ f (e + 4) 4 && f (e + 4) 4 + f (e + 8) 4 ≤ signed
        && f (e + 12) 4 == 0 && (ty i != 2 || f (e + 8) 4 == 8192 * 12))
/-- R389, R393: magic, format, lengths, section table and build bits match this part; `len` is the staged length where one
is recorded. -/
def State.bundleForm (s : State) (slot : Nat) (len : Option Nat) : Bool :=
  let f := s.bundleField slot
  let zero := fun off n => (s.flashBytes (slotBase slot + off) n).all (· == 0)
  let total := f 28 4 + 4723
  f 0 4 == 0x4253584F && f 4 4 == 1 && f 8 4 ≤ 64 && f 20 4 ≤ 3 && 4096 ≤ f 28 4 && total ≤ 0x1000000
    && (match len with | some l => l == total | none => true)
    && f 16 4 / 2 ^ 8 % 2 ^ 8 == 0xB1 && f 16 4 / (match s.build with | .t48 => 1 | .t16 => 2) % 2 == 1
    && zero 32 32 && zero 832 3264 && s.sectionsOk slot
/-- R393: every section digest matches. -/
def State.digestsOk (s : State) (slot : Nat) : Bool :=
  let f := s.bundleField slot
  (List.range (min 16 (f 24 4))).all fun i =>
    let e := 64 + 48 * i
    sha3_256 (s.flashBytes (slotBase slot + f (e + 4) 4) (f (e + 8) 4)) == s.flashBytes (slotBase slot + e + 16) 32
/-- R391: the key set is revoked. -/
def State.keyRevoked (s : State) (k : Nat) : Bool := (groupDw s.sbk.otp 5 0).getLsbD (4 + k % 4)
/-- R391: both signatures verify: ECDSA P-384 over the SHA-384 digest of the signed bytes and ML-DSA-87 over the bytes with
an empty context, each with its own key of the named set. -/
def signedBy (set : Nat) (msg ecdsaSig mlDsaSig : List (BitVec 8)) : Bool :=
  ecdsaVerify p384 (Config.ecdsaPublic set) (sha384 msg) ecdsaSig
    && mlDsaVerify 87 (Config.mlDsaPublic set) msg [] mlDsaSig
/-- R389, R391: both signatures of a bundle verify with the key set it names, which is not revoked. -/
def State.bundleSigned (s : State) (slot : Nat) : Bool :=
  let set := s.bundleField slot 20 4
  let n := s.bundleField slot 28 4
  !s.keyRevoked set
    && signedBy set (s.flashBytes (slotBase slot) n) (s.flashBytes (slotBase slot + n) 96)
      (s.flashBytes (slotBase slot + n + 96) 4627)
/-- R393: the status with which a bundle fails, from its second check on; 0 for none. -/
def State.bundleStatus (s : State) (slot : Nat) (len : Option Nat) : BitVec 16 :=
  if !s.bundleForm slot len then 0x0200
  else if !s.digestsOk slot || !s.bundleSigned slot then 0x0200
  else if s.bundleField slot 8 4 < otpSvn s.sbk.otp then 0x0201
  else 0
/-- FW_COMMIT (R393, R394 step 1). -/
def fwCommit (a : Adm) (s : State) : State :=
  let t := s.shd.spareSlot
  match s.shd.stageLen with
  | none => s.admFinish 0x0101 0x03
  | some len =>
    if (List.range ((len + 4095) / 4096)).any fun i => !s.shd.pages.contains i then s.admFinish 0x0101 0x03
    else
      let st := s.bundleStatus t (some len)
      if st != 0 then s.admFinish st
      else if a.p 0 = 0 then s.admFinish 0
      else
        let s := s.modShd fun d => d.ctlPut fun c => { c with pend := t, pendFlag := true, trial := 0 }
        (s.logCode 0x91 t (BitVec.ofNat 32 (s.bundleField t 12 4))).admFinish 0
/-- FW_COMMIT (R393). -/
def execFwCommit (s : State) : Out := .next (s.admRun 0x09 fwCommit)

/-! ### Partitions (R340 to R345) -/

/-- R340: the context base of a side is one. -/
def ctxOk (v n : Nat) : Bool := v % 512 == 0 && v / 2 ^ 37 == n
/-- R340: the values of one group of the block pass their checks; `create` in PART_CREATE. -/
def groupOk (a : Adm) (q : Part) (create : Bool) (g : Nat) : Bool :=
  match g with
  | 1 => ctxOk (a.fieldLE 16 8) q.cell0 && (if q.paired then ctxOk (a.fieldLE 24 8) q.cell1 else a.fieldLE 24 8 == 0)
  | 2 =>
    let n := a.fieldLE 40 4
    a.fieldLE 32 8 % 512 == 0 && n % 512 == 0 && 4096 ≤ n && n ≤ 0x1000000
  | 3 => ((List.range 14).all fun i => create || a.fieldLE (48 + i) 1 != 0) && a.fieldLE 62 2 == 0
  | _ => true
/-- R340: a group of the block is stored. -/
def State.putGroup (s : State) (a : Adm) (p g : Nat) : State :=
  match g with
  | 0 => (s.wrf .kstPbase 0 p 17 0 (a.fieldLE 4 4)).wrf .kstPcnt 0 p 18 0 (a.fieldLE 8 4)
  | 1 => s.modPart p fun q => { q with ctx0 := a.fieldLE 16 8, ctx1 := a.fieldLE 24 8 }
  | 2 => s.modPart p fun q => { q with arenaVa := a.fieldLE 32 8, arenaLen := a.fieldLE 40 4, spans := [], arenaHead := 0 }
  | 3 => s.modPart p fun q =>
    { q with ks := (List.range 14).foldl (fun t i =>
        let k := a.fieldLE (48 + i) 1
        Tab.set (fun _ => 2) t i (if k = 0 then 2 else k)) [] }
  | 4 => s.modPart p fun q => { q with imgKey := BitVec.ofNat 256 (a.fieldLE 64 32) }
  | _ => s.modPart p fun q => { q with minVer := a.fieldLE 96 4 }
/-- R340: the fixed part of a block passes. -/
def blockOk (b : Build) (a : Adm) : Bool :=
  let paired := a.fieldLE 0 1 == 1
  a.fieldLE 0 1 ≤ 1 && a.fieldLE 1 1 < b.cells
    && (if paired then a.fieldLE 2 1 < b.cells && a.fieldLE 2 1 != a.fieldLE 1 1 else a.fieldLE 2 1 == 0)
    && a.fieldLE 3 1 == 0 && a.fieldLE 12 4 == 0 && a.fieldLE 44 4 == 0 && a.fieldLE 100 28 == 0
/-- PART_CREATE (R340, R308, R309). -/
def partCreate (a : Adm) (s : State) : State :=
  let p := a.target % 64
  let q : Part := { st := 1, paired := a.fieldLE 0 1 == 1, cell0 := a.fieldLE 1 1, cell1 := a.fieldLE 2 1 }
  if (s.part p).st != 0 then s.admFinish 0x0101
  else if !blockOk s.build a || (List.range 6).any fun g => !groupOk a q true g then s.admFinish 0x0101 0x03
  else if !s.trngOk then s.admFinish 0x0101 0x09
  else
    let s := (List.range 6).foldl (fun s g => s.putGroup a p g) (s.setPart p q)
    let s := (s.startPartDrbgs p q.paired).wr .frmLate 0 p 0
    s.askWardens q.askCells 0x90 1 [BitVec.ofNat 32 p] (blockWords a.inp)
/-- PART_CREATE (R340). -/
def execPartCreate (s : State) : Out := .next (s.admRun 0x10 partCreate)
/-- PART_DESTROY (R344, R429). -/
def partDestroy (a : Adm) (s : State) : State :=
  let p := a.target % 64
  let q := s.part p
  if q.st = 0 then s.admFinish 0x0101
  else if q.runs then s.admFinish 0x0103
  else
    let s := (s.destroyKeysOf p).modPart p fun q => { q with drbg0 := {}, drbg1 := {}, drbgH := {}, seeds0 := [], seeds1 := [] }
    let s := ((s.wr .kstPbase 0 p 0).wr .kstPcnt 0 p 0).wr .frmLate 0 p 0
    let s := s.destroyReqs p
    let cells := (q.sides.map q.cellOf).filter fun n => (s.cell n).st != 4 && !(s.cell n).restarted && !(s.cell n).restarting
    if cells.isEmpty then s.ackDone a else s.askWardens cells 0x94 1 [BitVec.ofNat 32 p] []
/-- PART_DESTROY (R344). -/
def execPartDestroy (s : State) : Out := .next (s.admRun 0x11 partDestroy)
/-- PART_STOP (R344, R346). -/
def partStop (a : Adm) (s : State) : State :=
  let p := a.target % 64
  match (s.part p).st with
  | 0 => s.admFinish 0x0101
  | 3 => { s.modPart p fun q => { q with st := 4, stopPend := true } with admWait := .partStop }
  | 4 => { s with admWait := .partStop }
  | _ => s.admFinish 0
/-- PART_STOP (R346). -/
def execPartStop (s : State) : Out := .next (s.admRun 0x12 partStop)
/-- R346: the conditions under which a stop is complete. -/
def State.stopDone (s : State) (p : Nat) : Bool :=
  let q := s.part p
  q.st == 4 && !q.stopPend && q.faultPend.isNone
    && !(s.jobs.any fun e => match e.2 with | some j => j.part == p && j.st != .finished | none => false)
    && !(s.reqList.any fun e => e.2.part == p && (e.2.recOff.isSome || !e.2.out.isEmpty)) && q.spans.isEmpty
/-- PART_STOP_COMPLETE (R346): at the tick that opened this frame. -/
def partStopComplete (p : Nat) (s : State) : State :=
  if !s.stopDone p then s
  else
    let q := s.part p
    let s := s.modPart p fun q => { q with st := 2 }
    let s := q.live.foldl (fun s x =>
      if (s.cell (q.cellOf x)).hello then s.sendMsg (q.cellOf x + 1) (mkMsg 0 1 0 0x93 [BitVec.ofNat 32 p]) else s) s
    match s.admWait, s.adm with
    | .partStop, a :: _ =>
      if a.target % 64 == p then
        let s := s.admFinish 0
        { s with admDone := s.admDone.map fun d => if d.cmd == a && d.fin == s.frame then { d with fin := s.frame - 1 } else d }
      else s
    | _, _ => s
/-- PART_STOP_COMPLETE (R346). -/
def execPartStopComplete (p : Nat) (s : State) : Out := onPart s p (partStopComplete p s)
/-- R345: the checks of PART_START fail. -/
def State.startBad (s : State) (p : Nat) : Bool :=
  let q := s.part p
  let cells := q.askCells
  s.keyRangeBad p || (cells.any fun n => (s.cell n).st != 2)
    || (q.paired && (match cells with
        | [a, b] => !s.pairRotation p a b
        | _ => cells.any fun n => !s.loneRotation p n))
/-- PART_START (R345, R404). -/
def partStart (a : Adm) (s : State) : State :=
  let p := a.target % 64
  let q := s.part p
  if s.locked then s.admFinish 0x0400
  else if (q.st != 2 && q.st != 5) || s.startBad p then s.admFinish 0x0101
  else s.askWardens q.askCells 0x92 1 [BitVec.ofNat 32 p] []
/-- PART_START (R345). -/
def execPartStart (s : State) : Out := .next (s.admRun 0x13 partStart)
/-- PART_CONFIG (R340, R344). -/
def partConfig (a : Adm) (s : State) : State :=
  let p := a.target % 64
  let q := s.part p
  let gs := (List.range 6).filter fun g => (dwAt a.ps 0).getLsbD g
  if q.st = 0 then s.admFinish 0x0101
  else if q.runs then s.admFinish 0x0103
  else if gs.any fun g => !groupOk a q false g then s.admFinish 0x0101 0x03
  else (gs.foldl (fun s g => s.putGroup a p g) s).admFinish 0
/-- PART_CONFIG (R340). -/
def execPartConfig (s : State) : Out := .next (s.admRun 0x14 partConfig)
/-- R342: the header and lengths of an image are well formed. -/
def Adm.imageOk (a : Adm) : Bool :=
  let alg := a.fieldLE 12 1
  let sig := if alg = 1 then 3309 else 96
  32 ≤ a.inp.length && a.fieldLE 0 4 == 0x4D494B45 && a.fieldLE 4 4 == 1 && (alg == 1 || alg == 2) && a.fieldLE 13 3 == 0
    && a.fieldLE 24 8 == 0 && a.fieldLE 20 4 % 9 == 0 && a.inp.length == 32 + a.fieldLE 16 4 + a.fieldLE 20 4 + sig
/-- R342: the public key of an image, and whether its signature verifies. -/
def Adm.imageKey (a : Adm) : Bytes := (a.inp.drop 32).take (a.fieldLE 16 4)
def Adm.imageSigned (a : Adm) : Bool :=
  let n := 32 + a.fieldLE 16 4 + a.fieldLE 20 4
  let msg := a.inp.take n
  let sig := a.inp.drop n
  if a.fieldLE 12 1 = 1 then mlDsaVerify 65 a.imageKey msg [] sig else ecdsaVerify p384 a.imageKey (sha384 msg) sig
/-- IMAGE_LOAD (R342, R344, R372). -/
def imageLoad (a : Adm) (s : State) : State :=
  let p := a.target % 64
  let q := s.part p
  if q.st = 0 then s.admFinish 0x0101
  else if q.runs then s.admFinish 0x0103
  else if !a.imageOk then s.admFinish 0x0101 0x03
  else if sha3_256 a.imageKey != bytesLE 32 q.imgKey.toNat || !a.imageSigned then s.admFinish 0x0200
  else if a.fieldLE 8 4 < q.minVer then s.admFinish 0x0201
  else
    let ws := bodyWords a.body
    if q.askCells.any fun n => (s.cell n).hello && (s.cell n).stageLen < ws.length then s.admFinish 0x0101 0x02
    else s.askWardens q.askCells 0x91 2 [BitVec.ofNat 32 p, BitVec.ofNat 32 ws.length] ws
/-- IMAGE_LOAD (R342). -/
def execImageLoad (s : State) : Out := .next (s.admRun 0x15 imageLoad)

/-! ### Re-pairing (R45) -/

/-- PART_REPAIR (R45). -/
def partRepair (a : Adm) (s : State) : State :=
  let p := a.target % 64
  let t := a.p 0
  let q := s.part p
  let src := q.cellOf (if q.lost = 1 then 1 else 0)
  if q.runs || q.sides.any fun x => (q.rk x).phase != 0 then s.admFinish 0x0103
  else if q.st != 2 || !q.paired || q.lost = 0 || t == src || (t != q.cell0 && t != q.cell1) || (s.cell t).st != 2
      || !s.pairRotation p src t then s.admFinish 0x0101
  else { s.modPart p fun q => { q with repair := some t } with admWait := .repair }
/-- PART_REPAIR (R45). -/
def execPartRepair (s : State) : Out := .next (s.admRun 0x16 partRepair)
/-- A word of cell memory as a non-caching agent would read it, without effect. -/
def State.peek (s : State) (pa : Nat) : Word := (s.agentRead pa).1
/-- R45, R211: the regions that the tables from one on map, those of the tables included. -/
def mappedRegions (s : State) (n : Nat) : Nat → Nat → List Nat
  | 0, _ => []
  | j + 1, table =>
    if table / 2 ^ 37 != n then []
    else
      regionOf (lineInCell (table / 8)) :: (List.range 512).flatMap fun i =>
        let w := s.peek (table + i)
        let v := w.pay
        if w.ty != tyPTE || !v.getLsbD 0 then []
        else
          let base := fld v 41 12 * 512
          if fld v 3 1 == 0 then mappedRegions s n j base
          else if 2 ≤ j || v.getLsbD 8 || base / 2 ^ 37 != n then []
          else
            let lo := base % 2 ^ 37 / 2 ^ 17
            let hi := (base % 2 ^ 37 + (if j == 1 then 2 ^ 18 else 512) - 1) / 2 ^ 17
            (List.range (hi - lo + 1)).map fun i => lo + i
/-- R45: the repair set of partition `p` on a side. -/
def State.repairSet (s : State) (p side : Nat) : List Nat :=
  let q := s.part p
  let n := q.cellOf side
  let root := s.peek (q.ctxOf side + 224)
  let mode := fld root.pay 43 40
  if mode < 3 || 5 < mode then []
  else
    let tables := mappedRegions s n mode (fld root.pay 38 9 * 512)
    (tables.eraseDups).filter fun r => s.isFilled n r
/-- R45: lines of region `r` at which either cell holds anything. -/
def State.copyLines (s : State) (a b r : Nat) : List Nat :=
  let of := fun (l : Nat) => if (cellOfLine l == a || cellOfLine l == b) && regionOf (lineInCell l) == r then some (lineInCell l) else none
  ((s.mem.filterMap fun e => of (e.1 / 8)) ++ (s.l2.filterMap fun e => of (e.1 % 2 ^ 36))
    ++ (s.memErr.filterMap fun e => of (e.1 / 2))).eraseDups
/-- CELL_COPY_LINE (R45): one line is copied. -/
def State.copyLine (s : State) (a b x : Nat) : State :=
  let r := (List.range 8).foldl (fun (p : List Word × State) i =>
    let y := p.2.agentRead ((a * 2 ^ 34 + x) * 8 + i); (p.1 ++ [y.1], y.2)) ([], s)
  agentWrites (r.2.calm ((b * 2 ^ 34 + x) * 8)) ((b * 2 ^ 34 + x) * 8) r.1
/-- R45: one region is copied, and its map bit set. -/
def State.copyRegion (s : State) (a b r : Nat) : State :=
  let ls := s.copyLines a b r
  let s := if s.isFilled b r then s else s.fillRegion b r
  ls.foldl (fun s x => s.copyLine a b x) s
/-- R45: the context record of strand 0, a pair's only strand. -/
def State.copyRecord (s : State) (a b : Nat) : State :=
  (List.range 512).foldl (fun s i => let y := s.agentRead (a + i); (y.2.calm (b + i)).agentWrite (b + i) y.1) s
/-- REPAIR_COPY_COMPLETE (R45): the copy is whole. -/
def repairCopyComplete (p : Nat) (s : State) : State :=
  let q := s.part p
  match q.repair with
  | none => s
  | some t =>
    let side := if q.lost = 1 then 1 else 0
    let other := 1 - side
    let src := q.cellOf side
    let s := (s.repairSet p side).foldl (fun s r => s.copyRegion src t r) s
    let s := s.copyRecord (q.ctxOf side) (q.ctxOf other)
    let s := s.modPart p fun q =>
      { q with repair := none, repaired := true, drbg0 := q.drbg side, drbg1 := q.drbg side,
               seeds0 := if side = 0 then q.seeds0 else q.seeds1, seeds1 := if side = 0 then q.seeds0 else q.seeds1 }
    if s.admWait == .repair then s.admFinish 0 else s
/-- REPAIR_COPY_COMPLETE (R45). -/
def execRepairCopyComplete (p : Nat) (s : State) : Out := onPart s p (repairCopyComplete p s)

/-! ### Cells -/

/-- R338: one row of PLAN_WRITE. -/
def State.planRow (s : State) (n row : Nat) (b : Bytes) : State :=
  let k := s.build.coresPerCell
  let s := (List.range k).foldl (fun s i => s.setRotEntry row (n * k + i) (b.getD i 0)) s
  s.setRowAttr row n (BitVec.ofNat 32 (natLE ((b.drop k).take 4)))
/-- PLAN_WRITE (R338). -/
def planWrite (a : Adm) (s : State) : State :=
  let n := a.target % 4
  if !s.cellIdle n then s.admFinish 0x0103
  else
    let rows := chunk (s.build.coresPerCell + 4) a.inp
    let s := (List.range rows.length).foldl (fun s i => s.planRow n (a.p 0 + i) (rows.getD i [])) s
    (s.wrf .frmCellRows 0 n 8 0 (a.p 2)).admFinish 0
/-- PLAN_WRITE (R338). -/
def execPlanWrite (s : State) : Out := .next (s.admRun 0x18 planWrite)
/-- CELL_STOP (R35, R428). -/
def cellStop (a : Adm) (s : State) : State :=
  let n := a.target % 4
  if (s.cell n).st = 4 then { s.cellRestart n with admWait := .cellStop n }
  else if s.partIds.any fun p => (s.part p).runs && (s.part p).homedIn n then s.admFinish 0x0103
  else match (s.cell n).st with
    | 0 => s.admFinish 0
    | 3 => { s with admWait := .cellStop n }
    | _ => { s.cellHalt n with admWait := .cellStop n }
/-- CELL_STOP (R35). -/
def execCellStop (s : State) : Out := .next (s.admRun 0x19 cellStop)
/-- CELL_START (R24, R36). -/
def cellStart (a : Adm) (s : State) : State :=
  let n := a.target % 4
  if (s.cell n).st != 0 then s.admFinish 0x0103
  else match s.cellStartRefused n with
    | some d => s.admFinish 0x0101 d
    | none => { s.cellBegin n with admWait := .cellStart n }
/-- CELL_START (R36). -/
def execCellStart (s : State) : Out := .next (s.admRun 0x1A cellStart)

/-! ### Alarm policy, tokens (R406 to R410) -/

/-- R407: KIND of an ALARM_POLICY input. -/
def Adm.kind (a : Adm) : Nat := a.fieldLE 0 4
/-- R407: the head of the queue is an ALARM_POLICY of the kinds `ks` and of a length, executed by `f`; another length is
refused. -/
def State.policyRun (s : State) (ks : Adm → Bool) (len : Nat) (f : Adm → State → State) : State :=
  s.admRun 0x30 fun a s => if !ks a then s else if a.inp.length != len then s.admFinish 0x0101 0x02 else f a s
/-- R406: a policy with a source below its floor, or a value for sources 12 to 15. -/
def policyBad (v : BitVec 32) : Bool :=
  fld v 31 24 != 0 || (List.range 12).any fun i => polClass v i < almFloor i
/-- R406: the window opens, the policy is written, the window closes. -/
def State.newPolicy (s : State) (v : BitVec 32) : State := ((s.setWindow true).wr .almPolicy 0 0 v).setWindow false
/-- The Shed begins a Seedbank operation for a command. -/
def State.admSeed (s : State) (op g : Nat) (data : List (BitVec 32)) (kind : Nat) : State :=
  { (wrList s .sbkWdata 0 0 ((data ++ List.replicate 15 0).take 15)).sbkBegin op g with admWait := .sbk kind }
/-- SET_POLICY (R406); also a KIND that R407 does not list, which is refused. -/
def setPolicy (a : Adm) (s : State) : State :=
  let v := BitVec.ofNat 32 (a.fieldLE 4 4)
  if a.kind != 1 || policyBad v || 1 < a.fieldLE 8 4 then s.admFinish 0x0101 0x03
  else if a.fieldLE 8 4 = 0 then (s.newPolicy v).admFinish 0
  else if s.sbk.busy then s
  else if programRefused s.sbk.otp 3 != 0 then s.admFinish 0x0101 0x03
  else s.admSeed 1 3 [v] 3
/-- SET_POLICY (R406). -/
def execSetPolicy (s : State) : Out :=
  .next (s.admRun 0x30 fun a s =>
    if 2 ≤ a.kind && a.kind ≤ 5 then s
    else if a.kind == 1 && a.inp.length != 12 then s.admFinish 0x0101 0x02
    else setPolicy a s)
/-- LIFT_FREEZE (R401, R407). -/
def execLiftFreeze (s : State) : Out :=
  .next (s.policyRun (fun a => a.kind == 2) 4 fun _ s =>
    if (s.frozen || s.alm.freezePend) && !s.alm.inforce then s.lift.admFinish 0 else s.admFinish 0x0101 0x03)
/-- ALARM_CLEAR (R405, R407). -/
def execAlarmClear (s : State) : Out :=
  .next (s.policyRun (fun a => a.kind == 3) 4 fun _ s =>
    if s.clearRefused then s.admFinish 0x0101 0x03 else s.alarmClear.admFinish 0)
/-- R408: the token in an ALARM_POLICY input is this part's and verifies. -/
def State.tokenOk (s : State) (a : Adm) : Bool :=
  let t := a.inp.drop 4
  let set := natLE ((t.drop 28).take 1)
  natLE (t.take 4) == 0x4E4B4F54 && (t.drop 8).take 16 == otpUid s.sbk.otp && natLE ((t.drop 29).take 3) == 0 && set ≤ 3
    && !s.keyRevoked set && signedBy set (t.take 32) ((t.drop 32).take 96) ((t.drop 128).take 4627)
/-- R408: Kind, argument and key set of the token. -/
def Adm.tokenKind (a : Adm) : Nat := a.fieldLE 8 4
def Adm.tokenArg (a : Adm) : Nat := a.fieldLE 28 4
def Adm.tokenSet (a : Adm) : Nat := a.fieldLE 32 1
/-- TOKEN_REPROVISION (R408, R409). -/
def tokenReprovision (a : Adm) (s : State) : State :=
  let t := s.sbk.otp
  if !s.tokenOk a || a.tokenArg != otpLocks t || otpProv t + 1 != otpLocks t || 31 < otpLocks t then s.admFinish 0x0101 0x03
  else if s.sbk.busy then s
  else s.admSeed 3 1 [] 4
/-- TOKEN_REPROVISION (R409). -/
def execTokenReprovision (s : State) : Out :=
  .next (s.policyRun (fun a => a.kind == 4 && a.tokenKind == 1) 4759 tokenReprovision)
/-- TOKEN_DEBUG_UNLOCK (R408, R410); also a token of a kind that R408 does not list, which is refused. -/
def tokenDebugUnlock (a : Adm) (s : State) : State :=
  let t := s.sbk.otp
  if a.tokenKind != 2 || !s.tokenOk a || a.tokenArg != s.alm.nonce.toNat || otpDlevel t != 1
      || !(groupDw t 2 0).getLsbD (4 + a.tokenSet) then s.admFinish 0x0101 0x03
  else if s.alm.dbg then s.admFinish 0
  else { s.requestDebug with admWait := .dbg }
/-- TOKEN_DEBUG_UNLOCK (R410). -/
def execTokenDebugUnlock (s : State) : Out :=
  .next (s.policyRun (fun a => a.kind == 4 && a.tokenKind != 1) 4759 tokenDebugUnlock)
/-- PROGRAM_GROUP (R407). -/
def programGroup (a : Adm) (s : State) : State :=
  let g := a.fieldLE 4 4
  if !s.alm.dbg || (g != 2 && g != 5) || programRefused s.sbk.otp g != 0 then s.admFinish 0x0101 0x03
  else if s.sbk.busy then s
  else s.admSeed 1 g (dwords (a.inp.drop 8)) 5
/-- PROGRAM_GROUP (R407). -/
def execProgramGroup (s : State) : Out := .next (s.policyRun (fun a => a.kind == 5) 68 programGroup)
/-- R338, R402, R437: SLEEP and ZEROIZE. -/
def zeroizeCmd (why : Nat) (s : State) : State := { s.zeroize why with admWait := .zero }
/-- SLEEP (R338, R437). -/
def execSleep (s : State) : Out := .next (s.admRun 0x3E fun _ s => zeroizeCmd 2 s)
/-- ZEROIZE (R338, R402). -/
def execZeroize (s : State) : Out := .next (s.admRun 0x3F fun _ s => zeroizeCmd 1 s)

/-! ### Seedbank operations of the Shed -/

/-- R394 step 3: the anti-rollback counter has not reached its goal: the next bit is burned. -/
def State.raiseSvn (s : State) : State :=
  if otpSvn s.sbk.otp < s.shd.svnGoal && !s.sbk.busy
      && !((winner s.sbk.otp 4).isNone && groupFrozen s.sbk.otp 4) then s.sbkBegin 2 4 else s
/-- R406, R407, R409: the command that waited for the operation. -/
def State.admSeeded (s : State) (ok : Bool) : State :=
  match s.admWait, s.adm with
  | .sbk kind, a :: _ =>
    if !ok && kind != 4 then s.admFinish 0x0101 0x03
    else (if kind = 3 then s.newPolicy (BitVec.ofNat 32 (a.fieldLE 4 4)) else s).admFinish 0
  | _, _ => s
/-- SBK_OP_COMPLETE (R413): `badBits` bits would not burn, `verifyOk` false is a verify that failed. -/
def execSbkOpComplete (badBits : Nat) (verifyOk : Bool) (s : State) : Out :=
  .next (if s.sbk.busy then ((sbkComplete badBits verifyOk s).admSeeded verifyOk).raiseSvn else s)

/-! ### Unit records (R376) -/

/-- R376: the record register of a unit whose events the cell error log copies; VALID is bit 31. -/
def unitReg (code inst : Nat) : Option (RegName × Nat) :=
  match code with
  | 0x21 => some (.cluCserr, inst)
  | 0x22 => some (.cluRkerr, inst)
  | 0x23 => some (.cluL2err, inst)
  | 0x30 => some (.cellCoherr, inst)
  | 0x40 => some (.memErrstat, inst)
  | 0x51 => some (.cpxErr, inst)
  | _ => none
/-- R376: records that a unit's own register holds: code, INST, register. -/
def State.unitRecords (s : State) : List (Nat × Nat × RegName) :=
  let f := fun (n : RegName) => (s.rd n).getLsbD 31
  (if f .frmPairStat then [(0x11, fld (s.rd .frmPairStat) 5 0, .frmPairStat)] else [])
    ++ (if f .kstErr then [(0x50, 0, .kstErr)] else []) ++ (if f .hciErr then [(0x60, 0, .hciErr)] else [])
    ++ (if f .almRec then [(0x70, fld (s.rd .almRec) 27 24, .almRec)] else [])
/-- R376, R424: the ARG of an event whose unit's register is `r`: the register as it reads, with its OVF, while it still shows
the event; else the event alone, as the cell's log holds it. -/
def asRegister (arg r : BitVec 32) : BitVec 32 := if (arg ^^^ r) &&& 0x9FFFFFFF == 0 then r else arg
/-- The lowest code among events raised. -/
def lowestRaised (l : List (Nat × Nat × BitVec 32)) : Option (Nat × Nat × BitVec 32) :=
  l.foldl (fun a e => match a with | none => some e | some x => if e.1 < x.1 then some e else a) none
/-- EVENT_LOG_TAKE (R376): the record of the lowest code is taken. -/
def eventLogTake (s : State) : State :=
  if !s.shedUp then s
  else
    let raised := lowestRaised s.shd.raised
    match raised, s.unitRecords with
    | none, [] => s
    | none, (c, i, n) :: _ => (s.wr n 0 0 (s.rd n &&& 0x7FFFFFFF)).logCode c i (s.rd n)
    | some e, us =>
      match us with
      | (c, i, n) :: _ =>
        if c < e.1 then (s.wr n 0 0 (s.rd n &&& 0x7FFFFFFF)).logCode c i (s.rd n) else takeRaised e s
      | [] => takeRaised e s
where
  /-- An event that a unit raised is taken, and the VALID bit of its register cleared. -/
  takeRaised (e : Nat × Nat × BitVec 32) (s : State) : State :=
    let s := s.modShd fun d => { d with raised := d.raised.erase e }
    match unitReg e.1 e.2.1 with
    | some (n, u) => (s.wr n u 0 (s.rd n u &&& 0x7FFFFFFF)).logCode e.1 e.2.1 (asRegister e.2.2 (s.rd n u))
    | none => s.logCode e.1 e.2.1 e.2.2
/-- EVENT_LOG_TAKE (R376). -/
def execEventLogTake (s : State) : Out := .next (eventLogTake s)
/-- GET_STATUS (R387). -/
def execGetStatus (s : State) : Out :=
  .next (s.bmc (dwBytes ([s.hciStatus, s.frmStatus] ++ s.cellIds.map s.cellStateReg
    ++ [s.almStat, BitVec.ofNat 32 s.shd.logSeq])))
/-- R369: the Shed stops until the next cold boot. -/
def shedStop (s : State) : State :=
  s.modShd fun d => { d with locked := true, busyStuck := !s.adm.isEmpty }
/-- SHED_LOCKUP (R369). -/
def execShedLockup (s : State) : Out :=
  .next ((shedStop s).modPwr fun w => { w with lockupN := true })

end Sys2Proof.Machine
end

