-- ==== Sys2Proof/Machine/CtlStore.lean ====
section
/-!
DEFINITION. The microcode control store (R117 to R124): loading, lock and measurement, its errors, and the count of
its preemption points.
-/
namespace Sys2Proof.Machine

/-- R117: a word as the hardware stores it: bits [7:0] are the check over the rest. -/
def csStored (v : BitVec 96) : BitVec 96 :=
  let d := v &&& ~~~(0xFF : BitVec 96)
  d ||| (Config.csEcc d).setWidth 96
/-- Store a word. -/
def State.csPut (s : State) (m a : Nat) (v : BitVec 96) : State :=
  s.modClu m fun k => { k with cs := Tab.set (fun _ => 0) k.cs (a % csWords) (csStored v) }
/-- The word staged in CLU_CSDATA0 to CLU_CSDATA2. -/
def State.csStaged (s : State) (m : Nat) : BitVec 96 :=
  BitVec.ofNat 96 ((s.rd .cluCsdata m 0).toNat + (s.rd .cluCsdata m 1).toNat * 2 ^ 32 + (s.rd .cluCsdata m 2).toNat * 2 ^ 64)
/-- R123: the store is locked. -/
def State.csLocked (s : State) (m : Nat) : Bool := (s.rd .cluCsctl m).getLsbD 31
/-- R124: CLU_CSERR.UE. -/
def State.csUe (s : State) (m : Nat) : Bool := (s.rd .cluCserr m).getLsbD 31

/-- R123, R124: a write of CLU_CSDATAi: rejected while the store is locked, except as the source of CLU_CSFIX. -/
def csdataWrite (w : Who) (m i : Nat) (v : BitVec 32) (s : State) : State :=
  if s.csLocked m then
    if s.csUe m then s.wr .cluCsdata m i v else s.reject w 0 (RegAt.key ⟨.cluCsdata, m, i⟩)
  else
    let s := s.wr .cluCsdata m i v
    if i == 2 then
      let a := s.rdf .cluCsaddr m 0 12 0
      (s.csPut m a (s.csStaged m)).wrf .cluCsaddr m 0 12 0 ((a + 1) % csWords)
    else s
/-- CSDATA2_WRITE (R122). -/
def execCsdata2Write (w : Who) (m : Nat) (v : BitVec 32) (s : State) : Out :=
  .next (s.writeReg w .cluCsdata m 2 (csdataWrite w m 2 v))

/-- A write of CLU_CSCTL: LOCK (R122 step 3) and PPCLR. -/
def csctlWrite (m : Nat) (v : BitVec 32) (s : State) : State :=
  let s := if v.getLsbD 8 then s.wr .cluCspp m 0 0 else s
  if v.getLsbD 31 && !s.csLocked m then s.wr .cluCsctl m 0 (s.rd .cluCsctl m ||| 0x80000002) else s
/-- CS_LOCK (R122, R123). -/
def execCsLock (w : Who) (m : Nat) (v : BitVec 32) (s : State) : Out :=
  .next (s.writeReg w .cluCsctl m 0 (csctlWrite m v))
/-- CSPP_CLEAR (R119). -/
def execCsppClear (w : Who) (m : Nat) (v : BitVec 32) (s : State) : Out :=
  .next (s.writeReg w .cluCsctl m 0 (csctlWrite m v))

/-- R122: the measurement of a store. -/
def Clu.measure (k : Clu) : Bytes := sha3_256 ((List.range csWords).flatMap fun a => bytesLE 12 (k.csWord a).toNat)
/-- R122 step 4: the digest that the running bundle declares for its control-store image. -/
def State.declaredCs (s : State) : Bytes :=
  let b := s.shd.slot
  match (List.range (min 16 (s.bundleField b 24 4))).find? fun i => s.bundleField b (64 + 48 * i) 4 == 2 with
  | some i => s.flashBytes (slotBase b + 64 + 48 * i + 16) 32
  | none => []
/-- R122 steps 3 and 4: the measurement ends, and the Shed compares it. -/
def csMeasured (m : Nat) (s : State) : State :=
  if !(s.rd .cluCsctl m).getLsbD 1 then s
  else
    let d := (s.clu m).measure
    let s := wrList s .cluCsmeas m 0 (dwords d)
    let s := s.wr .cluCsctl m 0 ((s.rd .cluCsctl m &&& ~~~(2 : BitVec 32)) ||| 1)
    if d == s.declaredCs then s.modClu m fun k => { k with csOk := true }
    else s.logCode 0x02 m (s.rd .cluCsmeas m 0)
/-- CS_MEASUREMENT_COMPLETE (R122). -/
def execCsMeasurementComplete (m : Nat) (s : State) : Out := onClu s m (csMeasured m s)

/-- R124: a write of CLU_CSFIX. -/
def csfixWrite (w : Who) (m : Nat) (v : BitVec 32) (s : State) : State :=
  if !v.getLsbD 0 then s
  else if !s.csUe m then s.reject w 0 (RegAt.key ⟨.cluCsfix, m, 0⟩)
  else
    let a := s.rdf .cluCserr m 0 12 0
    (s.csPut m a (s.csStaged m)).modClu m fun k => { k with csBad := k.csBad.filter (· != a) }
/-- CSFIX (R124). -/
def execCsfix (w : Who) (m : Nat) (v : BitVec 32) (s : State) : Out :=
  .next (s.writeReg w .cluCsfix m 0 (csfixWrite w m v))

/-- R124: a core meets an error in a control-store word: a single-bit one (`single`) is corrected and counted; at an
uncorrectable one the core locks up, the address is latched as bad, and the first such error is recorded, and every one goes
to the cell error log (R424). -/
def controlStoreUe (c a : Nat) (single : Bool) (s : State) : State :=
  if !s.canIssue c then s
  else if single then s.incf .cluCsce (c / 4) 0 31 0
  else
    let m := c / 4
    let s := s.modClu m fun k => { k with csBad := if k.csBad.contains a then k.csBad else a :: k.csBad }
    let e := s.rd .cluCserr m
    let body := BitVec.ofNat 32 (2 ^ 31 + a)
    let s := s.wr .cluCserr m 0 (if e.getLsbD 31 then e ||| 0x40000000 else (e &&& 0x60000000) ||| body)
    let s := s.elogEnter (s.build.cellOfClu m) 0x21 m 3 body 0
    s.lockup c 4 0 (s.core c).pc
/-- CONTROL_STORE_UE (R124). -/
def execControlStoreUe (c : Nat) (addr : BitVec 13) (s : State) (single : Bool := false) : Out :=
  onCore s c (controlStoreUe c addr.toNat single s)

/-- R119: an interval between preemption points of `cc` core cycles has ended in cluster `m`. -/
def ppInterval (m cc : Nat) (s : State) : State :=
  let mx := max (s.rdf .cluCspp m 0 15 0) (min cc 0xFFFF)
  let s := s.wrf .cluCspp m 0 15 0 mx
  if 192 < cc then s.incf .cluCspp m 0 31 16 else s
/-- MICROCODE_PP_VIOLATION (R119). -/
def execMicrocodePpViolation (c cc : Nat) (s : State) : Out := onCore s c (ppInterval (c / 4) cc s)

end Sys2Proof.Machine
end

