-- ==== Sys2Proof/Machine/RegWrite.lean ====
section
/-!
DEFINITION. The register space as a whole (R5 to R12, R219): every register's write with its locks and effects, every
register's read with the fields it derives, the rotation window, and the cold boot that PWR_RESET starts.
-/
namespace Sys2Proof.Machine

/-! ### Cold boot (R5, R435) -/

/-- R411, R413: a reset in the middle of an OTP operation: a bit whose burn was interrupted reads as 1, and an interrupted
OP 1 spends a spare. -/
def State.otpInterrupted (s : State) : State :=
  let s := if s.sbk.busy then (if s.sbk.op == 2 || s.sbk.op == 3 then sbkEffect 0 true s else sbkAbandon s) else s
  locksBurnComplete 0 s
/-- R435, R437 to R439: a cold boot: the block right after reset, but for what outlives it: the OTP array, the flash with its
slot controls and wear, the levels of external pins, host memory, and the model's own fields. -/
def State.coldBoot (s : State) (cause : Nat) : State :=
  let s := s.otpInterrupted
  let d := s.shd
  let w := s.pwr
  { build := s.build, pending := s.pending, free := s.free, hostMem := s.hostMem, msix := s.msix, rdata := s.rdata,
    sbk := { otp := s.sbk.otp },
    shd := { flash := d.flash, ctl0 := d.ctl0, ctl1 := d.ctl1, badBlk := d.badBlk, erases := d.erases },
    pwr := { aon := w.aon, pmicOn := w.pmicOn, wake := w.wake, pwrgd := w.pwrgd, pgSeen := w.pgSeen, cause := cause, perst := w.perst,
             tapReset := w.tapReset } }

/-- A write of PWR_RESET (R435). -/
def pwrResetWrite (v : BitVec 32) (s : State) : State := if v == 0x434F4C44 then s.coldBoot 4 else s

/-! ### Rotation (R23, R45) -/

/-- FRM_ROT_ADDR fields. -/
def State.rotRow (s : State) : Nat := s.rdf .frmRotAddr 0 0 7 0
def State.rotWord (s : State) : Nat := s.rdf .frmRotAddr 0 0 11 8
/-- FRM_ROT_DATA as it reads. -/
def State.rotData (s : State) : BitVec 32 :=
  let r := s.rotRow
  let w := s.rotWord
  let ent := fun c => if c < s.build.cores then s.rotEntry r c else 0xFF
  if w < 12 then BitVec.ofNat 32 ((List.range 4).foldl (fun a i => a + (ent (4 * w + i)).toNat * 2 ^ (8 * i)) 0)
  else if w < 15 && w - 12 < s.build.cells then s.rowAttr r (w - 12)
  else 0
/-- The cell whose rotation FRM_ROT_DATA now shows, if the part has it. -/
def State.rotCell (s : State) : Option Nat :=
  let w := s.rotWord
  let n := if w < 12 then s.build.cellOfClu w else w - 12
  if w < 15 && n < s.build.cells then some n else none
/-- FRM_ROT_ADDR.AINC. -/
def State.rotAdvance (s : State) : State :=
  if s.rdf .frmRotAddr 0 0 16 16 == 0 then s
  else if s.rotWord < 14 then s.wrf .frmRotAddr 0 0 11 8 (s.rotWord + 1)
  else (s.wrf .frmRotAddr 0 0 11 8 0).wrf .frmRotAddr 0 0 7 0 (s.rotRow + 1)
/-- A write of FRM_ROT_DATA. -/
def State.rotWrite (s : State) (w : Who) (v : BitVec 32) : State :=
  match s.rotCell with
  | none => s.rotAdvance
  | some n =>
    if !s.cellIdle n then s.reject w 0 (RegAt.key ⟨.frmRotData, 0, 0⟩)
    else
      let r := s.rotRow
      let k := s.rotWord
      let s := if k < 12 then
          (List.range 4).foldl (fun s i => s.setRotEntry r (4 * k + i) (BitVec.ofNat 8 (fld v (8 * i + 7) (8 * i)))) s
        else s.setRowAttr r n (v &&& 0x00013FFF)
      s.rotAdvance

/-! ### Writes -/

/-- The rejection of a locked write. -/
def State.locked0 (s : State) (w : Who) (r : RegAt) : State := s.reject w 0 r.key

/-- R14, R45: a write of the FRM block. -/
def State.frmWrite (s : State) (w : Who) (r : RegAt) (v : BitVec 32) : State :=
  let lock := match r.name with
    | .frmPeriod => s.cellIds.any fun n => (s.cell n).st == 1 || (s.cell n).st == 2 || (s.cell n).st == 3
    | .frmCellRows => !s.cellIdle r.idx
    | .frmPairCfg => s.pairRuns
    | .frmCal => s.cellIds.any fun n => !s.cellIdle n
    | _ => false
  match r.name with
  | .frmRotData => s.rotWrite w v
  | .frmSlackClr => if v.getLsbD 0 then s.wr .frmSlack 0 0 0 else s
  | _ => if lock then s.locked0 w r else s.plainWrite r v

/-- R259: the CELL_L2CFG bits that the build has. -/
def l2cfgMask (b : Build) : BitVec 32 := match b with | .t48 => 0xFFFFFFFF | .t16 => 0xFFF300FF
/-- A write of the CELL block. -/
def State.cellWrite (s : State) (w : Who) (r : RegAt) (v : BitVec 32) : State :=
  match r.name with
  | .cellL2cfg => if s.cellIdle r.unit then s.plainWrite r (v &&& l2cfgMask s.build) else s.locked0 w r
  | .cellElogrd => s.elogrdWrite r.unit v
  | _ => s.plainWrite r v
/-- A write of the CLU block. -/
def State.cluWrite (s : State) (w : Who) (r : RegAt) (v : BitVec 32) : State :=
  match r.name with
  | .cluCsctl => csctlWrite r.unit v s
  | .cluCsaddr => if s.csLocked r.unit then s.locked0 w r else s.plainWrite r v
  | .cluCsdata => csdataWrite w r.unit r.idx v s
  | .cluCsfix => csfixWrite w r.unit v s
  | .cluRqdone => rqdoneWrite w r.unit v s
  | .cluFstop => fstopWrite r.unit v s
  | _ => s.plainWrite r v
/-- R263: a write of the MEM block. -/
def State.memWrite (s : State) (w : Who) (r : RegAt) (v : BitVec 32) : State :=
  let n := s.build.cellOfChan r.unit
  match r.name with
  | .memCfg => if s.cellIdle n then (s.plainWrite r v).modCell n fun k => { k with cfgDirty := true } else s.locked0 w r
  | _ => s.plainWrite r v
/-- R280, R281: a write of the HOME block. -/
def State.homeWrite (s : State) (w : Who) (r : RegAt) (v : BitVec 32) : State :=
  let n := r.unit / 4
  match r.name with
  | .homeFillreq => fillreqWrite n v s
  | .homeExcl | .homeBir =>
    if s.cellIdle n then (s.plainWrite r v).modCell n fun k => { k with exclDirty := true } else s.locked0 w r
  | _ => s.plainWrite r v
/-- A write of the SHD block. -/
def State.shdWrite (s : State) (w : Who) (r : RegAt) (v : BitVec 32) : State :=
  match r.name with
  | .shdIn => if s.inBusy r.unit then s.locked0 w r else s.plainWrite r v
  | .shdIndb => indbWrite w r.unit v s
  | .shdOutack => outackWrite r.unit v s
  | _ => s.plainWrite r v
/-- R319, R323: a write of a queue pair register of function `f`; `off` is its BAR0 offset. -/
def State.qpRegWrite (s : State) (w : Who) (n : RegName) (f q off : Nat) (v : BitVec 32) : State :=
  match n with
  | .qpCtl => qpCtlWrite f q v s
  | .qpSqtail => tailWrite f q v s
  | .qpCqhead => headWrite f q v s
  | .qpSqbase | .qpSqbaseh | .qpCqbase | .qpCqbaseh | .qpSize =>
    if s.qEn f q then s.reject w 0 off else s.setQreg n f q (v &&& n.row.rwl)
  | _ => s
/-- A write of the HCI block. -/
def State.hciWrite (s : State) (w : Who) (r : RegAt) (v : BitVec 32) : State :=
  match r.name with
  | .hciStatus | .hciErr | .hciCqstall | .hciArenawait => s.plainWrite r v
  | n => s.qpRegWrite w n 0 r.idx r.key v
/-- A write of the PWR block. -/
def State.pwrWrite (s : State) (r : RegAt) (v : BitVec 32) : State :=
  match r.name with
  | .pwrReset => pwrResetWrite v s
  | _ => s.plainWrite r v

/-- R6: the effect of an admitted write. -/
def State.regWrite (s : State) (w : Who) (r : RegAt) (v : BitVec 32) : State :=
  match r.name.row.blk with
  | .glb | .cpx => s.plainWrite r v
  | .hci => s.hciWrite w r v
  | .frm => s.frmWrite w r v
  | .tmu => s.tmuWrite w r.name r.idx v
  | .alm => s.almWrite w r.name v
  | .sbk => s.sbkWrite w r.name r.idx v
  | .shd => s.shdWrite w r v
  | .pwr => s.pwrWrite r v
  | .cell => s.cellWrite w r v
  | .clu => s.cluWrite w r v
  | .mem => s.memWrite w r v
  | .home => s.homeWrite w r v
  | .kst => s.kstWrite w r.name r.idx v
  | .mon => s.monWrite w r.name r.idx v

/-- R9 to R12: a write of the PF's BAR0. -/
def State.bar0Write (s : State) (w : Who) (off : Nat) (v : BitVec 32) : State :=
  match s.target w off with
  | .nothing => s
  | .rejected k => s.reject w k off
  | .reg r => s.regWrite w r v

/-- R316: the queue pair register at an offset of a VF's BAR0. -/
def vfReg (off : Nat) : Option (RegName × Nat) :=
  if 0x1000 ≤ off && off < 0x2000 && off % 4 == 0 then
    ([RegName.qpSqbase, .qpSqbaseh, .qpCqbase, .qpCqbaseh, .qpSize, .qpCtl, .qpStat, .qpSqtail, .qpCqhead].find? fun n =>
      n.row.off - 0x1000 == off % 0x100).map fun n => (n, off / 0x100 % 16)
  else none
/-- R316: a write of a VF's BAR0, which is the host's; an offset that holds no register discards it. -/
def State.vfWrite (s : State) (w : Who) (f off : Nat) (v : BitVec 32) : State :=
  if w != .host then s
  else match vfReg off with
    | some (n, q) => s.qpRegWrite w n f q off v
    | none => if 0x2000 ≤ off && off % 4 == 0 then s.msixWrite f (off - 0x2000) v else s
/-- R316: a write of the PF's BAR2, which is the host's. -/
def State.bar2Write (s : State) (w : Who) (off : Nat) (v : BitVec 32) : State :=
  if w == .host && off % 4 == 0 then s.msixWrite 0 off v else s

/-- A four-byte write of a BAR of the PF (`vf` 0) or of BAR0 of a VF. -/
def State.barWrite (s : State) (w : Who) (vf bar off : Nat) (v : BitVec 32) : State :=
  if vf == 0 then (if bar == 0 then s.bar0Write w off v else if bar == 2 then s.bar2Write w off v else s)
  else if bar == 0 && s.funcOk vf then s.vfWrite w vf off v
  else s
/-- REGISTER_WRITE (R6 to R12, R316): a write of `size` bytes. R9: four naturally aligned bytes, or eight as two writes of four,
the lower address first; any other access is discarded. -/
def execRegisterWrite (w : Who) (vf off : Nat) (v : BitVec 64) (s : State) (bar : Nat := 0) (size : Nat := 4) : Out :=
  .next (if size == 4 then s.barWrite w vf bar off (v.setWidth 32)
    else if size == 8 && off % 8 == 0 then
      (s.barWrite w vf bar off (v.setWidth 32)).barWrite w vf bar (off + 4) ((v >>> 32).setWidth 32)
    else s)

/-- SLACK_CLEAR (R21, R45). -/
def execSlackClear (w : Who) (v : BitVec 32) (s : State) : Out :=
  .next (s.writeReg w .frmSlackClr 0 0 fun s => s.frmWrite w ⟨.frmSlackClr, 0, 0⟩ v)
/-- ROT_DATA_ACCESS (R23, R45): a read without a value, a write with one. -/
def execRotDataAccess (w : Who) (v : Option (BitVec 32)) (s : State) : Out :=
  .next (match v with
    | some v => s.writeReg w .frmRotData 0 0 fun s => s.rotWrite w v
    | none => ({ s with rdata := s.rotData } : State).rotAdvance)

/-! ### Reads -/

/-- R352: VF_STAT of function `f`. -/
def State.vfStat (s : State) (f : Nat) : BitVec 32 :=
  let q := s.part (f - 1)
  BitVec.ofNat 32 (b2n s.pwr.ready * 2 ^ 31 + b2n s.alm.inforce * 2 ^ 30 + b2n q.degraded * 2 ^ 13 + b2n q.paired * 2 ^ 12
    + q.st % 8 * 2 ^ 8 + (f - 1) % 64)
/-- A read of the FRM block. -/
def State.frmRead (s : State) (r : RegAt) : BitVec 32 × State :=
  match r.name with
  | .frmStatus => (s.frmStatus, s)
  | .frmCellState => (s.cellStateReg r.idx, s)
  | .frmPairDeg => (BitVec.ofNat 32 (maskOf 32 fun i => (s.part (32 * r.idx + i)).degraded), s)
  | .frmRotData => (s.rotData, s.rotAdvance)
  | n => (s.rd n r.unit r.idx, s)
/-- A read of the SHD block. -/
def State.shdRead (s : State) (r : RegAt) : BitVec 32 :=
  let d := s.shd
  match r.name with
  | .shdStat => BitVec.ofNat 32 (b2n d.run * 2 ^ 31 + d.slot % 2 * 2 ^ 30 + b2n d.trial * 2 ^ 29 + b2n d.ctl.pendFlag * 2 ^ 28
      + otpSvn s.sbk.otp % 128)
  | .shdMstat => s.mstat r.unit
  | .shdLogseq => BitVec.ofNat 32 d.logSeq
  | .shdLogstat => BitVec.ofNat 32 (b2n d.noPers * 2 ^ 31 + (if d.run then d.goodBlocks else 0))
  | n => s.rd n r.unit r.idx
/-- A read of the PWR block. -/
def State.pwrRead (s : State) (r : RegAt) : BitVec 32 :=
  let w := s.pwr
  match r.name with
  | .pwrStat => BitVec.ofNat 32 (b2n w.pwrgd * 2 ^ 31 + w.stage % 16 * 2 ^ 24 + w.cause % 8)
  | .clkLock => w.lock.setWidth 32
  | .clkCgate => BitVec.ofNat 32 (maskOf 32 fun i => 32 * r.idx + i < s.build.cores && (s.core (32 * r.idx + i)).entry == 0xF1)
  | n => s.rd n r.unit r.idx
/-- A read of the CELL block. -/
def State.cellRead (s : State) (r : RegAt) : BitVec 32 :=
  match r.name with
  | .cellMseq => s.mseq r.unit
  | .cellElogstat => putFld (s.rd .cellElogstat r.unit) 6 0 (s.elogOpen r.unit)
  | n => s.rd n r.unit r.idx
/-- R239, R256, R261: CLU_L2STAT. -/
def State.l2stat (s : State) (m : Nat) : BitVec 32 :=
  if (s.cell (s.build.cellOfClu m)).st == 0 then 0 else
  BitVec.ofNat 32 (b2n (s.cell (s.build.cellOfClu m)).l2off * 2 ^ 31 + s.scratchWays m % 16 * 2 ^ 16 + (s.failWays m).toNat)
/-- A read of the CLU block. -/
def State.cluRead (s : State) (r : RegAt) : BitVec 32 :=
  match r.name with
  | .cluCsdata => ((s.clu r.unit).csWord (s.rdf .cluCsaddr r.unit 0 12 0) >>> (32 * r.idx)).setWidth 32
  | .cluL2stat => s.l2stat r.unit
  | n => s.rd n r.unit r.idx
/-- R260: HOME_DIROCC of home slice `u`. -/
def State.dirOcc (s : State) (u : Nat) : BitVec 32 :=
  let es := s.dir.filter fun e => homeOf e.1 == u && (e.2.st != 0 || e.2.trans != 0)
  BitVec.ofNat 32 ((es.filter fun e => e.2.trans != 0).length * 2 ^ 16 + min 32768 es.length)
/-- A read of the HOME block. -/
def State.homeRead (s : State) (r : RegAt) : BitVec 32 :=
  let n := r.unit / 4
  let k := s.cell n
  match r.name with
  | .homeDirocc => s.dirOcc r.unit
  | .homeMemstat => BitVec.ofNat 32 (b2n k.hasKey * 2 ^ 31 + k.keyGen % 65536)
  | .homeFillstat => BitVec.ofNat 32 (b2n k.filling.isSome * 2 ^ 31 + k.fillq.length % 32 * 2 ^ 24 + k.filling.getD 0 % 2 ^ 20)
  | .homeFilled => BitVec.ofNat 32 (s.filledRegions n).length
  | .homeMapdata =>
    let i := s.rdf .homeMapaddr r.unit 0 14 0
    BitVec.ofNat 32 (maskOf 32 fun b => s.isFilled n (32 * i + b))
  | .homeHoepos => BitVec.ofNat 32 (k.hoePos % 2 ^ 20)
  | .homeHoeskip => BitVec.ofNat 32 (k.hoeLaps % 65536 * 2 ^ 16 + k.hoeSkip % 65536)
  | .homeBir => putBit (s.rd .homeBir r.unit r.idx) 30 (s.birBusy n r.idx)
  | m => s.rd m r.unit r.idx
/-- R314: CPX_STAT. -/
def State.cpxStat (s : State) (m : Nat) : BitVec 32 :=
  let run := s.jobs.filterMap fun e => match e.2 with
    | some j => if j.clu == m && j.st == .running then some j.units else none
    | none => none
  BitVec.ofNat 32 ((s.clu m).jobq.length % 64 * 2 ^ 24 + maskOf 8 fun u => run.any fun l => l.contains u)
/-- A read of the HCI block. -/
def State.hciRead (s : State) (r : RegAt) : BitVec 32 :=
  match r.name with
  | .hciStatus => s.hciStatus
  | .qpStat => s.qpStat 0 r.idx
  | n => s.rd n r.unit r.idx

/-- R8: the level that a read of the KST block needs. -/
def State.kstReadable (s : State) : Who → Bool
  | .host => false
  | .shed => true
  | .core c => 2 ≤ (s.core c).level

/-- R6, R8: a read of a register. -/
def State.regRead (s : State) (w : Who) (r : RegAt) : BitVec 32 × State :=
  match r.name.row.blk with
  | .glb => (if r.name == .glbId then BitVec.ofNat 32 s.build.glbId else s.rd r.name r.unit r.idx, s)
  | .hci => (s.hciRead r, s)
  | .frm => s.frmRead r
  | .tmu => s.tmuRead w r.name r.idx
  | .alm => (s.almRead r.name, s)
  | .sbk => (s.sbkRead w r.name r.idx, s)
  | .shd => (s.shdRead r, s)
  | .pwr => (s.pwrRead r, s)
  | .cell => (s.cellRead r, s)
  | .clu => (s.cluRead r, s)
  | .mem => (s.rd r.name r.unit r.idx, s)
  | .home => (s.homeRead r, s)
  | .kst => (if s.kstReadable w then s.kstRead r.name r.idx else 0, s)
  | .cpx => (if r.name == .cpxStat then s.cpxStat r.unit else s.rd r.name r.unit r.idx, s)
  | .mon => (s.monRead w r.name r.idx, s)

/-- R9, R10: a read of the PF's BAR0. -/
def State.bar0Read (s : State) (w : Who) (off : Nat) : BitVec 32 × State :=
  if off % 4 != 0 then (0, s)
  else match locate s.build off with
    | none => (0, s)
    | some r => s.regRead w r
/-- R10, R316: a read of a VF's BAR0 by the host. -/
def State.vfRead (s : State) (f off : Nat) : BitVec 32 :=
  if off == 0 then s.vfStat f
  else match vfReg off with
    | some (.qpStat, q) => s.qpStat f q
    | some (n, q) => s.qreg n f q
    | none => if 0x2000 ≤ off then s.msixRead f 0x1000 (off - 0x2000) else 0
/-- A four-byte read of a BAR of the PF (`vf` 0) or of BAR0 of a VF. -/
def State.barRead32 (s : State) (w : Who) (vf bar off : Nat) : BitVec 32 × State :=
  if vf == 0 && bar == 0 then s.bar0Read w off
  else if w != .host || off % 4 != 0 then (0, s)
  else if vf == 0 && bar == 2 then (s.msixRead 0 0x8000 off, s)
  else if bar == 0 && s.funcOk vf then (s.vfRead vf off, s)
  else (0, s)
/-- R6 to R10, R316: a read of `size` bytes of a BAR and what the read changes. R9: four naturally aligned bytes, or eight as
two reads of four, the lower address first; any other access reads 0. -/
def State.barRead (s : State) (w : Who) (vf bar off size : Nat) : BitVec 64 × State :=
  if size == 4 then let r := s.barRead32 w vf bar off; (r.1.setWidth 64, r.2)
  else if size == 8 && off % 8 == 0 then
    let l := s.barRead32 w vf bar off
    let h := l.2.barRead32 w vf bar (off + 4)
    (h.1 ++ l.1, h.2)
  else (0, s)

/-! ### The Shed core's map (R368) -/

/-- R368: what a word address of the Shed core names. -/
inductive ShedPlace where
  | rom (a : Nat)
  | sram (a : Nat)
  | device (d : Nat)
  | cell (pa : Nat)
  /-- Cause 0x19. -/
  | none
  deriving DecidableEq, Repr
/-- R368: the map. -/
def shedPlace (a : Nat) : ShedPlace :=
  if a < 0x8000 then .rom a
  else if 0x10000 ≤ a && a < 0x50000 then .sram (a - 0x10000)
  else if 0x1000000 ≤ a && a < 0x1400000 then .device (a - 0x1000000)
  else if 0x4000000000 ≤ a then .cell (a - 0x4000000000)
  else .none
/-- R368, R219: a load of the Shed core; none is cause 0x19. Its instructions are no commands (log 55). -/
def State.shedLoad (s : State) (a : Nat) : Option Word × State :=
  match shedPlace a with
  | .rom i => (some ⟨(Config.bootRom i >>> 64).setWidth 8, (Config.bootRom i).setWidth 64⟩, s)
  | .sram i => (some (Tab.get (fun _ => Word.empty) s.shd.sram i), s)
  | .device d => let r := s.bar0Read .shed (4 * d); (some (Word.fix (r.1.setWidth 64)), r.2)
  | .cell pa => if s.linePopulated (pa / 8) then let r := s.agentRead pa; (some r.1, r.2) else (none, s)
  | .none => (none, s)
/-- R368: a store of the Shed core, which counts as a Shed write (R11); none is cause 0x19, as for the read-only ROM. -/
def State.shedStore (s : State) (a : Nat) (w : Word) : Option State :=
  match shedPlace a with
  | .sram i => some (s.modShd fun d => { d with sram := Tab.set (fun _ => Word.empty) d.sram i w })
  | .device d => some (s.bar0Write .shed (4 * d) (w.pay.setWidth 32))
  | .cell pa => if s.linePopulated (pa / 8) then some (s.agentWrite pa w) else none
  | _ => none

end Sys2Proof.Machine
end

