-- ==== Sys2Proof/Machine/Heap.lean ====
section
/-!
DEFINITION. Memory as instructions reach it: base addresses (R82), device pages (R219, R220), loaded-word checks (R82),
dereference and forwarding (R114, R115), checked stores (R51, R52, R57, R60, R130) and allocation (R110 to R112).
-/
namespace Sys2Proof.Machine

/-! ### Reads and writes of one word -/

/-- The level that a core runs at. -/
def levelOp (c : Nat) : Op Nat := do return (← coreOp c).level
/-- The core serves a paired partition. -/
def pairedOp (c : Nat) : Op Bool := do return (← get).pairedOn c

/-- R219, R220: a load from a device page: the register at device word `d`. -/
def deviceLoad (c d : Nat) : Op Word := do
  fenceOp c
  let r := (← get).bar0Read (.core c) (4 * d)
  set r.2
  return Word.fix (r.1.setWidth 64)
/-- R219: the word that a store to a device page takes. -/
def deviceWord (w : Word) : Op Unit := do
  needTag w.isFix 2 w
  steer 0x08 2 w
/-- R219, R220: a store to a device page. -/
def deviceStore (c d : Nat) (w : Word) : Op Unit := do
  deviceWord w
  fenceOp c
  modify fun s => s.bar0Write (.core c) (4 * d) (w.pay.setWidth 32)

/-- A read of the word at a virtual address at the core's level: the entry, the physical word and the word. -/
def loadAt (c va : Nat) : Op (TlbEnt × Nat × Word) := do
  let r ← memAt c (← levelOp c) .load va
  if r.1.dev then return (r.1, r.2, ← deviceLoad c r.2)
  return (r.1, r.2, ← readPa c r.2)

/-- R82: the checks on a loaded word, the load barrier and the data watch. -/
def loadedOp (c va pa : Nat) (e : TlbEnt) (w : Word) (retry : Wait) : Op Word := do
  need (!w.isPoison) 0x1A va
  needTag (!w.malformed && !e.x) 3 w
  needTag (!(w.ty == tyWEAK && (← pairedOp c))) 3 w
  needTag (!(w.isFwd && (← levelOp c) ≤ 1)) 3 w
  barrier c va pa w false retry (watchOp c va false)
/-- R82: a checked load. -/
def loadOp (c va : Nat) (retry : Wait) : Op Word := do
  let r ← loadAt c va
  loadedOp c va r.2.1 r.1 r.2.2 retry

/-! ### Checked stores (R51, R52, R57, R60, R130, R55) -/

/-- R51: words that levels U and S do not store. -/
def privWord (w : Word) : Bool := w.isHdr || w.isFwd || w.ty == tyPTE || w.ty == tyGATE || w.isEmpty
/-- R82, R178 order 8: the checks of a store that depend on registers alone: `car` for the car of a cons cell, `bare` for a
destination that is no body word. -/
def storeRegs (c : Nat) (w : Word) (car bare : Bool) : Op Unit := do
  needTag (!(car && (w.isHdr || w.isEmpty))) 2 w
  needTag (2 ≤ (← levelOp c) || !privWord w) 2 w
  needTag (!(bare && w.isRaw)) 2 w

/-- R57, R60, R130, R55: the checks of a store that depend on its destination; `hd` is the header payload of the object whose
body word it is, none for any other place, where no `RAW` may stand. -/
def storeDest (c pa : Nat) (e : TlbEnt) (w : Word) (hd : Option B64) : Op Unit := do
  match hd with
  | some h =>
    let raw := rawKind (hdrKind h)
    needTag (!w.isRaw || raw || (recKind (hdrKind h) && hdrSealed h)) 2 w
    needTag (!raw || w.isRaw || w.isEmpty) 2 w
  | none => needTag (!w.isRaw) 2 w
  need (!w.sec || e.sl || (match hd with | some h => hdrSealed h | none => false)) 0x05 (secInfo 0x08 2)
  needTag (!e.x) 2 w
  if w.isHdr && (← levelOp c) < 3 then
    let o ← readPa c pa
    needTag (!(o.isHdr && hdrSealed o.pay != hdrSealed w.pay)) 2 w

/-- R82: the destination of a checked store is translated and checked, and the word performed. -/
def storeOp (c va : Nat) (w : Word) (hd : Option B64) : Op Unit := do
  let r ← memAt c (← levelOp c) .store va
  if r.1.dev then
    deviceWord w
    watchOp c va true
    deviceStore c r.2 w
  else
    storeDest c r.2 r.1 w hd
    let f ← cardFind c va w
    watchOp c va true
    sbRoom c 1 8
    cardPost c f
    pushStore c r.2 w false

/-! ### Dereference (R53, R114, R115) -/

/-- R53, R114 step 3: the address in a pointer. -/
def ptrAddr (o : Nat) (p : Word) : Op Nat := do
  needTag (ptrPayOk p.pay) o p
  return p.pay.toNat

/-- R49, R55, R114 steps 4 to 6 at an address, the first or (`last`) the target of a `FWD`. A `POISON` header raises 0x1A for
`SCANTAG` too, which does not raise it for the words it scans (DESIGN CHOICE, log 49). -/
def headerAt (c ty a : Nat) (last : Bool) : Op (Option (Nat × B64) × Nat) := do
  let r ← loadAt c a
  let h := r.2.2
  need (!h.isPoison) 0x1A a
  needTag (!h.malformed && !r.1.x) 3 h
  if h.isFwd then
    needTag (!last) 3 h
    return (none, h.pay.toNat % 2 ^ 54)
  else
    needTag (h.isHdr && kindPtr (hdrKind h.pay) == some ty) 3 h
    return (some (a, h.pay), 0)
/-- R114, R121: the header that a headered pointer reaches: its address and payload. -/
def derefOp (c : Nat) (p : Word) (o : Nat) : Op (Nat × B64) := do
  let a ← ptrAddr o p
  let r ← headerAt c p.ty a false
  match r.1 with
  | some x => return x
  | none => micro c 0x0088 do
    let q ← headerAt c p.ty r.2 true
    match q.1 with
    | some x => return x
    | none => trapOp 0x03 0

/-- R115, R121: where word `j` of a cons cell stands, after at most one `FWD`, whose tag must not be malformed (R49). -/
def consAddr (c : Nat) (p : Word) (o j : Nat) : Op Nat := do
  let a := (← ptrAddr o p) + j
  let r ← loadAt c a
  if r.2.2.isFwd && !r.1.x then
    needTag (!r.2.2.malformed) 3 r.2.2
    micro c 0x0090 do
      let b := r.2.2.pay.toNat % 2 ^ 54 + j
      let q ← loadAt c b
      needTag (!q.2.2.isFwd) 3 q.2.2
      return b
  else return a

/-- R82: the sum of a `FIX` payload and an offset. A sum at or above bit 54 lies outside every space: translation refuses
it. -/
def fixSum (b : Word) (off : Int) : Nat := (b.pay + BitVec.ofInt 64 off).toNat

/-- R82: the address and, for a body word, the header, of an access through the base `b` at offset `off`; `st` for a store. -/
def baseAddr (c : Nat) (b : Word) (off : Int) (st : Bool) : Op (Nat × Option B64) := do
  if b.isFix then
    steer 0x03 0 b
    return (fixSum b off, none)
  else if b.isCons then
    let _ ← ptrAddr 0 b
    need (off == 0 || off == 1) 0x04 (bndInfo 1)
    return (← consAddr c b 0 off.toNat, none)
  else
    let (a, h) ← derefOp c b 0
    let lo : Int := if st && (← levelOp c) ≤ 1 then 1 else 0
    need (lo ≤ off && off ≤ hdrLen h) 0x04 (bndInfo 1)
    return (a + off.toNat, if off == 0 then none else some h)

/-- R82, R114 step 1: the base of `LD` and `ST`. -/
def needBase (c : Nat) (b : Word) : Op Unit := do
  needTag (b.isPtr || (b.isFix && 1 ≤ (← levelOp c))) 0 b

/-! ### Allocation (R62, R110 to R112) -/

/-- AR0PTR to AR3LIM. -/
def arPtrN (n : Nat) : Nat := 0x018 + 2 * n
def arLimN (n : Nat) : Nat := 0x019 + 2 * n
/-- R110, R111: SINFO of trap 0x07. -/
def allocInfo (unclr : Bool) (n size : Nat) : Nat := b2n unclr * 2 ^ 36 + n % 4 * 2 ^ 34 + size % 2 ^ 33

/-- R110: pages from `va` to below `lim` are translated for write; a page that no object can stand on refuses the first word
written there. -/
def allocPages (c : Nat) (w : Word) : Nat → Nat → Nat → Op Bool
  | 0, _, _ => return true
  | n + 1, va, lim => do
    if lim ≤ va then return true
    let r ← memAt c (← levelOp c) .store va
    needTag (!r.1.dev && !r.1.x) 2 w
    let t ← allocPages c w n ((va / 512 + 1) * 512) lim
    return t && r.1.sl

/-- R110: the address of an allocation of `size` words whose first word is `w`, and whether every page of it has SEAL. Nothing
has changed when it traps (R111). -/
def allocOp (c n size : Nat) (w : Word) : Op (Nat × Bool) := do
  let k ← coreOp c
  let a := (k.spv (arPtrN n)).toNat % 2 ^ 54
  let lim := (k.spv (arLimN n)).toNat % 2 ^ 54 / 2 * 2
  let clr := (k.spv (arLimN n)).getLsbD 0
  need (a + size ≤ lim) 0x07 (allocInfo false n size)
  need (clr || size ≤ 1024) 0x07 (allocInfo true n size)
  let sl ← allocPages c w (size / 512 + 2) a (a + size)
  return (a, sl)
/-- R110: ARnPTR passes an allocation. -/
def allocDone (c n a : Nat) : Op Unit := modOp c fun k => (k.setSp (arPtrN n) (Word.nat a)).dirty 1
/-- Region `n` promises that its words are `EMPTY` (R112). -/
def clearOp (c n : Nat) : Op Bool := do return ((← coreOp c).spv (arLimN n)).getLsbD 0
/-- R62: the allocation count that the next headered object takes. -/
def nextSeq (c : Nat) : Op B64 := do return (← coreOp c).spv 0x004 + 1
/-- R62, R110: a headered allocation is complete: ARnPTR and IDSEQ advance. -/
def headedDone (c n a : Nat) (q : B64) : Op Unit := do
  allocDone c n a
  modOp c fun k => k.setSp 0x004 (Word.fix q)
/-- A store of a word into a fresh allocation. -/
def putWord (c va : Nat) (w : Word) : Op Unit := do
  let r ← memAt c (← levelOp c) .store va
  writePa c r.2 w
/-- The physical words for words stored from `va` upward; nothing changes. -/
def placeWords (c va : Nat) : List Word → Op (List (Nat × Word))
  | [] => return []
  | w :: t => do
    let r ← memAt c (← levelOp c) .store va
    let q ← placeWords c (va + 1) t
    return (r.2, w) :: q
/-- The lines of words are obtained, so that nothing waits once they are being written. -/
def ownWords (c : Nat) : List (Nat × Word) → Op Unit
  | [] => pure ()
  | e :: t => do
    ownLine c e.1
    ownWords c t
/-- R93: words from `va` upward, seen whole or not at all. -/
def putWhole (c va : Nat) (ws : List Word) : Op Unit := do
  let q ← placeWords c va ws
  drainFirst c
  ownWords c q
  l2Whole c q
/-- A pointer to an allocation, in the good colour. -/
def newPtr (c ty a : Nat) : Op Word := do return (← get).goodPtr c ty a

end Sys2Proof.Machine
end

