-- ==== Sys2Proof/Machine/Access.lean ====
section
/-!
DEFINITION. The memory events of a core that are not instructions: the hardware walker (R213 to R216), device accesses (R219,
R220), the store buffer (R246), first level fills (R232, R234) and the stride prefetcher (R235).
-/
namespace Sys2Proof.Machine

/-- An access that core `c` makes for the instruction at its PC: a trap is that instruction's; a wait leaves things as they
are. -/
def State.access (s : State) (c : Nat) (body : Op Unit) : State :=
  if !s.canIssue c || (s.core c).flushDue then s
  else
    let r := body.run.run s
    match r.1 with
    | .ok _ => r.2
    | .error (.trap cause info bank) => r.2.trapHere c cause info bank
    | .error _ => s

/-! ### The walker (R213) -/

/-- The cached leaf that a fetch finds. -/
def Core.fetchFind (k : Core) (asid va : Nat) : Option TlbEnt :=
  match k.itlb.find? fun e => e.hits asid va with
  | some e => some e
  | none => match k.l2tlb.find? fun e => e.hits asid va with
    | some e => some e
    | none => k.ltlb.find? fun e => e.hits asid va
/-- R221: a fetch leaf goes into the L1 ITLB. -/
def Core.itlbPut (k : Core) (e : TlbEnt) : Core :=
  let a := tlbPut 5 k.itlb k.itlbP e
  { k with itlb := a.1, itlbP := a.2 }
/-- R221: a fetch leaf goes into the L1 ITLB and into the L2 TLB or the large-page array. -/
def State.itlbFill (s : State) (c : Nat) (e : TlbEnt) : State := (s.leafFill c e).modCore c fun k => k.itlbPut e
/-- A hit in the L1 ITLB touches its tree; one behind it refills the ITLB, and in the large-page array touches that tree. -/
def Core.itlbHit (k : Core) (e : TlbEnt) : Core :=
  if k.itlb.contains e then { k with itlbP := plruTouch 5 k.itlbP e.way }
  else
    let k := if k.ltlb.contains e then { k with ltlbP := plruTouch 6 k.ltlbP e.way } else k
    k.itlbPut e
/-- R214, R216: a walk ends in a fault: FLTPTE and FLTVAL are loaded, and the fault is raised unless the walk was for a fetch
whose instruction has not been reached. -/
def State.walkFault (s : State) (c cause : Nat) (info : B64) (acc : Access) (va pte : Nat) (val : B64) : State :=
  let s := (s.setFlt c pte val).modCore c fun k => { k with walk := none }
  if acc == .fetch && (s.core c).pc.toNat % 2 ^ 54 != va then s else s.trapHere c cause info 2
/-- WALK (R213): the walk starts, from the deepest cached table pointer, or from the root where a cached leaf refused the
access (R215). -/
def State.startWalk (s : State) (c : Nat) (va : Nat) (acc : Access) : State :=
  let k := s.core c
  let lvl := k.level
  let r := k.root lvl
  let asid := rootAsid r
  if !s.canIssue c || k.walk.isSome || k.bare lvl then s
  else match preWalk lvl (rootMode r) acc va with
    | some info => s.walkFault c 0x10 info acc va 0 0
    | none =>
      let go := fun (s : State) (whole : Bool) =>
        let st := k.walkStart r va whole
        s.modCore c fun k => { k with walk := some ⟨BitVec.ofNat 64 va, acc, asid, st.1, st.2, st.1 != modeTop (rootMode r)⟩ }
      match (if acc == .fetch then k.fetchFind asid va else k.tlbFind asid va) with
      | some e =>
        if (permFault lvl (k.spv 0x047) e acc).isNone && (!accWrites acc || e.d) then
          s.modCore c fun k => if acc == .fetch then k.itlbHit e else k.tlbHit e
        else go (s.setCore c (k.tlbDrop asid va)) true
      | none => go s false
/-- WALK (R213). -/
def execWalk (c : Nat) (va : BitVec 64) (acc : Access) (s : State) : Out := onCore s c (s.startWalk c va.toNat acc)
/-- WALK_READ_RETURN (R213): one table word arrives. R215, R228: a fault met below a cached table pointer makes the walker
start again from the root. -/
def State.walkReturn (s : State) (c : Nat) : State :=
  let k := s.core c
  match k.walk with
  | none => s
  | some w =>
    if !s.canIssue c then s
    else
      let va := w.va.toNat
      let r := s.walkStep (c / 4) false k.level (k.spv 0x047) w.acc w.asid va w.level w.table
      match r.1 with
      | .stall => r.2
      | .next j t => (r.2.walkFill c w.asid va [(j, t)]).modCore c fun k => { k with walk := some { w with level := j, table := t } }
      | .fault cause info pte v =>
        if w.cached then
          let root := k.root k.level
          r.2.modCore c fun k =>
            { k with walk := some { w with level := modeTop (rootMode root), table := rootTable root, cached := false } }
        else r.2.walkFault c cause info w.acc va pte v
      | .leaf e =>
        let s := r.2.modCore c fun k => { k with walk := none }
        if w.acc == .fetch then s.itlbFill c e else s.tlbFill c e
/-- WALK_READ_RETURN (R213). -/
def execWalkReadReturn (c : Nat) (s : State) : Out := onCore s c (s.walkReturn c)

/-! ### Device pages (R219, R220) -/

/-- R219: a load (`wr` none) or store of a device page; an address of another page is no device access. -/
def deviceOp (c va : Nat) (wr : Option Word) : Op Unit := do
  let x ← transAt c (← levelOp c) (match wr with | some _ => .store | none => .load) va
  if x.1.dev then
    match wr with
    | some w => deviceStore c x.2 w
    | none =>
      let w ← deviceLoad c x.2
      modify fun s => { s with rdata := w.pay.setWidth 32 }
/-- DEVICE_ACCESS (R219). -/
def execDeviceAccess (c : Nat) (va : BitVec 64) (wr : Option Word) (s : State) : Out :=
  onCore s c (s.access c (deviceOp c va.toNat wr))

/-! ### The store buffer, first level fills, prefetch -/

/-- A cell's caches work: it is not DOWN, and no zeroization runs. -/
def State.cachesRun (s : State) (c : Nat) : Bool := (s.cell (s.build.cellOfCore c)).st != 4 && !s.alm.zbusy
/-- STORE_PERFORM (R246). -/
def execStorePerform (c : Nat) (s : State) : Out := onCore s c (if s.cachesRun c then (s.performOldest c).1 else s)

/-- R235: an L1D load miss at a line: a stream that it follows advances, and a miss that follows none starts one. -/
def streamMiss (l : List Stream) (line : Nat) : List Stream :=
  let dist := fun (x : Stream) => (line : Int) - x.last
  let follows := fun (x : Stream) =>
    let d := dist x
    if x.stride == 0 then d != 0 && -8 ≤ d && d ≤ 8
    else if 2 ≤ x.hits then d == x.stride || d == 2 * x.stride || d == 3 * x.stride || d == 4 * x.stride || d == 5 * x.stride
    else d == x.stride
  match l.find? follows with
  | some x =>
    { x with last := line, stride := if x.stride == 0 then dist x else x.stride, hits := min 2 (x.hits + 1) } :: l.erase x
  | none => (⟨line, 0, 0, line⟩ :: l).take 16
/-- R235: a demand access that hits: it advances the confirmed stream that it follows, and starts none. -/
def streamHit (l : List Stream) (line : Nat) : List Stream :=
  match l.find? fun x => 2 ≤ x.hits && (List.range 5).any fun i => (line : Int) - x.last == x.stride * (i + 1) with
  | some x => { x with last := line } :: l.erase x
  | none => l
/-- R221: where a fetch finds its line: by a cached leaf that permits it, or in bare mode; none where it must walk first. -/
def State.fetchPa (s : State) (c va : Nat) : Option Nat :=
  let k := s.core c
  let lvl := k.level
  if k.bare lvl then (if va < 2 ^ 37 then some (s.build.cellOfCore c * 2 ^ 37 + va) else none)
  else match k.fetchFind (rootAsid (k.root lvl)) va with
    | some e => if e.dev || (permFault lvl (k.spv 0x047) e .fetch).isSome then none else some (e.addr va)
    | none => none
/-- R207, R238: a line that an L1 may hold: of the core's own cell and not of the scratch window. -/
def State.l1May (s : State) (c pa : Nat) : Bool :=
  let n := s.build.cellOfCore c
  !(s.cell n).l2off && pa / 2 ^ 37 == n && s.linePopulated (pa / 8)
/-- R232 to R235: the L1 access of a fetch or a load at `va`, whose line is at `pa`: a hit, or a miss that fills. A parity error
is a miss that is counted (R233). -/
def l1Access (c va pa : Nat) (fetch parity : Bool) : Op Unit := do
  let s ← get
  let l := pa / 8
  let held := (s.core c).l1Has fetch va l
  if held && parity then
    set ((s.inc32 .cluL2ce (c / 4)).modCore c fun k => k.l1Lose fetch l)
  let r := (← get).acquireS (c / 4) l
  set r.1
  if r.2 then
    let hit := held && !parity
    if !hit then modOp c fun k => k.pmc (if fetch then 9 else 8) 1
    if fetch then modOp c fun k => k.l1iFill va l
    else modOp c fun k =>
      { k.l1dFill va l with streams := if hit then streamHit k.streams (va / 8) else streamMiss k.streams (va / 8) }
  else stall
/-- R234: the L1 access of a fetch or of a load; a store never allocates (R233). -/
def l1FillOp (c va : Nat) (acc : Access) (parity : Bool) : Op Unit :=
  match acc with
  | .load => do
    let x ← transAt c (← levelOp c) .load va
    if !x.1.dev && (← get).l1May c x.2 then l1Access c va x.2 false parity
  | .fetch => do
    let s ← get
    match s.fetchPa c va with
    | some pa => if s.l1May c pa then l1Access c va pa true parity
    | none => pure ()
  | _ => pure ()
/-- L1D_FILL (R234): the fill of a load that the strand performs, or of its fetch; where no access could be performed nothing is
filled. -/
def State.l1FillCmd (s : State) (c va : Nat) (acc : Access) (parity : Bool) : State :=
  if !s.canIssue c then s
  else
    let r := (l1FillOp c va acc parity).run.run s
    match r.1 with
    | .ok _ => r.2
    | .error (.wait _) => r.2
    | .error _ => s
/-- L1D_FILL (R234). -/
def execL1dFill (c : Nat) (va : BitVec 64) (s : State) (acc : Access := .load) (parity : Bool := false) : Out :=
  onCore s c (s.l1FillCmd c va.toNat acc parity)

/-- R235: the next line of a confirmed stream that is at most four strides ahead (DESIGN CHOICE, log 52: for a stride other than
1 the rule does not say whether its lines ahead are counted in lines or in strides). -/
def Stream.nextLine (x : Stream) : Option Nat :=
  if x.hits < 2 || x.stride == 0 then none
  else
    let past := if 0 < x.stride then (x.last : Int) < x.ahead else (x.ahead : Int) < x.last
    let t : Int := (if past then (x.ahead : Int) else x.last) + x.stride
    if t < 0 || 4 * 8 < (t - x.last).natAbs || 4 < (t - x.last).natAbs / x.stride.natAbs then none else some t.toNat
/-- R216, R235: a prefetched line must lie on a page that has a TLB entry, or in bare memory. -/
def State.prefetchPa (s : State) (c line : Nat) : Option Nat :=
  let k := s.core c
  let va := line * 8
  let n := s.build.cellOfCore c
  let pa :=
    if k.bare k.level then (if va < 2 ^ 37 then some (n * 2 ^ 37 + va) else none)
    else match k.tlbFind (rootAsid (k.root k.level)) va with
      | some e => if e.dev || (permFault k.level (k.spv 0x047) e .load).isSome then none else some (e.addr va)
      | none => none
  match pa with
  | some a => if a / 2 ^ 37 == n && s.linePopulated (a / 8) then some a else none
  | none => none
/-- R235: one line of the first confirmed stream that is not far enough ahead is prefetched into the L2 and the L1D; a stream
that may not go on stops. -/
def State.prefetch (s : State) (c : Nat) : State :=
  let k := s.core c
  match k.streams.find? fun x => x.nextLine.isSome with
  | none => s
  | some x =>
    let line := x.nextLine.getD 0
    match s.prefetchPa c line with
    | none => s.modCore c fun k => { k with streams := k.streams.erase x }
    | some pa =>
      let r := s.acquireS (c / 4) (pa / 8)
      if !r.2 then r.1
      else r.1.modCore c fun k =>
        { k.l1dFill (line * 8) (pa / 8) with streams := k.streams.map fun y => if y == x then { y with ahead := line } else y }
/-- PREFETCH (R235). -/
def execPrefetch (c : Nat) (s : State) : Out :=
  onCore s c (if s.canIssue c && !(s.cell (s.build.cellOfCore c)).l2off then s.prefetch c else s)

end Sys2Proof.Machine
end

