-- ==== Sys2Proof/Machine/Alu.lean ====
section
/-!
DEFINITION. Machine integer and logical operations, immediates, bit fields and tag instructions (R76 to R80, R135).
-/
namespace Sys2Proof.Machine

/-- R75, R76: a machine operation of two word operands. -/
def wordAlu (c : Nat) (rd rs1 rs2 : Reg) (f : B64 → B64 → B64) : Op Flow := do
  let a ← wordOp c 0 rs1
  let b ← wordOp c 1 rs2
  putOp c rd (wordRes [a, b] (f a.pay b.pay))
  return .seq
/-- R76, R127: a shift by a register count, which steers. -/
def wordShift (c : Nat) (rd rs1 rs2 : Reg) (f : B64 → Nat → B64) : Op Flow := do
  let a ← wordOp c 0 rs1
  let b ← wordOp c 1 rs2
  steer 0x05 1 b
  putOp c rd (wordRes [a, b] (f a.pay b.pay.toNat))
  return .seq
/-- R76, R127: a variable-time division: both operands steer, a divisor of 0 traps. -/
def wordDiv (c : Nat) (rd rs1 rs2 : Reg) (f : B64 → B64 → B64) : Op Flow := do
  let a ← wordOp c 0 rs1
  let b ← wordOp c 1 rs2
  steer 0x06 0 a
  steer 0x06 1 b
  need (b.pay != 0) 0x04 (bndInfo 1)
  putOp c rd (wordRes [a, b] (f a.pay b.pay))
  return .seq
/-- R76: a comparison: always `FIX`. -/
def wordCmp (c : Nat) (rd rs1 rs2 : Reg) (f : B64 → B64 → Bool) : Op Flow := do
  let a ← wordOp c 0 rs1
  let b ← wordOp c 1 rs2
  putOp c rd (fixRes [a, b] (boolPay (f a.pay b.pay)))
  return .seq
/-- R76: a count of one operand: always `FIX`. -/
def wordCount (c : Nat) (rd rs1 : Reg) (f : B64 → Nat) : Op Flow := do
  let a ← wordOp c 0 rs1
  putOp c rd (fixRes [a] (BitVec.ofNat 64 (f a.pay)))
  return .seq
/-- R78: a machine operation with an immediate, which counts as a public `FIX`. -/
def wordImm (c : Nat) (rd rs1 : Reg) (i : B64) (f : B64 → B64 → B64) : Op Flow := do
  let a ← wordOp c 0 rs1
  putOp c rd (wordRes [a] (f a.pay i))
  return .seq

/-- WADD (R76). -/
def execWadd (c : Nat) (rd rs1 rs2 : Reg) (s : State) : Out := instr c (wordAlu c rd rs1 rs2 (· + ·)) s
/-- WSUB (R76). -/
def execWsub (c : Nat) (rd rs1 rs2 : Reg) (s : State) : Out := instr c (wordAlu c rd rs1 rs2 (· - ·)) s
/-- WMUL (R76). -/
def execWmul (c : Nat) (rd rs1 rs2 : Reg) (s : State) : Out := instr c (wordAlu c rd rs1 rs2 (· * ·)) s
/-- WMULHU (R76). -/
def execWmulhu (c : Nat) (rd rs1 rs2 : Reg) (s : State) : Out := instr c (wordAlu c rd rs1 rs2 mulhu) s
/-- WMULHS (R76). -/
def execWmulhs (c : Nat) (rd rs1 rs2 : Reg) (s : State) : Out := instr c (wordAlu c rd rs1 rs2 mulhs) s
/-- DIVCT (R76). -/
def execDivct (c : Nat) (rd rs1 rs2 : Reg) (s : State) : Out := instr c (wordAlu c rd rs1 rs2 divct) s
/-- REMCT (R76). -/
def execRemct (c : Nat) (rd rs1 rs2 : Reg) (s : State) : Out := instr c (wordAlu c rd rs1 rs2 remct) s
/-- DIV (R76). -/
def execDiv (c : Nat) (rd rs1 rs2 : Reg) (s : State) : Out := instr c (wordDiv c rd rs1 rs2 divs) s
/-- REM (R76). -/
def execRem (c : Nat) (rd rs1 rs2 : Reg) (s : State) : Out := instr c (wordDiv c rd rs1 rs2 rems) s
/-- AND (R76). -/
def execAnd (c : Nat) (rd rs1 rs2 : Reg) (s : State) : Out := instr c (wordAlu c rd rs1 rs2 (· &&& ·)) s
/-- OR (R76). -/
def execOr (c : Nat) (rd rs1 rs2 : Reg) (s : State) : Out := instr c (wordAlu c rd rs1 rs2 (· ||| ·)) s
/-- XOR (R76). -/
def execXor (c : Nat) (rd rs1 rs2 : Reg) (s : State) : Out := instr c (wordAlu c rd rs1 rs2 (· ^^^ ·)) s
/-- ANDN (R76). -/
def execAndn (c : Nat) (rd rs1 rs2 : Reg) (s : State) : Out := instr c (wordAlu c rd rs1 rs2 fun a b => a &&& ~~~b) s
/-- SHL (R76). -/
def execShl (c : Nat) (rd rs1 rs2 : Reg) (s : State) : Out := instr c (wordShift c rd rs1 rs2 shlBy) s
/-- SHR (R76). -/
def execShr (c : Nat) (rd rs1 rs2 : Reg) (s : State) : Out := instr c (wordShift c rd rs1 rs2 shrBy) s
/-- SAR (R76). -/
def execSar (c : Nat) (rd rs1 rs2 : Reg) (s : State) : Out := instr c (wordShift c rd rs1 rs2 sarBy) s
/-- ROL (R76). -/
def execRol (c : Nat) (rd rs1 rs2 : Reg) (s : State) : Out := instr c (wordShift c rd rs1 rs2 rolBy) s
/-- ROR (R76). -/
def execRor (c : Nat) (rd rs1 rs2 : Reg) (s : State) : Out := instr c (wordShift c rd rs1 rs2 rorBy) s
/-- CLZ (R76). -/
def execClz (c : Nat) (rd rs1 : Reg) (s : State) : Out := instr c (wordCount c rd rs1 clz64) s
/-- CTZ (R76). -/
def execCtz (c : Nat) (rd rs1 : Reg) (s : State) : Out := instr c (wordCount c rd rs1 ctz64) s
/-- PERM (R76). -/
def execPerm (c : Nat) (rd rs1 rs2 : Reg) (s : State) : Out := instr c (wordAlu c rd rs1 rs2 permBytes) s
/-- WEQ (R76). -/
def execWeq (c : Nat) (rd rs1 rs2 : Reg) (s : State) : Out := instr c (wordCmp c rd rs1 rs2 (· == ·)) s
/-- WLTU (R76). -/
def execWltu (c : Nat) (rd rs1 rs2 : Reg) (s : State) : Out := instr c (wordCmp c rd rs1 rs2 BitVec.ult) s
/-- WLTS (R76). -/
def execWlts (c : Nat) (rd rs1 rs2 : Reg) (s : State) : Out := instr c (wordCmp c rd rs1 rs2 BitVec.slt) s

/-- SEL (R77). -/
def selOp (c : Nat) (rd rs1 rs2 : Reg) : Op Flow := do
  let q ← fixOp c 0 rs1
  let a ← regOp c rs2
  let d ← regOp c rd
  needTag (a.ty == d.ty && a.sub == d.sub) 1 a
  let sc := q.sec || a.sec || d.sec
  need (!sc || secAllowed a.ty) 0x05 (secInfo 0x09 2)
  putOp c rd (mkWord a.ty sc a.sub (if q.pay != 0 then a.pay else d.pay))
  return .seq
/-- SEL (R77). -/
def execSel (c : Nat) (rd rs1 rs2 : Reg) (s : State) : Out := instr c (selOp c rd rs1 rs2) s
/-- MOV (R76). -/
def movOp (c : Nat) (rd rs1 : Reg) : Op Flow := do
  putOp c rd (← regOp c rs1)
  return .seq
/-- MOV (R76). -/
def execMov (c : Nat) (rd rs1 : Reg) (s : State) : Out := instr c (movOp c rd rs1) s
/-- EQ (R54, R76). -/
def eqOp (c : Nat) (rd rs1 rs2 : Reg) : Op Flow := do
  let a ← regOp c rs1
  let b ← regOp c rs2
  putOp c rd (fixRes [a, b] (boolPay (a.identical b)))
  return .seq
/-- EQ (R54, R76). -/
def execEq (c : Nat) (rd rs1 rs2 : Reg) (s : State) : Out := instr c (eqOp c rd rs1 rs2) s

/-! ### Immediates (R78) -/

/-- WADDI (R78). -/
def execWaddi (c : Nat) (rd rs1 : Reg) (imm : BitVec 13) (s : State) : Out :=
  instr c (wordImm c rd rs1 (imm.signExtend 64) (· + ·)) s
/-- ANDI (R78). -/
def execAndi (c : Nat) (rd rs1 : Reg) (imm : BitVec 13) (s : State) : Out :=
  instr c (wordImm c rd rs1 (imm.setWidth 64) (· &&& ·)) s
/-- ORI (R78). -/
def execOri (c : Nat) (rd rs1 : Reg) (imm : BitVec 13) (s : State) : Out :=
  instr c (wordImm c rd rs1 (imm.setWidth 64) (· ||| ·)) s
/-- XORI (R78). -/
def execXori (c : Nat) (rd rs1 : Reg) (imm : BitVec 13) (s : State) : Out :=
  instr c (wordImm c rd rs1 (imm.setWidth 64) (· ^^^ ·)) s
/-- R78: the operation that imm13[12:10] of `SHI` selects. -/
def shiOf (sel : Nat) (a : B64) (n : Nat) : B64 :=
  match sel with
  | 0 => shlBy a n
  | 1 => shrBy a n
  | 2 => sarBy a n
  | 3 => rolBy a n
  | _ => rorBy a n
/-- SHI (R78). -/
def shiOp (c : Nat) (rd rs1 : Reg) (imm : BitVec 13) : Op Flow := do
  need (fld imm 12 10 ≤ 4 && fld imm 9 6 == 0) 0x01
  wordImm c rd rs1 0 fun a _ => shiOf (fld imm 12 10) a (fld imm 5 0)
/-- SHI (R78). -/
def execShi (c : Nat) (rd rs1 : Reg) (imm : BitVec 13) (s : State) : Out := instr c (shiOp c rd rs1 imm) s
/-- LDI (R78). -/
def ldiOp (c : Nat) (rd : Reg) (imm : BitVec 18) : Op Flow := do
  putOp c rd (Word.fix (imm.signExtend 64))
  return .seq
/-- LDI (R78). -/
def execLdi (c : Nat) (rd : Reg) (imm : BitVec 18) (s : State) : Out := instr c (ldiOp c rd imm) s
/-- LDSH (R78). -/
def ldshOp (c : Nat) (rd : Reg) (imm : BitVec 18) : Op Flow := do
  let d ← wordOp c 2 rd
  putOp c rd (wordRes [d] ((d.pay <<< 18) ||| imm.setWidth 64))
  return .seq
/-- LDSH (R78). -/
def execLdsh (c : Nat) (rd : Reg) (imm : BitVec 18) (s : State) : Out := instr c (ldshOp c rd imm) s

/-! ### Bit fields (R79) -/

/-- R79: the field ends within the word. -/
def fieldOk (pos len1 : BitVec 6) : Op Unit := need (pos.toNat + len1.toNat + 1 ≤ 64) 0x01
/-- BFX and BFXS (R79). -/
def bfxOp (c : Nat) (rd rs1 : Reg) (pos len1 : BitVec 6) (sgn : Bool) : Op Flow := do
  fieldOk pos len1
  let a ← wordOp c 0 rs1
  putOp c rd (wordRes [a] ((if sgn then bfxS else bfxU) a.pay pos.toNat (len1.toNat + 1)))
  return .seq
/-- BFX (R79). -/
def execBfx (c : Nat) (rd rs1 : Reg) (pos len1 : BitVec 6) (s : State) : Out := instr c (bfxOp c rd rs1 pos len1 false) s
/-- BFXS (R79). -/
def execBfxs (c : Nat) (rd rs1 : Reg) (pos len1 : BitVec 6) (s : State) : Out := instr c (bfxOp c rd rs1 pos len1 true) s
/-- BFI (R79). -/
def bfiOp (c : Nat) (rd rs1 : Reg) (pos len1 : BitVec 6) : Op Flow := do
  fieldOk pos len1
  let a ← wordOp c 0 rs1
  let d ← wordOp c 2 rd
  putOp c rd (wordRes [a, d] (bfiOf d.pay a.pay pos.toNat (len1.toNat + 1)))
  return .seq
/-- BFI (R79). -/
def execBfi (c : Nat) (rd rs1 : Reg) (pos len1 : BitVec 6) (s : State) : Out := instr c (bfiOp c rd rs1 pos len1) s

/-! ### Tags (R80, R135) -/

/-- R47, R80, R151: the tag byte that `TAGOF` returns: below level T of a paired partition a pointer's SUB reads 0. -/
def State.tagSeen (s : State) (c : Nat) (w : Word) : Nat :=
  if s.pairedOn c && (s.core c).level ≤ 1 && w.isPtr then w.tag.toNat / 4 * 4 else w.tag.toNat
/-- TAGOF (R80). -/
def tagofOp (c : Nat) (rd rs1 : Reg) : Op Flow := do
  let w ← regOp c rs1
  putOp c rd (Word.nat ((← get).tagSeen c w))
  return .seq
/-- TAGOF (R80). -/
def execTagof (c : Nat) (rd rs1 : Reg) (s : State) : Out := instr c (tagofOp c rd rs1) s
/-- R80: the mask register: a public `FIX`. -/
def maskOp (c : Nat) (o : Nat) (r : Reg) : Op Word := do
  let m ← fixOp c o r
  steer 0x07 o m
  return m
/-- TCHK (R80). -/
def tchkOp (c : Nat) (rs1 rs2 : Reg) : Op Flow := do
  let m ← maskOp c 1 rs2
  let w ← regOp c rs1
  needTag (tagTest w m.pay) 0 w
  return .seq
/-- TCHK (R80). -/
def execTchk (c : Nat) (rs1 rs2 : Reg) (s : State) : Out := instr c (tchkOp c rs1 rs2) s
/-- TTST (R80). -/
def ttstOp (c : Nat) (rd rs1 rs2 : Reg) : Op Flow := do
  let m ← maskOp c 1 rs2
  let w ← regOp c rs1
  putOp c rd (Word.fix (boolPay (tagTest w m.pay)))
  return .seq
/-- TTST (R80). -/
def execTtst (c : Nat) (rd rs1 rs2 : Reg) (s : State) : Out := instr c (ttstOp c rd rs1 rs2) s
/-- R49, R50, R80, R39: a payload with a new tag byte, which makes a well-formed word; SINFO names operand 1, which gives the
tag. -/
def retagTo (c : Nat) (rd : Reg) (w : Word) (t : BitVec 8) : Op Flow := do
  let n : Word := ⟨t, w.pay⟩
  needTag (!(Word.malformed (n.withSec false)) && n.payOk) 1 n
  need (!n.sec || secAllowed n.ty) 0x05 (secInfo 0x09 1)
  needTag (!(n.ty == tyWEAK && (← get).pairedOn c)) 2 n
  putOp c rd n
  return .seq
/-- RETAG (R80). -/
def retagOp (c : Nat) (rd rs1 rs2 : Reg) : Op Flow := do
  needLevel c 2
  let m ← maskOp c 1 rs2
  let w ← regOp c rs1
  retagTo c rd w (m.pay.setWidth 8)
/-- RETAG (R80). -/
def execRetag (c : Nat) (rd rs1 rs2 : Reg) (s : State) : Out := instr c (retagOp c rd rs1 rs2) s
/-- DECL (R80, R135). -/
def declOp (c : Nat) (rd rs1 : Reg) : Op Flow := do
  let k ← coreOp c
  need (2 ≤ k.level || k.pbit 7) 0x0B
  let w ← regOp c rs1
  putOp c rd (w.withSec false)
  return .seq
/-- DECL (R80, R135). -/
def execDecl (c : Nat) (rd rs1 : Reg) (s : State) : Out := instr c (declOp c rd rs1) s
/-- TCHKI (R80). -/
def tchkiOp (c : Nat) (rs1 : Reg) (imm : BitVec 18) : Op Flow := do
  let w ← regOp c rs1
  needTag (tagTestI w imm) 0 w
  return .seq
/-- TCHKI (R80). -/
def execTchki (c : Nat) (rs1 : Reg) (imm : BitVec 18) (s : State) : Out := instr c (tchkiOp c rs1 imm) s
/-- TTSTI (R80). -/
def ttstiOp (c : Nat) (rd rs1 : Reg) (imm : BitVec 18) : Op Flow := do
  let w ← regOp c rs1
  putOp c rd (Word.fix (boolPay (tagTestI w imm)))
  return .seq
/-- TTSTI (R80). -/
def execTtsti (c : Nat) (rd rs1 : Reg) (imm : BitVec 18) (s : State) : Out := instr c (ttstiOp c rd rs1 imm) s
/-- RETAGI (R80). -/
def retagiOp (c : Nat) (rd rs1 : Reg) (imm : BitVec 13) : Op Flow := do
  need (fld imm 12 8 == 0) 0x01
  needLevel c 2
  let w ← regOp c rs1
  retagTo c rd w (imm.setWidth 8)
/-- RETAGI (R80). -/
def execRetagi (c : Nat) (rd rs1 : Reg) (imm : BitVec 13) (s : State) : Out := instr c (retagiOp c rd rs1 imm) s

end Sys2Proof.Machine
end

