-- ==== Sys2Proof/Machine/Generic.lean ====
section
/-!
DEFINITION. Generic arithmetic (R81, R102 to R108): the checks in their order, the paths by type pair, promotion and bignums.
-/
namespace Sys2Proof.Machine

/-- R103: SINFO of trap 0x02. -/
def typeInfo (o reason : Nat) : Nat := o * 16 + reason

/-- R102: a number. -/
def isNumber (w : Word) : Bool := w.isFix || w.isFlo || w.isBig
/-- R102 checks 1 to 3. -/
def genericChecks (a b : Word) : Op Unit := do
  needTag (!(a.isEmpty || a.malformed)) 0 a
  needTag (!(b.isEmpty || b.malformed)) 1 b
  need (isNumber a) 0x02 (typeInfo 0 0)
  need (isNumber b) 0x02 (typeInfo 1 0)
  let both := a.isFix && b.isFix
  need (!a.sec || both) 0x05 (secInfo 0x0A 0)
  need (!b.sec || both) 0x05 (secInfo 0x0A 1)

/-- R102 check 4: the header of a `BIG` operand: its address and LENGTH; none for the other numbers. -/
def bigHeader (c o : Nat) (w : Word) : Op (Option (Nat × Nat)) := do
  if w.isBig then
    let (a, h) ← derefOp c w o
    return some (a, hdrLen h)
  else return none
/-- R102 check 5, from a header. -/
def bigLength (o : Nat) : Option (Nat × Nat) → Op Unit
  | none => pure ()
  | some (_, n) => do
    need (2 ≤ n) 0x02 (typeInfo o 1)
    need (n ≤ 1024) 0x02 (typeInfo o 2)
/-- R102 check 5: `n` digits from `va` upward; the loads are those of R49 and R55, so a malformed tag or an instruction page
raises 0x03. -/
def bigDigits (c o va : Nat) : Nat → Op (List B64)
  | 0 => return []
  | n + 1 => do
    let r ← loadAt c va
    need (!r.2.2.isPoison) 0x1A va
    needTag (!r.1.x && !r.2.2.malformed) 3 r.2.2
    need (r.2.2.isRaw && !r.2.2.sec) 0x02 (typeInfo o 1)
    let t ← bigDigits c o (va + 1) n
    return r.2.2.pay :: t
/-- A number operand with its value. -/
inductive Arg where
  | int (v : Int)
  | flo (b : B64)
  deriving DecidableEq, Repr
/-- R102 check 5, from the digits: the value of an operand. -/
def argOf (c o : Nat) (w : Word) (h : Option (Nat × Nat)) : Op Arg := do
  match h with
  | some (a, n) =>
    let ds ← bigDigits c o (a + 1) n
    need (canonical ds) 0x02 (typeInfo o 1)
    return .int (digitsInt ds)
  | none => return if w.isFlo then .flo w.pay else .int w.int
/-- R107: the digits that an operand counts. -/
def argLen (h : Option (Nat × Nat)) : Nat := (h.map Prod.snd).getD 1
/-- R102 checks 4 and 5 for both operands: their values and digit counts. -/
def genericArgs (c : Nat) (a b : Word) (mul : Bool) : Op ((Arg × Nat) × Arg × Nat) := do
  let ha ← bigHeader c 0 a
  let hb ← bigHeader c 1 b
  bigLength 0 ha
  bigLength 1 hb
  let anyBig := a.isBig || b.isBig
  need (!(mul && anyBig && !a.isFlo && !b.isFlo && 1024 < argLen ha * argLen hb)) 0x02 (typeInfo 2 2)
  let x ← argOf c 0 a ha
  let y ← argOf c 1 b hb
  return ((x, argLen ha), y, argLen hb)

/-- R119: core `c` resumes a stopped resuming sequence. -/
def resumesOp (c : Nat) : Op Bool := do
  let k ← coreOp c
  return k.pbit 3 && k.ucResume != 0
/-- R62: the header of a bignum object of `n` digits that takes the next allocation count. -/
def bigHdr (c n : Nat) : Op Word := do
  return mkWord tyHDR false 0 (mkHdr n (idHash (← nextSeq c).toNat) 0x05 false 0 false)
/-- R107, R119: where the result object of `n` digits stands: the one that a stopped sequence has allocated, which its first
temporary addresses, or a new allocation from region 0. -/
def bigPlace (c n : Nat) : Op Nat := do
  let t := (← coreOp c).preg 248
  if (← resumesOp c) && t.isBig then return t.pay.toNat
  else
    let (a, _) ← allocOp c 0 (objSize n) (← bigHdr c n)
    return a
/-- R106, R107: an integer returned in an object of `n` digits allocated from region 0, shrunk to fit. The words released are
`EMPTY`; where nothing is released the padding word of a cleared region (CLR) is left as it stands. -/
def bigResult (c : Nat) (rd : Reg) (v : Int) (n : Nat) : Op Unit := do
  let q ← nextSeq c
  let ds := intDigits v
  let a ← bigPlace c n
  let clr ← clearOp c 0
  if fitsFix v then
    putWhole c a (List.replicate (objSize n) Word.empty)
    allocDone c 0 a
    putOp c rd (Word.fix (BitVec.ofInt 64 v))
  else
    let rest := if clr && ds.length == n then 0 else objSize n - (1 + ds.length)
    putWhole c a ((← bigHdr c ds.length) :: (ds.map fun d => Word.raw d) ++ List.replicate rest Word.empty)
    headedDone c 0 (a + objSize ds.length) q
    putOp c rd (← newPtr c tyBIG a)

/-- A generic arithmetic operation: on integers, on binary64, its function value, whether its digits multiply, and its slow
path's entry (R121). -/
structure GenOp where
  ints : Int → Int → Int
  flos : B64 → B64 → B64
  fn : Nat
  mul : Bool
  entry : Nat
/-- R107: the digits allocated. -/
def GenOp.digits (g : GenOp) (la lb : Nat) : Nat := if g.mul then la + lb else max la lb + 1
/-- The binary64 value of an operand (R104). -/
def Arg.toFlo : Arg → B64
  | .int v => floOfInt v
  | .flo b => b

/-- R119, R121: the slow path of a generic operation: from its entry, or from the resume entry. -/
def slowPath {α : Type} (c entry : Nat) (body : Op α) : Op α := do
  if ← resumesOp c then micro c 0x00C0 body else micro c entry body
/-- R81, R102, R104 to R107: a generic arithmetic operation on two operands. -/
def genericOp (c : Nat) (rd : Reg) (g : GenOp) (a b : Word) : Op Flow := do
  genericChecks a b
  if a.isFix && b.isFix then
    let v := g.ints a.int b.int
    if a.sec || b.sec || fitsFix v then putOp c rd (fixRes [a, b] (BitVec.ofInt 64 v))
    else
      need (!(← coreOp c).pbit 5) 0x08 g.fn
      micro c 0x0080 (bigResult c rd v 2)
  else if a.isFlo && b.isFlo then putOp c rd (mkWord tyFLO false 0 (g.flos a.pay b.pay))
  else slowPath c g.entry do
    let (x, y) ← genericArgs c a b g.mul
    match x.1, y.1 with
    | .int v, .int w => bigResult c rd (g.ints v w) (g.digits x.2 y.2)
    | p, q => putOp c rd (mkWord tyFLO false 0 (g.flos p.toFlo q.toFlo))
  return .seq

/-- ADD, SUB, MUL and ADDI (R81, R103). -/
def genAdd : GenOp := ⟨(· + ·), floAdd, 0x00, false, 0x0000⟩
def genSub : GenOp := ⟨(· - ·), floSub, 0x01, false, 0x0000⟩
def genMul : GenOp := ⟨(· * ·), floMul, 0x02, true, 0x0040⟩
def genAddi : GenOp := ⟨(· + ·), floAdd, 0x3F, false, 0x0000⟩
/-- A generic operation of two registers. -/
def genericRegs (c : Nat) (rd rs1 rs2 : Reg) (g : GenOp) : Op Flow := do
  genericOp c rd g (← regOp c rs1) (← regOp c rs2)
/-- ADD (R81). -/
def execAdd (c : Nat) (rd rs1 rs2 : Reg) (s : State) : Out := instr c (genericRegs c rd rs1 rs2 genAdd) s
/-- SUB (R81). -/
def execSub (c : Nat) (rd rs1 rs2 : Reg) (s : State) : Out := instr c (genericRegs c rd rs1 rs2 genSub) s
/-- MUL (R81). -/
def execMul (c : Nat) (rd rs1 rs2 : Reg) (s : State) : Out := instr c (genericRegs c rd rs1 rs2 genMul) s
/-- ADDI (R81). -/
def addiOp (c : Nat) (rd rs1 : Reg) (imm : BitVec 13) : Op Flow := do
  genericOp c rd genAddi (← regOp c rs1) (Word.fix (imm.signExtend 64))
/-- ADDI (R81). -/
def execAddi (c : Nat) (rd rs1 : Reg) (imm : BitVec 13) (s : State) : Out := instr c (addiOp c rd rs1 imm) s

/-- A number for comparison. -/
def Arg.num : Arg → Num
  | .int v => .val v 0
  | .flo b => floNum b
/-- CMP (R81, R108). -/
def cmpOp (c : Nat) (rel : Rel) (rd rs1 rs2 : Reg) : Op Flow := do
  let a ← regOp c rs1
  let b ← regOp c rs2
  genericChecks a b
  let res := fun (x y : Arg) => fixRes [a, b] (boolPay (relHolds rel (numCmp x.num y.num)))
  if a.isFix && b.isFix then putOp c rd (res (.int a.int) (.int b.int))
  else if a.isFlo && b.isFlo then putOp c rd (res (.flo a.pay) (.flo b.pay))
  else slowPath c 0x0060 do
    let (x, y) ← genericArgs c a b false
    putOp c rd (res x.1 y.1)
  return .seq
/-- CMP (R81). -/
def execCmp (c : Nat) (rel : Rel) (rd rs1 rs2 : Reg) (s : State) : Out := instr c (cmpOp c rel rd rs1 rs2) s

/-! ### A resuming sequence stopped by a tick (R119) -/

/-- The generic arithmetic operation of a function value, as R103 numbers them. -/
def genOfFn (fn : BitVec 6) : Option GenOp :=
  match fn.toNat with
  | 0x00 => some genAdd
  | 0x01 => some genSub
  | 0x02 => some genMul
  | 0x3F => some genAddi
  | _ => none
/-- Free words in the temporaries from `i` up: what the microcode keeps there is the firmware's (log 49). -/
def freeTemps (c i : Nat) : Nat → Op Unit
  | 0 => pure ()
  | n + 1 => do
    let f := (← get).fresh
    set f.2
    modOp c fun k => k.setPreg i (Word.fix f.1)
    freeTemps c (i + 1) n
/-- `n` free digits of an object whose computation stands stopped. -/
def freeDigits : Nat → State → List Word × State
  | 0, s => ([], s)
  | n + 1, s =>
    let f := s.fresh
    let r := freeDigits n f.2
    (Word.raw f.1 :: r.1, r.2)
/-- R119: the sequence of a generic operation `fn` on `a` and `b` stops after a PP word whose NEXT is `addr`. Bignum arithmetic,
comparison and conversion keep their temporaries and the resume address; every other sequence keeps nothing. The result object
of bignum arithmetic has been allocated (R107): the first temporary addresses it, and its digits are free values. -/
def ucStopOp (c : Nat) (fn : BitVec 6) (a b : Word) (addr : BitVec 13) : Op Unit := do
  genericChecks a b
  let g := genOfFn fn
  if !(a.isBig || b.isBig) || (g.isNone && (a.isFlo || b.isFlo)) then pure ()
  else
    let (x, y) ← genericArgs c a b ((g.map GenOp.mul).getD false)
    let going ← resumesOp c
    match g, x.1, y.1 with
    | some g, .int _, .int _ =>
      if !going then
        let n := g.digits x.2 y.2
        let p ← bigPlace c n
        let h ← bigHdr c n
        let r := freeDigits n (← get)
        set r.2
        putWhole c p (h :: r.1 ++ List.replicate (objSize n - (1 + n)) Word.empty)
        allocDone c 0 (p + objSize n)
        let q ← newPtr c tyBIG p
        modOp c fun k => k.setPreg 248 q
    | _, _, _ => pure ()
    freeTemps c 249 7
    modOp c fun k => { (k.setPbit 3 true).dirty 1 with ucResume := addr.setWidth 64 }
/-- R119: with a tick's request pending, the sequencer of the instruction at the PC stops at a preemption point. A check that
fails before it is the instruction's own trap; a wait comes before the point. -/
def microStop (c : Nat) (fn : BitVec 6) (rs1 rs2 : Reg) (imm addr : BitVec 13) (s : State) : State :=
  let k := s.core c
  if !s.canIssue c || !k.preempt then s
  else
    let b := if fn.toNat == 0x3F then Word.fix (imm.signExtend 64) else k.get rs2
    let r := (ucStopOp c fn (k.get rs1) b addr).run.run s
    match r.1 with
    | .ok _ => r.2
    | .error (.trap cause info bank) => r.2.trapHere c cause info bank
    | .error _ => s
/-- MICROCODE_PREEMPT (R119): the generic operation at the PC has function value `fn` and these operands. -/
def execMicrocodePreempt (c : Nat) (fn : BitVec 6) (addr : BitVec 13) (s : State) (rs1 rs2 : Reg := 0) (imm : BitVec 13 := 0) : Out :=
  onCore s c (microStop c fn rs1 rs2 imm addr s)

end Sys2Proof.Machine
end

