-- ==== Sys2Proof/Machine/Control.lean ====
section
/-!
DEFINITION. Control transfers and the hardware loop (R86 to R89), gates and returns (R182, R189 to R192), `FENCE` and `BRK`
(R93).
-/
namespace Sys2Proof.Machine

/-- The PC of the instruction. -/
def pcOp (c : Nat) : Op (BitVec 55) := do return (← coreOp c).pc

/-! ### Branches (R86) -/

/-- R86: a conditional branch on `rs1`, whose type must satisfy `ty`. -/
def condBranch (c : Nat) (rs1 : Reg) (disp : BitVec 18) (ty : Word → Bool) (t : Word → Bool) : Op Flow := do
  let w ← regOp c rs1
  needTag (ty w) 0 w
  steer 0x01 0 w
  let p ← pcOp c
  return if t w then .jump (pcPlus p disp.toInt) true else .seq
/-- BEQZ (R86). -/
def execBeqz (c : Nat) (rs1 : Reg) (disp : BitVec 18) (s : State) : Out :=
  transfer c (condBranch c rs1 disp Word.isWordOp fun w => w.pay == 0) s
/-- BNEZ (R86). -/
def execBnez (c : Nat) (rs1 : Reg) (disp : BitVec 18) (s : State) : Out :=
  transfer c (condBranch c rs1 disp Word.isWordOp fun w => w.pay != 0) s
/-- BLTZ (R86). -/
def execBltz (c : Nat) (rs1 : Reg) (disp : BitVec 18) (s : State) : Out :=
  transfer c (condBranch c rs1 disp Word.isFix fun w => w.int < 0) s
/-- BGEZ (R86). -/
def execBgez (c : Nat) (rs1 : Reg) (disp : BitVec 18) (s : State) : Out :=
  transfer c (condBranch c rs1 disp Word.isFix fun w => 0 ≤ w.int) s
/-- BGTZ (R86). -/
def execBgtz (c : Nat) (rs1 : Reg) (disp : BitVec 18) (s : State) : Out :=
  transfer c (condBranch c rs1 disp Word.isFix fun w => 0 < w.int) s
/-- BLEZ (R86). -/
def execBlez (c : Nat) (rs1 : Reg) (disp : BitVec 18) (s : State) : Out :=
  transfer c (condBranch c rs1 disp Word.isFix fun w => w.int ≤ 0) s
/-- R86: `SPECIAL` nil or false. -/
def Word.falsy (w : Word) : Bool := w.tag == 0x18 && (w.pay == 0 || w.pay == 2)
/-- BF (R86). -/
def execBf (c : Nat) (rs1 : Reg) (disp : BitVec 18) (s : State) : Out :=
  transfer c (condBranch c rs1 disp (fun w => !w.isEmpty) fun w => Word.falsy w) s
/-- BT (R86). -/
def execBt (c : Nat) (rs1 : Reg) (disp : BitVec 18) (s : State) : Out :=
  transfer c (condBranch c rs1 disp (fun w => !w.isEmpty) fun w => !Word.falsy w) s
/-- BTYPE (R86). -/
def btypeOp (c : Nat) (rs1 : Reg) (ty : BitVec 5) (disp : BitVec 18) : Op Flow := do
  let w ← regOp c rs1
  let p ← pcOp c
  return if w.ty == ty.toNat && ty != 7 then .jump (pcPlus p disp.toInt) true else .seq
/-- BTYPE (R86). -/
def execBtype (c : Nat) (rs1 : Reg) (ty : BitVec 5) (disp : BitVec 18) (s : State) : Out :=
  transfer c (btypeOp c rs1 ty disp) s

/-! ### Jumps, calls and returns (R87) -/

/-- BR (R87). -/
def brOp (c : Nat) (disp : BitVec 28) : Op Flow := do return .jump (pcPlus (← pcOp c) disp.toInt) true
/-- BR (R87). -/
def execBr (c : Nat) (disp : BitVec 28) (s : State) : Out := transfer c (brOp c disp) s

/-- R87: a `LINK` of the current level. -/
def linkHere (c o : Nat) (w : Word) : Op (BitVec 55) := do
  needTag (w.isLink && w.sub == (← levelOp c)) o w
  return linkPc w.pay
/-- R87: body word 0 of the object that `p` reaches. -/
def bodyWord0 (c o : Nat) (p : Word) (retry : Instr) : Op Word := do
  let (a, h) ← derefOp c p o
  need (1 ≤ hdrLen h) 0x04 (bndInfo o)
  loadOp c (a + 1) (.barrier retry)
/-- R87: the entry of rs1. -/
def entryOf (c : Nat) (rs1 : Reg) (retry : Instr) : Op (BitVec 55) := do
  let w ← regOp c rs1
  needTag (w.isLink || w.ty == tyCODE || w.ty == tyCLO) 0 w
  steer 0x01 0 w
  if w.isLink then linkHere c 0 w
  else if w.ty == tyCODE then
    let l ← bodyWord0 c 0 w retry
    linkHere c 3 l
  else
    let k ← bodyWord0 c 0 w retry
    needTag (k.ty == tyCODE) 3 k
    let l ← bodyWord0 c 3 k retry
    linkHere c 3 l
/-- JMPR (R87). -/
def jmprOp (c : Nat) (rs1 : Reg) : Op Flow := do return .jump (← entryOf c rs1 (.jmpr c rs1)) true
/-- JMPR (R87). -/
def execJmpr (c : Nat) (rs1 : Reg) (s : State) : Out := transfer c (jmprOp c rs1) s

/-- R184: not while a trap window is in use. -/
def noTrapWindow (c : Nat) : Op Unit := do need ((← coreOp c).twCur == 0) 0x01
/-- R87, R193: out7 receives the return `LINK` and the next window is entered for `owner`. -/
def callTo (c owner : Nat) : Op Unit := do
  roomFor c
  modOp c fun k => (k.put 31 (Word.link k.level (pcPlus k.pc 1))).enterWindow owner
/-- CALL (R87). -/
def callOp (c : Nat) (disp : BitVec 28) : Op Flow := do
  noTrapWindow c
  let p ← pcOp c
  callTo c (← levelOp c)
  return .jump (pcPlus p disp.toInt) false
/-- CALL (R87). -/
def execCall (c : Nat) (disp : BitVec 28) (s : State) : Out := transfer c (callOp c disp) s
/-- CALLR (R87). -/
def callrOp (c : Nat) (rs1 : Reg) : Op Flow := do
  noTrapWindow c
  let t ← entryOf c rs1 (.callr c rs1)
  callTo c (← levelOp c)
  return .jump t false
/-- CALLR (R87). -/
def execCallr (c : Nat) (rs1 : Reg) (s : State) : Out := transfer c (callrOp c rs1) s
/-- RET (R87, R193). -/
def retOp (c : Nat) : Op Flow := do
  noTrapWindow c
  let l ← regOp c 15
  let t ← linkHere c 3 l
  let w := ((← coreOp c).cwp + 11) % 12
  fillWindow c w (← levelOp c)
  modOp c fun k => k.leaveWindow w
  return .jump t true
/-- RET (R87). -/
def execRet (c : Nat) (s : State) : Out := transfer c (retOp c) s

/-! ### The hardware loop (R88) -/

/-- LOOP (R88). -/
def loopOp (c : Nat) (rs1 : Reg) (disp : BitVec 18) : Op Flow := do
  let k ← coreOp c
  need (1 ≤ disp.toInt && fld (k.spv 0x010) 31 0 == 0) 0x01
  let n ← fixOp c 0 rs1
  steer 0x01 0 n
  need (n.pay.toNat < 2 ^ 32) 0x04 (bndInfo 0)
  let hi := pcPlus k.pc disp.toInt
  modOp c fun k => ((k.setSp 0x011 (Word.link k.level (pcPlus k.pc 1))).setSp 0x012 (Word.link k.level hi)).dirty 4
  if n.pay == 0 then return .jump (pcPlus hi 1) false
  modOp c fun k => k.setLcount (BitVec.ofNat 64 (k.cwp * 2 ^ 32) ||| n.pay)
  return .jump (pcPlus k.pc 1) false
/-- LOOP (R88). -/
def execLoop (c : Nat) (rs1 : Reg) (disp : BitVec 18) (s : State) : Out := transfer c (loopOp c rs1 disp) s

/-! ### Gates (R189 to R192) -/

/-- R191: SINFO of cause 0x0A. -/
def gateInfo (n reason : Nat) : Nat := n * 2 ^ 16 + reason
/-- R82, R189: a word of a descriptor, read as a level-T load, whose faults go to level T (R190). -/
def gateWord (c va : Nat) : Op Word := atT do
  let r ← memAt c 2 .load va
  let w ← if r.1.dev then deviceLoad c r.2 else readPa c r.2
  need (!w.isPoison) 0x1A va
  needTag (!r.1.x && !w.malformed) 3 w
  return w
/-- R189: a word meets the class byte `b`. -/
def classOk (b : Nat) (w : Word) : Bool :=
  (b / 128 == 0 || !w.sec) && (match b / 32 % 4 with
    | 0 => w.ty == b % 32
    | 1 => w.isPtr
    | 2 => w.isFix || w.ty == tyCHAR || w.ty == tySPECIAL || w.isFlo
    | _ => !w.isEmpty)
/-- R190: the arguments from out`i` on are checked against SIG. -/
def gateArgs (c : Nat) (sig : B64) (i : Nat) : Nat → Op Unit
  | 0 => pure ()
  | n + 1 => do
    let w ← regOp c (BitVec.ofNat 5 (24 + i))
    need (classOk (fld sig (8 * i + 7) (8 * i)) w) 0x09 (w.tag.toNat * 256 + i)
    gateArgs c sig (i + 1) n
/-- GATE (R190). -/
def gateOp (c : Nat) (n : BitVec 18) : Op Flow := do
  noTrapWindow c
  let k ← coreOp c
  let l := k.level
  let bad := fun (b : Bool) (r : Nat) => need (!b) 0x0A (gateInfo n.toNat r)
  bad ((k.spv 0x00D).toNat ≤ n.toNat) 1
  let a := (k.spv 0x00C).toNat % 2 ^ 54 + 4 * n.toNat
  let w0 ← gateWord c a
  let w1 ← gateWord c (a + 1)
  let w2 ← gateWord c (a + 2)
  let w3 ← gateWord c (a + 3)
  let tl := fld w0.pay 49 48
  bad (w0.ty != tyGATE || fld w0.pay 63 58 != 0 || w0.pay.getLsbD 50) 2
  bad ((tl != 1 && tl != 2) || tl < l) 3
  bad (l < fld w0.pay 57 56) 4
  bad (!w1.isLink || w1.sub != tl) 5
  bad (6 < fld w0.pay 54 52 || !w2.isFix || w2.sec || w3 != Word.nat 0) 6
  gateArgs c w0.pay 0 (fld w0.pay 54 52)
  callTo c tl
  modOp c fun k =>
    let k := if w0.pay.getLsbD 55 then k.put 23 w2 else k
    (k.setLevel tl).setPbit 7 (w0.pay.getLsbD 51)
  return .shadow (linkPc w1.pay)
/-- GATE (R190). -/
def execGate (c : Nat) (n : BitVec 18) (s : State) : Out := transfer c (gateOp c n) s
/-- GRET (R192). -/
def gretOp (c : Nat) : Op Flow := do
  needLevel c 1
  let l ← regOp c 15
  needTag (l.isLink && l.sub ≤ (← levelOp c)) 3 l
  let w := ((← coreOp c).cwp + 11) % 12
  fillWindow c w l.sub
  modOp c fun k => ((k.leaveWindow w).setLevel l.sub).setPbit 7 false
  return .shadow (linkPc l.pay)
/-- GRET (R192). -/
def execGret (c : Nat) (s : State) : Out := transfer c (gretOp c) s

/-! ### TRET (R182) -/

/-- The frames in the windows from CWP down to the one above `w` end. -/
def Core.dropFrames (k : Core) (w : Nat) : Core :=
  (List.range ((k.cwp + 12 - w % 12) % 12)).foldl (fun q i =>
    let v := (k.cwp + 12 - i) % 12
    q.setWindow v { q.window v with res := false, held := false }) k
/-- R182: what `TRET` at level `x` restores, once the window is there. -/
def Core.tretRestore (k : Core) (x : Nat) : Core :=
  let st := k.spv (spcN x + 1)
  let o := fld st 13 12
  let free := st.getLsbD 14 || k.twRel.getLsbD x
  let bit := fun (i : Nat) => BitVec.ofNat 4 (2 ^ i)
  let use := if free then k.twUse &&& ~~~(bit x) else k.twUse
  let k := { k with twUse := if o == 0 then use else use ||| bit o
                    twRel := if free then k.twRel &&& ~~~(bit x) else k.twRel
                    twCur := o }
  (k.setSpv 0x001 (st &&& 0xFF)).setLcount (k.spv (spcN x + 4))
/-- TRET (R182). -/
def tretOp (c : Nat) : Op Flow := do
  needLevel c 1
  let k ← coreOp c
  let x := k.level
  let st := k.spv (spcN x + 1)
  let spc := k.sp (spcN x)
  need (fld st 1 0 ≤ x) 0x0B
  needTag (spc.isLink && spc.sub == fld st 1 0) 3 spc
  if !st.getLsbD 14 && fld st 11 8 != k.cwp then
    let w := fld st 11 8 % 12
    fillWindow c w (fld st 1 0)
    modOp c fun k => (k.dropFrames w).setCwp w
  modOp c fun k => k.tretRestore x
  modify fun s => s.dropShadow c
  return .shadow (linkPc spc.pay)
/-- TRET (R182). -/
def execTret (c : Nat) (s : State) : Out := onCore s c (s.issue c true true (tretOp c))

/-! ### FENCE and BRK (R93) -/

/-- FENCE (R93, R247). -/
def fenceInstr (c : Nat) : Op Flow := do
  fenceOp c
  return .seq
/-- FENCE (R93). -/
def execFence (c : Nat) (s : State) : Out := instr c (fenceInstr c) s
/-- BRK (R93, R203). -/
def execBrk (c : Nat) (s : State) : Out := instr c (trapOp 0x38 0) s

end Sys2Proof.Machine
end

