-- ==== Sys2Proof/Machine/Context.lean ====
section
/-!
DEFINITION. A strand's context in memory (R195 to R201): the register groups, the save areas of `SAVEU`, `SAVEL`, `RSTU` and
`RSTL`, the context record, and the context switch.
-/
namespace Sys2Proof.Machine

/-! ### The bits that registers hold (R94, R101, R202) -/

/-- R94: a register that holds whole words. -/
def specWhole (n : Nat) : Bool := (0x100 ≤ n && n ≤ 0x11F) || (0x03B ≤ n && n ≤ 0x03D)
/-- R94, R181: a register that holds a `LINK`. -/
def specLink (n : Nat) : Bool := [0x011, 0x012, 0x020, 0x028, 0x030, 0x038, 0x039, 0x03A].contains n
/-- R101, R202 to R204, R229: the bits that a plain register holds. -/
def specMask (n : Nat) : B64 :=
  if n = 0x00C then 0x003FFFFFFFFFFFFC
  else if n = 0x00D then 0x3FFFF
  else if n = 0x010 || n = 0x024 || n = 0x02C || n = 0x034 then 0x0000000FFFFFFFFF
  else if n = 0x018 || n = 0x01A || n = 0x01C || n = 0x01E then 0x003FFFFFFFFFFFFE
  else if n = 0x019 || n = 0x01B || n = 0x01D || n = 0x01F then 0x003FFFFFFFFFFFFF
  else if n = 0x021 || n = 0x029 || n = 0x031 then 0x7FFF
  else if n = 0x022 || n = 0x02A || n = 0x032 then 0x3F
  else if specLink n then 0x007FFFFFFFFFFFFF
  else if n = 0x043 || n = 0x044 || n = 0x050 || n = 0x057 || n = 0x061 then 0
  else if n = 0x053 then BitVec.ofNat 64 (((List.range 64).filter delegable).foldl (fun a i => a + 2 ^ i) 0)
  else if n = 0x054 then 0xFFFFFFFF
  else if n = 0x060 then 0xFF
  else if 0x062 ≤ n && n ≤ 0x065 then 0x007FFFFFFFFFFFFF
  else if 0x066 ≤ n && n ≤ 0x069 then 0x003FFFFFFFFFFFFF
  else if 0x06A ≤ n && n ≤ 0x06D then 0xC03FFFFFFFFFFFFF
  else if n = 0x06E then 0x7F
  else if n = 0x06F then 0x7
  else if n = 0x070 || n = 0x071 then 0x003FFFFFFFFFFFFF
  else if 0x0A0 ≤ n && n ≤ 0x0BF then 0x7FFFF
  else if n = 0x208 then 0x1FFF
  else 0xFFFFFFFFFFFFFFFF
/-- R229: TLBSTAT, its PENDING derived from the frame it names. -/
def State.tlbStat (s : State) (v : B64) : B64 := putBit v 0 (v.getLsbD 0 && s.frame < fld v 63 16)

/-! ### The groups (R195, R196) -/

/-- R196: the words of group G with their offsets in an upper area. -/
def Core.groupG (k : Core) : List (Nat × Word) :=
  (List.range 7).map (fun i => (2 + i, k.preg (1 + i))) ++ (9, k.sp 0x004) :: (List.range 8).map (fun i => (10 + i, k.sp (0x018 + i)))
    ++ (List.range 8).map (fun i => (18 + i, k.preg (248 + i))) ++ [(26, Word.fix k.ucResume)]
/-- R196: the words of group L. -/
def Core.groupL (k : Core) : List (Nat × Word) := (List.range 3).map fun i => (27 + i, k.sp (0x010 + i))
/-- R196: the words of group W, with their offsets in a lower area. -/
def Core.groupW (k : Core) : List (Nat × Word) :=
  (List.range 8).map (fun i => (2 + i, k.preg (inBase k.cwp + i))) ++ (List.range 8).map (fun i => (10 + i, k.preg (loBase k.cwp + i)))
    ++ (List.range 8).map fun i => (18 + i, k.preg (outBase k.cwp + i))
/-- R198: the words of group X. -/
def Core.groupX (k : Core) : List (Nat × Word) := (List.range 32).map fun i => (i, k.sp (0x100 + i))

/-- A word loaded into a special register of type `FIX` or `LINK`: the bits that the register holds (R177, R202). -/
def Core.loadSp (k : Core) (n : Nat) (w : Word) : Core := k.setSp n ⟨w.tag, w.pay &&& specMask n⟩
/-- Group G from words read at offsets 2 to 26. -/
def Core.putG (k : Core) (ws : List Word) : Core :=
  let w := fun i => ws.getD (i - 2) Word.empty
  let k := k.setPregs 1 (ws.take 7)
  let k := (List.range 9).foldl (fun k i => k.loadSp (if i = 0 then 0x004 else 0x017 + i) (w (9 + i))) k
  { k.setPregs 248 ((ws.drop 16).take 8) with ucResume := (w 26).pay }
/-- Group L from words read at offsets 27 to 29. -/
def Core.putL (k : Core) (ws : List Word) : Core :=
  (List.range 3).foldl (fun k i => k.loadSp (0x010 + i) (ws.getD i Word.empty)) k
/-- Group W from words read at offsets 2 to 25. -/
def Core.putW (k : Core) (ws : List Word) : Core :=
  ((k.setPregs (inBase k.cwp) (ws.take 8)).setPregs (loBase k.cwp) ((ws.drop 8).take 8)).setPregs (outBase k.cwp) (ws.drop 16)
/-- Group X from words read at offsets 0 to 31. -/
def Core.putX (k : Core) (ws : List Word) : Core :=
  (List.range 32).foldl (fun k i => k.setSp (0x100 + i) (ws.getD i Word.empty)) k

/-- DIRTY as a number. -/
def Core.dirtyBits (k : Core) : Nat := fld (k.spv 0x003) 3 0
/-- DIRTY written whole. -/
def Core.setDirty (k : Core) (v : Nat) : Core := k.setSpv 0x003 (BitVec.ofNat 64 (v % 16))

/-! ### The context record (R198, R441) -/

/-- R198, R441: the physical address of the context record of the strand that core `c` holds; none where it holds none. -/
def State.recordOf (s : State) (c : Nat) : Option Nat :=
  let k := s.core c
  match k.part with
  | some p => some ((s.part p).ctxOf (s.sideOfCore c p) + 512 * k.strand)
  | none =>
    if k.entry == 0xF2 then some (s.build.cellOfCore c * 2 ^ 37 + 512 * (c % s.build.coresPerCell)) else none

/-- A virtual address outside every heap, for words that have none. -/
def noVa : Nat := 2 ^ 60

/-- Words written at offsets from a physical address. -/
def recStore (c base : Nat) : List (Nat × Word) → Op Unit
  | [] => pure ()
  | (i, w) :: t => do
    l2Words c (base + i) [w]
    recStore c base t

/-- R152, R156, R200: a word of a context record, through the barrier; the operation stops with cause 0x1A where it is
`POISON`. -/
def recLoad (c pa : Nat) : Op Word := do
  let w ← readPa c pa
  need (!w.isPoison) 0x1A
  barrier c noVa pa w true .memory (pure ())
/-- `n` words from a physical address upward. -/
def recLoads (c pa : Nat) : Nat → Op (List Word)
  | 0 => pure []
  | n + 1 => do
    let w ← recLoad c pa
    let t ← recLoads c (pa + 1) n
    return w :: t

/-! ### Save areas (R196, R197) -/

/-- R194, R196: the translated address of a save area. -/
def saveArea (c va : Nat) (a : Access) : Op Nat := do
  need (va % 32 == 0) 0x22 (winInfo 7 0 va)
  sealAt c (← coreOp c).level 0x22 2 a va

/-- R197: `SAVEU` (`upper`) and `SAVEL`. -/
def saveOp (c : Nat) (rs1 : Reg) (upper : Bool) : Op Flow := do
  needLevel c 1
  let a ← fixOp c 0 rs1
  steer 0x03 0 a
  enterUc c 0x00B0
  let pa ← saveArea c a.pay.toNat .store
  drainFirst c
  let k ← coreOp c
  let b := bankOf k.level
  let held := Nat.land k.dirtyBits (if upper then 5 else 2)
  recStore c pa ((0, Word.link k.level ((k.saveHead b).setWidth 55)) ::
    (1, Word.nat (held + (if upper then 1 else 2) * 2 ^ 4 + k.cwp * 2 ^ 8)) ::
    (if upper then (if held.testBit 0 then k.groupG else []) ++ (if held.testBit 2 then k.groupL else [])
     else if held.testBit 1 then k.groupW else []))
  modOp c fun k => k.setSaveHead b a.pay
  return .seq
/-- SAVEU (R197). -/
def execSaveu (c : Nat) (rs1 : Reg) (s : State) : Out := instr c (saveOp c rs1 true) s
/-- SAVEL (R197). -/
def execSavel (c : Nat) (rs1 : Reg) (s : State) : Out := instr c (saveOp c rs1 false) s

/-- R194, R197: a word of the base copy that a restore loads; `POISON`, which has no virtual address, raises cause 0x22 with
REASON 3 and ADDR 0 (DESIGN CHOICE, log 17). -/
def baseLoad (c pa : Nat) : Op Word := do
  let w ← readPa c pa
  need (!w.isPoison) 0x22 (winInfo 3 0x1A 0)
  barrier c noVa pa w true .memory (pure ())
/-- `n` words of the base copy. -/
def baseLoads (c pa : Nat) : Nat → Op (List Word)
  | 0 => pure []
  | n + 1 => do
    let w ← baseLoad c pa
    let t ← baseLoads c (pa + 1) n
    return w :: t
/-- R197: a group of a restore: from the area if it is held there, else from the base copy of the strand. -/
def restoreWords (c va off n : Nat) (held : Bool) (base : Option Nat) (boff : Nat) : Op (Option (List Word)) := do
  if held then return some (← sealWords c (← coreOp c).level 0x22 2 (va + off) n)
  else match base with
    | some b => return some (← baseLoads c (b + boff + off) n)
    | none => return none

/-- R197: `RSTU` (`upper`) and `RSTL`. -/
def restoreOp (c : Nat) (upper : Bool) : Op Flow := do
  needLevel c 1
  let k ← coreOp c
  let b := bankOf k.level
  let va := (k.saveHead b).toNat
  enterUc c 0x00B0
  need (va != 0) 0x22 (winInfo 4 0 0)
  let _ ← saveArea c va .load
  let w0 ← sealWord c k.level 0x22 2 va
  let w1 ← sealWord c k.level 0x22 2 (va + 1)
  need (w0.isLink && fld w1.pay 5 4 == (if upper then 1 else 2)) 0x22 (winInfo 5 0 va)
  need (upper || fld w1.pay 11 8 == k.cwp) 0x22 (winInfo 6 0 va)
  let base := (← get).recordOf c
  let held := fld w1.pay 3 0
  if upper then
    let g ← restoreWords c va 2 25 (held.testBit 0) base 0
    let l ← restoreWords c va 27 3 (held.testBit 2) base 0
    modOp c fun k => match g with | some ws => k.putG ws | none => k
    modOp c fun k => match l with | some ws => k.putL ws | none => k
  else
    let w ← restoreWords c va 2 24 (held.testBit 1) base 32
    modOp c fun k => match w with | some ws => k.putW ws | none => k
  let m := if upper then 5 else 2
  modOp c fun k => (k.setDirty (Nat.lor (Nat.land k.dirtyBits (15 - m)) (Nat.land held m))).setSaveHead b w0.pay
  return .seq
/-- RSTU (R197). -/
def execRstu (c : Nat) (s : State) : Out := instr c (restoreOp c true) s
/-- RSTL (R197). -/
def execRstl (c : Nat) (s : State) : Out := instr c (restoreOp c false) s

/-- R195: a group is stored into the base copy. -/
def storeBase (c base g : Nat) : Op Unit := do
  let k ← coreOp c
  match g with
  | 0 => recStore c base k.groupG
  | 1 => recStore c (base + 32) k.groupW
  | 2 => recStore c base k.groupL
  | _ => recStore c (base + 64) k.groupX

/-- CX register `n` of a core. -/
def cxN (n : Nat) : Nat := 0x100 + n
/-- R300: the results of an inline operation enter their registers. -/
def Core.finishInline (k : Core) : Core :=
  match k.inlineOp with
  | some o => { o.results.foldl (fun k e => k.setSp (cxN e.1) e.2) k with inlineOp := none }
  | none => k

/-- R297: group X of the strand is in the core: loaded from the current copy if it is dirty, else from the base copy. -/
def loadX (c : Nat) : Op Unit := do
  let k ← coreOp c
  if k.xLoaded then pure ()
  else
    match (← get).recordOf c with
    | some b =>
      let ws ← recLoads c (b + (if k.dirtyBits.testBit 3 then 160 else 64)) 32
      modOp c fun k => { k.putX ws with xLoaded := true }
    | none => modOp c fun k => { k with xLoaded := true }

/-! ### The switch (R199, R200) -/

/-- R199 step 3: the resident windows other than CWP, oldest first, leave the register file: to their spill stack, or to
the hold area of the record where the spill faults. -/
def spillOthers (c base : Nat) : Nat → Op Unit
  | 0 => pure ()
  | n + 1 => do
    let k ← coreOp c
    let w := (k.cwp + 12 - (n + 1)) % 12
    if (k.window w).res then
      tryCatch (spillWindow c w) fun e =>
        match e with
        | .trap _ _ _ => do
          let k ← coreOp c
          recStore c (base + 256 + 16 * w) ((List.range 16).map fun i => (i, (k.frameWords w).getD i Word.empty))
          modOp c fun k => k.setWindow w { k.window w with res := false, held := true }
        | _ => throw e
    spillOthers c base n

/-- R198: the level state with its offsets in the record. -/
def State.levelState (s : State) (c : Nat) : List (Nat × Word) :=
  let k := s.core c
  let hdr := 2 ^ 18 + b2n (k.twUse.getLsbD 2) * 2 ^ 17 + b2n (k.twUse.getLsbD 1) * 2 ^ 16 + k.dirtyBits * 2 ^ 12
    + k.cwp * 2 ^ 8 + fld (k.spv 0x001) 7 0
  let win := ((List.range 12).map fun w => ((k.window w).owner % 4 + b2n (k.window w).held * 4) * 8 ^ w).sum
  (192, Word.nat hdr) :: (193, Word.link k.level k.pc) ::
    (List.range 5).map (fun i => (194 + i, k.sp (0x020 + i))) ++ (List.range 5).map (fun i => (199 + i, k.sp (0x028 + i)))
    ++ [(204, k.sp 0x038), (205, k.sp 0x039), (206, k.sp 0x03B), (207, k.sp 0x03C),
        (208, Word.fix (k.spillPtr 1)), (209, Word.fix (k.saveHead 1)), (210, Word.fix (k.spillPtr 2)), (211, Word.fix (k.saveHead 2)),
        (212, k.sp 0x00C), (213, k.sp 0x00D), (214, k.sp 0x051), (215, k.sp 0x052), (216, k.sp 0x053), (217, k.sp 0x054),
        (218, Word.fix (s.ipend c &&& 3)), (221, Word.nat win)]
    ++ (List.range 8).map fun i => (224 + i, if i == 4 then Word.fix (s.tlbStat (k.spv 0x044)) else k.sp (0x040 + i))

/-- R199 step 2: the dirty groups go to the current areas. -/
def saveGroups (c base : Nat) : Op Unit := do
  let k ← coreOp c
  if k.dirtyBits.testBit 0 then recStore c (base + 96) k.groupG
  if k.dirtyBits.testBit 2 then recStore c (base + 96) k.groupL
  if k.dirtyBits.testBit 1 then recStore c (base + 128) k.groupW
  if k.dirtyBits.testBit 3 && k.xLoaded then recStore c (base + 160) k.groupX

/-- R199 steps 1 to 3: the outgoing strand leaves the core for its record. -/
def saveStrand (c base : Nat) : Op Unit := do
  modOp c Core.finishInline
  drainFirst c
  spillOthers c base 11
  saveGroups c base
  let k ← coreOp c
  for x in [1, 2] do
    if k.twUse.getLsbD x then
      recStore c (base + 432 + 16 * x) ((List.range 16).map fun i => (i, k.preg (trapBase x + i)))
  recStore c base ((← get).levelState c)

/-- R208, R229: a value that an `MTS` to a translation register accepts. -/
def transRegOk (n : Nat) (v : B64) : Bool :=
  match n with
  | 0x040 | 0x041 => v &&& 0x0000F080000001FF == 0 && [0, 3, 4, 5].contains (rootMode v)
  | 0x042 => v.toNat < 2 ^ 16
  | 0x043 => fld v 61 54 == 0
  | 0x044 => fld v 15 2 == 0
  | 0x045 => v.toNat < 2 ^ 39
  | 0x047 => v.toNat < 4
  | _ => true

/-- R200: what makes a loaded level state bad. -/
def levelStateBad (ws : List Word) : Bool :=
  let h := (ws.getD 0 Word.empty).pay
  !h.getLsbD 18 || 2 < fld h 1 0 || 11 < fld h 11 8
    || (List.range 8).any fun i => !transRegOk (0x040 + i) (ws.getD (32 + i) Word.empty).pay

/-- R198: the level state of a strand enters the core. -/
def Core.putLevelState (k : Core) (ws : List Word) : Core :=
  let w := fun i => ws.getD i Word.empty
  let h := (w 0).pay
  let k := (k.setSpv 0x001 (h &&& 0xFF)).setSpv 0x002 (BitVec.ofNat 64 (fld h 11 8))
  let k := k.setDirty (fld h 15 12)
  let k := (List.range 5).foldl (fun k i => (k.loadSp (0x020 + i) (w (2 + i))).loadSp (0x028 + i) (w (7 + i))) k
  let k := [(12, 0x038), (13, 0x039), (14, 0x03B), (15, 0x03C), (20, 0x00C), (21, 0x00D), (22, 0x051), (23, 0x052), (24, 0x053),
    (25, 0x054)].foldl (fun k e => k.loadSp e.2 (w e.1)) k
  let k := (List.range 8).foldl (fun k i => if i == 4 then k.setSp 0x044 (w 36) else k.loadSp (0x040 + i) (w (32 + i))) k
  let k := (((k.setSpillPtr 1 (w 16).pay).setSaveHead 1 (w 17).pay).setSpillPtr 2 (w 18).pay).setSaveHead 2 (w 19).pay
  let st := (w 29).pay
  let k := (List.range 12).foldl (fun k i =>
    k.setWindow i ⟨fld st (3 * i + 1) (3 * i), i == k.cwp, st.getLsbD (3 * i + 2)⟩) k
  let use := fld h 17 16
  { k with
    pc := linkPc (w 1).pay
    twUse := BitVec.ofNat 4 (use * 2)
    twRel := BitVec.ofNat 4 (b2n (use.testBit 0 && !(k.spv 0x021).getLsbD 14) * 2 + b2n (use.testBit 1 && !(k.spv 0x029).getLsbD 14) * 4)
    twCur := if use.testBit 1 then 2 else if use.testBit 0 then 1 else 0
    spillTop := Tab.set (fun _ => 0) (Tab.set (fun _ => 0) k.spillTop 1 (w 27).pay) 2 (w 28).pay
    xLoaded := false
    wait := .none
    ucResume := 0 }

/-- R199 step 4: the held windows return to the register file. -/
def loadHeld (c base : Nat) : Nat → Op Unit
  | 0 => pure ()
  | n + 1 => do
    loadHeld c base n
    let k ← coreOp c
    if (k.window n).held then
      let ws ← recLoads c (base + 256 + 16 * n) 16
      modOp c fun k => ((k.setPregs (loBase n) (ws.take 8)).setPregs (inBase n) (ws.drop 8)).setWindow n
        { k.window n with res := true, held := false }

/-- R199 step 4, R158: groups G, L and W enter the core from the current copy if dirty, else from the base copy. -/
def loadGroups (c base : Nat) : Op Unit := do
  let k ← coreOp c
  let d := k.dirtyBits
  let g ← recLoads c (base + (if d.testBit 0 then 98 else 2)) 25
  let l ← recLoads c (base + (if d.testBit 2 then 123 else 27)) 3
  let w ← recLoads c (base + (if d.testBit 1 then 130 else 34)) 24
  modOp c fun k => ((k.putG g).putL l).putW w

/-- R199 step 4: the incoming strand enters the core from its record. -/
def loadStrand (c base : Nat) : Op Unit := do
  let ws ← recLoads c (base + 192) 40
  need (!levelStateBad ws) 0x1A
  modOp c fun k => k.putLevelState ws
  loadHeld c base 12
  loadGroups c base
  let k ← coreOp c
  for x in [1, 2] do
    if k.twUse.getLsbD x then
      let t ← recLoads c (base + 432 + 16 * x) 16
      modOp c fun k => k.setPregs (trapBase x) t

end Sys2Proof.Machine
end

