-- ==== Sys2Proof/Machine/Rake.lean ====
section
/-!
DEFINITION. The Rake engines and the cycle of a partition's collection (chapter 06): roots, cards, marking, rescans, the
relocation plan, the sweep, priority moves, clearing, and the flips and completions at ticks.
-/
namespace Sys2Proof.Machine

/-- An engine at work: its cluster, and the partition and side that it serves. -/
structure Eng where
  m : Nat
  p : Nat
  side : Nat
  deriving DecidableEq, Repr

/-- What an engine does; it stops where a walk of it faults (R226). -/
abbrev Rake := ExceptT Unit (StateM State)

/-! ### Reads and writes of an engine (R161, R226) -/

/-- The collection state served. -/
def rkOf (e : Eng) : Rake Rk := do return (← get).rk e.p e.side
def rkSet (e : Eng) (f : Rk → Rk) : Rake Unit := modify fun s => s.modRk e.p e.side f
/-- R226: PROOT of the partition as the tick read it, or as it is read with the first work of the frame. -/
def rkRoot (e : Eng) : Rake B64 := do
  let s ← get
  match (s.clu e.m).rroot.find? fun x => x.1 == e.p * 2 + e.side with
  | some x => return x.2
  | none =>
    let r := s.proot e.p e.side
    set (r.2.modClu e.m fun k => { k with rroot := (e.p * 2 + e.side, r.1) :: k.rroot })
    return r.1
/-- R226: a leaf put into an engine's TLB of 256 entries; the spec names no victim in a full one. -/
def State.rtlbPut (s : State) (m : Nat) (e : TlbEnt) : State :=
  let l := (s.clu m).rtlb.filter fun x => !x.same e
  if l.length < 256 then s.modClu m fun k => { k with rtlb := e :: l }
  else
    let f := s.fresh
    f.2.modClu m fun k => { k with rtlb := e :: l.eraseIdx (f.1.toNat % l.length) }
/-- R226: a walk of an engine, its leaf put into the engine's TLB. -/
def rkWalk (e : Eng) (root : B64) (a : Access) (va : Nat) : Rake TlbEnt := do
  let s ← get
  let r := s.agentTranslate ((s.part e.p).cellOf e.side) root a va
  set r.2
  match r.1 with
  | none => throw ()
  | some t =>
    set (r.2.rtlbPut e.m t)
    return t
/-- R215, R226: a translation by a root, from the engine's TLB where a cached leaf permits it. -/
def rkTrans (e : Eng) (root : B64) (a : Access) (va : Nat) : Rake Nat := do
  let s ← get
  let t ← match (s.clu e.m).rtlb.find? fun x => x.hits (rootAsid root) va with
    | some x =>
      if (permFault 1 0 x a).isNone && (!accWrites a || x.d) then pure x
      else
        set (s.modClu e.m fun k => { k with rtlb := k.rtlb.filter fun y => !y.hits (rootAsid root) va })
        rkWalk e root a va
    | none => rkWalk e root a va
  let s ← get
  if !t.dev && cellOfLine (t.addr va / 8) == (s.part e.p).cellOf e.side && s.linePopulated (t.addr va / 8) then
    return t.addr va
  else throw ()
/-- The physical word of an address of a space. -/
def rkAddr (e : Eng) (sp : Space) (a : Access) (va : Nat) : Rake Nat :=
  match sp with
  | .phys => pure va
  | .part => do rkTrans e (← rkRoot e) a va
  | .root r => rkTrans e r a va
/-- A read of a physical word. -/
def rkReadPa (pa : Nat) : Rake Word := do
  let r := (← get).agentRead pa
  set r.2
  return r.1
/-- A write of a physical word. -/
def rkWritePa (pa : Nat) (w : Word) : Rake Unit := modify fun s => (s.calm pa).agentWrite pa w
/-- A read of a word of the partition. -/
def rkRead (e : Eng) (va : Nat) : Rake Word := do rkReadPa (← rkAddr e .part .load va)
/-- A write of a word of the partition. -/
def rkWrite (e : Eng) (va : Nat) (w : Word) : Rake Unit := do rkWritePa (← rkAddr e .part .store va) w
/-- R146: a write of a word of the region table, a bitmap or the card table, whose pages have no W permission. -/
def rkWriteTab (e : Eng) (va : Nat) (w : Word) : Rake Unit := do rkWritePa (← rkAddr e .part .load va) w
/-- `n` words of the partition from `va`. -/
def rkReads (e : Eng) (va : Nat) : Nat → Rake (List Word)
  | 0 => pure []
  | n + 1 => do
    let w ← rkRead e va
    let t ← rkReads e (va + 1) n
    return w :: t

/-! ### Region table, bitmap and cards (R146, R147) -/

/-- Fields of a region table entry. -/
def entState (v : B64) : Nat := fld v 63 60
def entSeal (v : B64) : Bool := v.getLsbD 59
def entPin (v : B64) : Bool := v.getLsbD 58
def entElig (v : B64) : Bool := v.getLsbD 56
def entStream (v : B64) : Nat := fld v 55 54
def entLive (v : B64) : Nat := fld v 53 37
def entDest (v : B64) : Nat := fld v 36 0
/-- The region table entry of region `r`. -/
def rkEntry (e : Eng) (r : Nat) : Rake B64 := do return (← rkRead e ((← rkOf e).spv 0x303 + r)).pay
/-- A change of the entry of region `r`. -/
def rkSetEntry (e : Eng) (r : Nat) (f : B64 → B64) : Rake Unit := do
  let v ← rkEntry e r
  if f v == v then pure () else rkWriteTab e ((← rkOf e).spv 0x303 + r) (Word.fix (f v))
/-- R165: region `r` is pinned. -/
def rkPinRegion (e : Eng) (r : Nat) : Rake Unit := rkSetEntry e r fun v => putBit v 58 true
/-- R171: an error of the engine: logged, and the region pinned. -/
def rkError (e : Eng) (reason r : Nat) : Rake Unit := do
  let body := BitVec.ofNat 32 (reason % 16 * 2 ^ 24 + e.p % 64 * 2 ^ 16)
  modify fun s =>
    let s := if (s.rd .cluRkerr e.m).getLsbD 31 then s else s.wr .cluRkregn e.m 0 (BitVec.ofNat 32 (r % 2 ^ 23))
    (s.record .cluRkerr e.m body).elogEnter (s.build.cellOfClu e.m) 0x22 e.m 2 (body ||| 0x80000000) 0
  rkPinRegion e r
/-- R146: the address of word `j` of the bitmap of region `r`. -/
def Rk.bitmap (k : Rk) (r j : Nat) : Nat := k.spv 0x304 + 512 * r + j
/-- R146: the first address of region `r`. -/
def Rk.base (k : Rk) (r : Nat) : Nat := k.spv 0x300 + r * 65536
/-- The bits `lo` up to `hi` that lie in word `j` of a bitmap. -/
def bitMask (lo hi j : Nat) : Nat :=
  2 ^ (min hi (64 * j + 64) - 64 * j) - 2 ^ (max lo (64 * j) - 64 * j)
/-- The bits `lo` up to `hi` of the bitmap of region `r` are set, atomically word by word; whether one was newly set. -/
def rkSetBits (e : Eng) (r lo hi : Nat) : Rake Bool := do
  let k ← rkOf e
  let js := (List.range ((hi + 63) / 64 - lo / 64)).map fun i => lo / 64 + i
  js.foldlM (fun new j => do
    let w ← rkRead e (k.bitmap r j)
    let v := w.pay ||| BitVec.ofNat 64 (bitMask lo hi j)
    if v == w.pay then return new
    else
      rkWriteTab e (k.bitmap r j) (Word.raw v)
      return true) false
/-- R169: how many bitmap bits of region `r` lie below bit `n`. -/
def rkCount (e : Eng) (r n : Nat) : Rake Nat := do
  let k ← rkOf e
  (List.range ((n + 63) / 64)).foldlM (fun t j => do
    let w ← rkRead e (k.bitmap r j)
    return t + ((List.range 64).filter fun i => 64 * j + i < n && w.pay.getLsbD i).length) 0
/-- The first set bit at or after bit `i` of a line of words. -/
def lineBit (ws : List Word) (i : Nat) : Option Nat :=
  (List.range 512).find? fun x => i ≤ x && (ws.getD (x / 64) Word.empty).pay.getLsbD (x % 64)
/-- R159: the card bit of card `c` is set. -/
def rkSetCard (e : Eng) (c : Nat) (b : Bool) : Rake Unit := do
  let a := (← rkOf e).spv 0x305 + c / 64
  let w ← rkRead e a
  rkWriteTab e a (Word.raw (putBit w.pay (c % 64) b))

/-! ### Objects (R61, R169) -/

/-- R61: the words of a headered object. -/
def hdrWords (h : B64) : Nat := (2 + hdrLen h) / 2 * 2
/-- R61, R169: the word at an object start and the words that the object takes. -/
def rkObject (e : Eng) (a : Nat) : Rake (Word × Nat) := do
  let h ← rkRead e a
  if h.isHdr then return (h, hdrWords h.pay)
  else if h.isFwd then
    let t ← rkRead e (h.pay.toNat % 2 ^ 54)
    return (h, if t.isHdr then hdrWords t.pay else 2)
  else return (h, 2)
/-- The lines that `n` words from `a` touch. -/
def linesOf (a n : Nat) : Nat := (a + n + 7) / 8 - a / 8
/-- R163: the words of an object's body that are traced: start and count. -/
def bodyOf (a : Nat) (h : Word) : Nat × Nat :=
  if h.isHdr then (if rawKind (hdrKind h.pay) || hdrKind h.pay == 0x07 then (a, 0) else (a + 1, hdrLen h.pay)) else (a, 2)

/-! ### Marking (R163 to R165) -/

/-- R163: one `FWD` at the start of an object is followed; none where R171 stops it. -/
def rkFollow (e : Eng) (a : Nat) : Rake (Option (Nat × Word)) := do
  let k ← rkOf e
  let h ← rkRead e a
  if h.isFwd then
    let b := h.pay.toNat % 2 ^ 54
    let t ← rkRead e b
    if t.isFwd || t.isEmpty then
      rkError e (if t.isFwd then 3 else 2) (k.region a)
      return none
    return some (b, t)
  else return some (a, h)
/-- R163: the object at `a0` is marked: its start region, the body words to be traced (start and count), and the lines. -/
def rkMark (e : Eng) (a0 : Nat) : Rake (Nat × Nat × Nat × Nat) := do
  let k ← rkOf e
  if !k.marks a0 then return (0, 0, 0, 1)
  match ← rkFollow e a0 with
  | none => return (0, 0, 0, 1)
  | some (a, h) =>
    if !k.marks a then return (0, 0, 0, 2)
    let r := k.region a
    let o := (a - k.spv 0x300) % 65536
    let size := if h.isHdr then hdrWords h.pay else 2
    let here := min size (65536 - o)
    let n := 1 + ((o + here + 1023) / 1024 - o / 1024)
    let new ← rkSetBits e r (o / 2) ((o + here + 1) / 2)
    if !new then return (r, 0, 0, n)
    rkSetEntry e r fun v => putFld v 53 37 (entLive v + here)
    if h.isPoison then
      rkError e 1 r
      return (r, 0, 0, n)
    let big := h.isHdr && 4096 < 1 + hdrLen h.pay
    if big && !hdrMark h.pay then rkWrite e a ⟨h.tag, putBit h.pay 2 true⟩
    if big || (h.isHdr && hdrMark h.pay) || 65536 < o + size then
      ((List.range ((o + size - 1) / 65536 + 1)).filter fun i => r + i < k.spv 0x301).forM fun i => rkPinRegion e (r + i)
    if h.isHdr && hdrKind h.pay == 0x07 then rkSet e fun k => { k with weak := k.weak ++ [a] }
    let b := bodyOf a h
    return (r, b.1, b.2, n)
/-- R164, R226: the line of the mark queue that holds place `i` is reached; the lines that takes: one where the place is the
line's first. -/
def rkQueueLine (e : Eng) (a : Access) (i : Nat) : Rake Nat := do
  let k ← rkOf e
  let len := k.spv 0x307 * 8
  if len == 0 || i % len % 8 != 0 then return 0
  let _ ← rkAddr e .part a (k.spv 0x306 + i % len)
  return 1
/-- R163, R164: a target is pushed to the mark queue; where that is full, it is marked at once and its start region is to be
rescanned. The lines that it takes. -/
def rkPush (e : Eng) (a : Nat) : Rake Nat := do
  let k ← rkOf e
  if !k.marks a then return 0
  else if k.mq.length < k.spv 0x307 * 8 then
    let n ← rkQueueLine e .store (k.mqHead + k.mq.length)
    rkSet e fun k => { k with mq := k.mq ++ [a] }
    return n
  else
    let x ← rkMark e a
    let r := if x.1 == 0 then k.region a else x.1
    rkSetEntry e r fun v => putBit v 57 true
    rkSet e fun k => if k.rescan.contains r then k else { k with rescan := k.rescan ++ [r] }
    return x.2.2.2
/-- R153, R159, R171: a stale pointer read from the physical word `pa` is healed there; `va` is its address in the heap's
space, outside every heap where it has none. The word as it then stands, none where R171 stops it, and the lines read at the
target. -/
def rkHeal (e : Eng) (va pa : Nat) (w : Word) : Rake (Option Word × Nat) := do
  let k ← rkOf e
  if !w.isPtr || w.sub == k.col then return (some w, 0)
  let a0 := w.pay.toNat % 2 ^ 54
  let t ← if k.inHeap a0 then rkFollow e a0 else pure (some (a0, Word.empty))
  match t with
  | none => return (none, 2)
  | some (a, _) =>
    let q := mkWord w.ty false k.col (putFld w.pay 53 0 a)
    if k.youngAddr a && k.oldAddr va then rkSetCard e (k.card va) true
    rkWritePa pa q
    return (some q, if k.inHeap a0 then 1 + b2n (a != a0) else 0)
/-- R163: the words from `va` on are healed and their targets pushed: the words as they then stand, whether any was healed,
and the lines taken beside theirs. -/
def rkScan (e : Eng) (sp : Space) (va : Nat) : Nat → Rake (List Word × Bool × Nat)
  | 0 => pure ([], false, 0)
  | n + 1 => do
    let pa ← rkAddr e sp .load va
    let w ← rkReadPa pa
    let h ← rkHeal e (match sp with | .part => va | _ => 2 ^ 60) pa w
    let q := h.1.getD w
    let m ← if q.isPtr && h.1.isSome then rkPush e (q.pay.toNat % 2 ^ 54) else pure 0
    let t ← rkScan e sp (va + 1) n
    return (q :: t.1, q != w || t.2.1, h.2 + m + t.2.2)

/-! ### Roots (R161) -/

/-- The space of level T of a strand, from its TROOT: another root, or the cell's physical memory in bare mode (R209). -/
def rootSpace (troot : B64) : Space := if rootMode troot == 0 then .phys else .root troot
/-- The address of a word of a bank of level T. -/
def rootAddr (cell : Nat) (troot : B64) (a : Nat) : Nat := if rootMode troot == 0 then cell * 2 ^ 37 + a else a
/-- R161, R198: what to scan for the roots of strand `t`: its context, its save areas and its spill stacks. -/
def rkStrandRoots (e : Eng) (t : Nat) : Rake (List RakeWork) := do
  let s ← get
  let b := (s.part e.p).ctxOf e.side + 512 * t
  let n := (s.part e.p).cellOf e.side
  let at_ := fun (i : Nat) => do return (← rkReadPa (b + 192 + i)).pay
  let h ← at_ 0
  if !h.getLsbD 18 then return []
  let wins ← at_ 29
  let tr ← at_ 33
  let ps := fun (o k : Nat) => RakeWork.scan .phys (b + o) k
  let on := fun (c : Bool) (w : RakeWork) => if c then [w] else []
  let sp1 ← at_ 16
  let sh1 ← at_ 17
  let sp2 ← at_ 18
  let sh2 ← at_ 19
  let top1 ← at_ 27
  let top2 ← at_ 28
  return [ps 0 96] ++ on (h.getLsbD 12) (ps 98 25) ++ on (h.getLsbD 14) (ps 123 3) ++ on (h.getLsbD 13) (ps 130 24)
    ++ on (h.getLsbD 15) (ps 160 32) ++ [ps 192 64]
    ++ (List.range 12).flatMap (fun w => on (wins.getLsbD (3 * w + 2)) (ps (256 + 16 * w) 16))
    ++ on (h.getLsbD 16) (ps 448 16) ++ on (h.getLsbD 17) (ps 464 16)
    ++ [.saves .part sh1.toNat, .scan .part sp1.toNat (top1.toNat - sp1.toNat),
        .saves (rootSpace tr) (if sh2 == 0 then 0 else rootAddr n tr sh2.toNat),
        .scan (rootSpace tr) (rootAddr n tr sp2.toNat) (top2.toNat - sp2.toNat)]
/-- R196: the area at `a` of a save-area list: the words held, and the next area. -/
def rkSaveArea (e : Eng) (sp : Space) (a : Nat) : Rake (List RakeWork) := do
  if a % 2 ^ 37 == 0 || a % 32 != 0 then return []
  let w0 ← rkReadPa (← rkAddr e sp .load a)
  let w1 ← rkReadPa (← rkAddr e sp .load (a + 1))
  if !w0.isLink then return []
  let up := fld w1.pay 5 4 == 1
  let g := if up then (if w1.pay.getLsbD 0 then [RakeWork.scan sp (a + 2) 25] else [])
      ++ (if w1.pay.getLsbD 2 then [.scan sp (a + 27) 3] else [])
    else if w1.pay.getLsbD 1 then [.scan sp (a + 2) 24] else []
  let next := w0.pay.toNat % 2 ^ 54
  return g ++ [.saves sp (match sp with | .phys => if next == 0 then 0 else a / 2 ^ 37 * 2 ^ 37 + next % 2 ^ 37 | _ => next)]

/-! ### Relocation (R162, R168, R169) -/

/-- R168: one region entry is checked; the LIVE sums by stream, the DEST of RELOC regions, and the refusal. -/
def rkPlanOne (e : Eng) (r : Nat) (sums : List Nat) : Rake (Option Nat × List Nat × Option Nat) := do
  let k ← rkOf e
  let v ← rkEntry e r
  if 6 ≤ entState v then return (some 7, sums, none)
  else if entState v != 3 then return (none, sums, none)
  else
    let st := entStream v
    let lo := k.spv (0x30B + st) % 2 ^ 23
    let hi := k.spv (0x30B + st) / 2 ^ 32 % 2 ^ 23
    let ok ← (List.range (hi - lo)).foldlM (fun ok i => do
      if k.spv 0x301 ≤ lo + i then return false
      let t ← rkEntry e (lo + i)
      return ok && entState t == 4 && entSeal t == entSeal v) true
    if !ok then return (some 4, sums, none)
    else if entPin v || !entElig v then return (some 5, sums, none)
    else if k.young && k.spv 0x302 ≤ r then return (some 6, sums, none)
    else return (none, sums.set st (sums.getD st 0 + entLive v), some (sums.getD st 0))
/-- R168: the checks of the regions named, in order. -/
def rkPlanAll (e : Eng) : List Nat → List Nat → List (Nat × Nat) → Rake (Option Nat × List Nat × List (Nat × Nat))
  | [], sums, ds => pure (none, sums, ds)
  | r :: t, sums, ds => do
    match ← rkPlanOne e r sums with
    | (some x, _, _) => return (some x, sums, ds)
    | (none, sums, none) => rkPlanAll e t sums ds
    | (none, sums, some d) => rkPlanAll e t sums (ds ++ [(r, d)])
/-- R168: the plan. -/
def rkPlan (e : Eng) : Rake Nat := do
  let k ← rkOf e
  let n := k.spv 0x301
  let x ← rkPlanAll e (List.range n) [0, 0, 0, 0] []
  let overflow := (List.range 4).any fun st =>
    (k.spv (0x30B + st) / 2 ^ 32 % 2 ^ 23 - k.spv (0x30B + st) % 2 ^ 23) * 65536 < x.2.1.getD st 0
  match (match x.1 with | some c => some c | none => if overflow then some 3 else none) with
  | some c => rkSet e fun k => { k with err := c, req := 0, plan := false, flipPend := false }
  | none =>
    x.2.2.forM fun d => rkSetEntry e d.1 fun v => putFld v 36 0 d.2
    rkSet e fun k => { k with plan := false, flipPend := true }
  return max 1 ((n + 7) / 8)

/-- R169: the header of a moved object. -/
def movedHdr (h : B64) : B64 := putBit (putFld h 4 3 (min (hdrGen h + 1) 3)) 2 false
/-- R169: the unmoved object at `a` of RELOC region `r` moves; the lines read and written. -/
def rkMove (e : Eng) (r a : Nat) (h : Word) (size : Nat) : Rake Nat := do
  let k ← rkOf e
  let v ← rkEntry e r
  let o := (a - k.spv 0x300) % 65536
  let below ← rkCount e r (o / 2)
  let d := k.base (k.spv (0x30B + entStream v) % 2 ^ 23) + entDest v + 2 * below
  (List.range size).forM fun i => do
    let w ← rkRead e (a + i)
    rkWrite e (d + i) (if i == 0 && h.isHdr then ⟨h.tag, movedHdr h.pay⟩ else w)
  let f := mkWord tyFWD false 0 (BitVec.ofNat 64 d)
  rkWrite e a f
  if !h.isHdr then rkWrite e (a + 1) f
  rkSet e fun k => { k with moved := k.moved + size }
  return linesOf a size + linesOf d size + 1

/-- R162, R171, R174: a priority request that waited since frame `f` is served. -/
def rkPriority (e : Eng) (a f : Nat) : Rake Nat := do
  let k ← rkOf e
  modify fun s => s.wrf .cluRkprio e.m 0 7 0 (max (s.rdf .cluRkprio e.m 0 7 0) (min 255 (s.frame - f)))
  if k.phase != 3 || !k.inHeap a then return 1
  let r := k.region a
  let v ← rkEntry e r
  if entState v != 3 then return 1
  let x ← rkObject e a
  if x.1.isPoison then
    rkError e 1 r
    return 1
  if x.1.isFwd then return 1
  let n ← rkMove e r a x.1 x.2
  modify fun s => s.incf .cluRkprio e.m 0 31 16
  return n + ((a - k.spv 0x300) % 65536 / 2 + 511) / 512

/-! ### Units of work (R161) -/

/-- What a unit of work does: the units that follow it, and the lines that it takes. -/
def rkUnit (e : Eng) : RakeWork → Rake (List RakeWork × Nat)
  | .move a f => do return ([], ← rkPriority e a f)
  | .root t => do return (← rkStrandRoots e t, 1)
  | .saves sp h => do return (← rkSaveArea e sp h, 1)
  | .vec => do
    let a := (← rkOf e).spv 0x308
    if a == 0 then return ([], 1)
    let h ← rkRead e a
    let b := h.pay.toNat % 2 ^ 54
    let x ← if h.isFwd then do pure (b, ← rkRead e b) else pure (a, h)
    return (if x.2.isHdr then [.scan .part (x.1 + 1) (hdrLen x.2.pay)] else [], 1)
  | .cards => do
    let k ← rkOf e
    let s ← get
    let n := s.build.cluPerCell
    let i := e.m % n
    let pos := Tab.get (fun _ => 0) k.cardPos i
    let ws ← rkReads e (k.spv 0x305 + pos / 512 * 8) 8
    let l := pos / 512 * 512
    match (List.range 512).find? fun x => pos ≤ l + x && (l + x) % n == i && l + x < 128 * k.spv 0x301
        && (ws.getD (x / 64) Word.empty).pay.getLsbD (x % 64) with
    | some x =>
      rkSetCard e (l + x) false
      rkSet e fun k => { k with cardPos := Tab.set (fun _ => 0) k.cardPos i (l + x + 1) }
      return ([.card (l + x) 0 false], 2)
    | none =>
      rkSet e fun k => { k with cardPos := Tab.set (fun _ => 0) k.cardPos i (l + 512) }
      return ([], 1)
  | .card c i young => do
    let k ← rkOf e
    let x ← rkScan e .part (k.spv 0x300 + 512 * c + 8 * i) 8
    let y := young || x.1.any fun w => w.isPtr && k.youngAddr (w.pay.toNat % 2 ^ 54)
    if i < 63 then return ([.card c (i + 1) y], 1 + b2n x.2.1 + x.2.2)
    else
      if y then rkSetCard e c true
      return ([], 1 + b2n x.2.1 + x.2.2 + b2n y)
  | .mark a i => do
    let q ← rkQueueLine e .load i
    let x ← rkMark e a
    return (if x.2.2.1 == 0 then [] else [.scan .part x.2.1 x.2.2.1], q + x.2.2.2)
  | .scan sp a n => do
    if n == 0 then return ([], 1)
    let k := min n (8 - a % 8)
    let x ← rkScan e sp a k
    return (if n == k then [] else [.scan sp (a + k) (n - k)], 1 + b2n x.2.1 + x.2.2)
  | .rescan r off => do
    if 65536 ≤ off then
      if !(← rkOf e).rescan.contains r then rkSetEntry e r fun v => putBit v 57 false
      return ([], 1)
    let k ← rkOf e
    let ws ← rkReads e (k.bitmap r (off / 1024 * 8)) 8
    match lineBit ws (off % 1024 / 2) with
    | none => return ([.rescan r (off / 1024 * 1024 + 1024)], 1)
    | some i =>
      let a := k.base r + off / 1024 * 1024 + 2 * i
      let x ← rkObject e a
      let b := bodyOf a x.1
      return ((if b.2 == 0 || x.1.isFwd then [] else [.scan .part b.1 b.2]) ++ [.rescan r (off / 1024 * 1024 + 2 * i + x.2)], 2)
  | .sweep r off => do
    if 65536 ≤ off then
      rkSet e fun k => { k with sweep := k.sweep.filter (· != r) }
      return ([], 1)
    let k ← rkOf e
    let ws ← rkReads e (k.bitmap r (off / 1024 * 8)) 8
    let first := b2n (off % 1024 == 0)
    match lineBit ws (off % 1024 / 2) with
    | none =>
      let next := off / 1024 * 1024 + 1024
      if next == 65536 then rkSet e fun k => { k with sweep := k.sweep.filter (· != r) }
      return (if next == 65536 then [] else [.sweep r next], first)
    | some i =>
      let o := off / 1024 * 1024 + 2 * i
      let x ← rkObject e (k.base r + o)
      let n ← if x.1.isFwd then pure 0
        else if x.1.isPoison then do
          rkError e 1 r
          pure 0
        else rkMove e r (k.base r + o) x.1 x.2
      if 65536 ≤ o + x.2 then rkSet e fun k => { k with sweep := k.sweep.filter (· != r) }
      return (if 65536 ≤ o + x.2 then [] else [.sweep r (o + x.2)], first + n)
  | .plan => do
    let k ← rkOf e
    if k.plan && k.req == 3 then return ([], ← rkPlan e) else return ([], 1)
  | .clear r j => do
    let k ← rkOf e
    (List.range 8).forM fun i => rkWriteTab e (k.bitmap r (8 * j + i)) (Word.raw 0)
    if j < 63 then return ([.clear r (j + 1)], 1)
    else
      rkSetEntry e r fun v => putFld (putFld v 58 57 0) 53 0 0
      rkSet e fun k => { k with clear := k.clear.filter (· != r) }
      return ([], 1)

/-! ### The order of work (R161) -/

/-- The Rake works for the partition: it exists and is not fault-stopped. -/
def State.rakes (s : State) (p : Nat) : Bool :=
  (s.part p).st != 0 && (s.part p).st != 5 && (s.part p).faultPend.isNone
/-- R161: the partitions homed in the cell of cluster `m`, after the one served last. -/
def State.rakeParts (s : State) (m : Nat) : List (Nat × Nat × Rk) :=
  let n := s.build.cellOfClu m
  let last := (s.clu m).lastPart
  ((s.partIds.filter (last < ·)) ++ s.partIds.filter (· ≤ last)).filterMap fun p =>
    let side := (s.part p).sideIn n
    if (s.part p).homedIn n && s.rakes p && !(s.part p).lostSide side then some (p, side, s.rk p side) else none
/-- No core still has to save strand `t` after a flip (R158). -/
def State.rootReady (s : State) (n p t : Nat) : Bool :=
  !(s.coresOfCell n).any fun c => (s.core c).flip && (s.core c).part == some p && (s.core c).strand == t
/-- R161: new work of a kind for a partition, and the collection state once it is taken. -/
def State.rakeTake (s : State) (m kind : Nat) (x : Nat × Nat × Rk) : Option (RakeWork × Rk) :=
  let k := x.2.2
  let e := s.build.cluPerCell
  let i := m % e
  match kind with
  | 2 =>
    if k.phase != 1 then none
    else (k.roots.find? fun t => s.rootReady (s.build.cellOfClu m) x.1 t).map fun t =>
      (if t == 64 then .vec else .root t, { k with roots := k.roots.filter (· != t) })
  | 3 =>
    if k.phase == 1 && k.young && Tab.get (fun _ => 0) k.cardPos i < 128 * k.spv 0x301 then some (.cards, k) else none
  | 4 =>
    if k.phase != 1 then none
    else match k.mq, k.rescan with
      | a :: t, _ => some (.mark a k.mqHead, { k with mq := t, mqHead := k.mqHead + 1 })
      | [], r :: t => some (.rescan r 0, { k with rescan := t })
      | [], [] => none
  | 5 => if k.phase != 3 then none else (k.sweep.find? fun r => r % e == i).map fun r => (.sweep r 0, k)
  | 6 => if k.plan && i == 0 then some (.plan, k) else none
  | _ => if k.clearing then (k.clear.find? fun r => r % e == i).map fun r => (.clear r 0, k) else none
/-- R162: the first priority request becomes work. -/
def State.rakePrio (s : State) (m : Nat) : State :=
  match (s.clu m).prio.find? fun q => s.rakes q.part with
  | some q => s.modClu m fun k => { k with prio := k.prio.filter (· != q), work := (q.part, q.side, 1, .move q.a q.frame) :: k.work }
  | none => s
/-- R161: the work of kind `kind` for a partition that comes next: what the engine holds of it, or new work, with the collection
state once that is taken. -/
def State.rakeOf (s : State) (m kind : Nat) (x : Nat × Nat × Rk) : Option (RakeWork × Option Rk) :=
  match (s.clu m).work.find? fun w => w.1 == x.1 && w.2.1 == x.2.1 && w.2.2.1 == kind with
  | some w => some (w.2.2.2, none)
  | none => if kind == 1 then none else (s.rakeTake m kind x).map fun w => (w.1, some w.2)
/-- R161: the first work of the first of the kinds that has any comes to the front; whether there is any. -/
def State.rakeChoose (s : State) (m : Nat) (kinds : List Nat) : State × Bool :=
  match kinds.findSome? fun kind => (s.rakeParts m).findSome? fun x => (s.rakeOf m kind x).map fun w => (kind, x, w) with
  | none => (s, false)
  | some (kind, x, w) =>
    let e := (x.1, x.2.1, kind, w.1)
    let s := match w.2 with | some r => s.modRk x.1 x.2.1 fun _ => r | none => s
    (s.modClu m fun k => { k with work := e :: (if w.2.isNone then k.work.erase e else k.work) }, true)
/-- R161: a unit under way goes on; else the order of the kinds decides. -/
def State.rakeNext (s : State) (m : Nat) (assist : Bool) : State × Bool :=
  let may := fun (w : Nat × Nat × Nat × RakeWork) => s.rakes w.1 && (!assist || w.2.2.1 == 3 || w.2.2.1 == 4)
  let k := s.clu m
  if k.prog != 0 && (match k.work with | w :: _ => may w | [] => false) then (s, true)
  else
    let s := (if assist then s else s.rakePrio m).modClu m fun k => { k with prog := 0 }
    s.rakeChoose m (if assist then [3, 4] else [1, 2, 3, 4, 5, 6, 7])
/-- R161: one line of the first unit of work is processed; the unit takes effect with its last line. -/
def State.rakeWork (s : State) (m : Nat) (assist : Bool) : State :=
  match (s.clu m).work with
  | [] => s
  | (p, side, kind, w) :: rest =>
    let n := s.build.cellOfClu m
    let s := s.modClu m fun k => { k with lastPart := p, lines := k.lines + b2n (!assist) }
    let s := s.wr .cluRkstat m 0 (putFld (putFld (s.rd .cluRkstat m) 11 8 kind) 5 0 p)
    match (rkUnit ⟨m, p, side⟩ w).run.run s with
    | (.error _, _) => (s.modClu m fun k => { k with prog := 0 }).walkStop n p 3
    | (.ok x, t) =>
      if (t.clu m).prog + 1 < x.2 then s.modClu m fun k => { k with prog := k.prog + 1 }
      else t.modClu m fun k => { k with prog := 0, work := (x.1.map fun w => (p, side, kind, w)) ++ rest }
/-- R161, R121: a line of cluster `m`'s engine: within the row's budget, or on a core at 0xF0. -/
def State.rakeLine (s : State) (m : Nat) : State :=
  let n := s.build.cellOfClu m
  if !s.ticking || s.alm.zbusy || ((s.cell n).st != 2 && (s.cell n).st != 3) then s
  else
    let spent := fld (s.rowAttr (s.cell n).row n) 13 0 ≤ (s.clu m).lines
    if !spent then
      let r := s.rakeNext m false
      if r.2 then r.1.rakeWork m false else r.1
    else match (coresOfClu m).find? fun c => (s.core c).entry == 0xF0 && !(s.core c).locked with
      | none => s
      | some c =>
        match (s.clu m).ucEntry 0x00A8 with
        | some (.lock lk) => s.lockup c lk 0 (s.core c).pc
        | some _ => s
        | none =>
          let r := s.rakeNext m true
          if r.2 then r.1.rakeWork m true else r.1
/-- RAKE_LINE (R161). -/
def execRakeLine (m : Nat) (s : State) : Out := onClu s m (s.rakeLine m)

/-! ### Flips and completions (R149 to R151, R158, R166, R167, R170) -/

/-- A piece of work done at a tick by the engine of the lowest cluster; a walk that faults stops the partition (R226). -/
def State.rakeRun (s : State) (p side : Nat) (f : Eng → Rake Unit) : State :=
  let n := (s.part p).cellOf side
  match (f ⟨n * s.build.cluPerCell, p, side⟩).run.run s with
  | (.ok _, t) => t
  | (.error _, t) => t.walkStop n p 3
/-- An engine of the side's cell holds work for it, or a priority request. -/
def State.rakeBusy (s : State) (p side : Nat) : Bool :=
  (s.clusOfCell ((s.part p).cellOf side)).any fun m =>
    ((s.clu m).work.any fun w => w.1 == p && w.2.1 == side) || (s.clu m).prio.any fun q => q.part == p && q.side == side
/-- R155: the mark buffers of the cores that serve a side are flushed; a core whose flush waits stalls. -/
def State.flushSide (s : State) (p side : Nat) : State :=
  (s.coresOfCell ((s.part p).cellOf side)).foldl (fun s c =>
    if (s.core c).part == some p then
      let r := s.flushMarks c
      if r.2 then r.1 else r.1.modCore c fun k => { k with flushDue := true }
    else s) s
/-- Cores that serve a side. -/
def State.coresOn (s : State) (p side : Nat) : List Nat :=
  (s.coresOfCell ((s.part p).cellOf side)).filter fun c => (s.core c).part == some p
/-- R166: marking is done on a side. -/
def State.markDone (s : State) (p side : Nat) : Bool :=
  let k := s.rk p side
  k.phase == 1 && k.nextPhase.isNone && k.roots.isEmpty && k.mq.isEmpty && k.rescan.isEmpty && !s.rakeBusy p side
    && (s.coresOn p side).all (fun c => (s.core c).mark.isEmpty && !(s.core c).flip)
    && (!k.young || (List.range s.build.cluPerCell).all fun i => 128 * k.spv 0x301 ≤ Tab.get (fun _ => 0) k.cardPos i)
/-- R170: relocation is done on a side. -/
def State.relocDone (s : State) (p side : Nat) : Bool :=
  let k := s.rk p side
  k.phase == 3 && k.nextPhase.isNone && k.sweep.isEmpty && !s.rakeBusy p side
/-- A result register of the collection. -/
def Rk.setReg (k : Rk) (n v : Nat) : Rk := { k with reg := Tab.set (fun _ => 0) k.reg n (BitVec.ofNat 64 v) }
/-- R167: a weak box whose referent is an unmarked heap object loses it; whether it did. -/
def rkWeak (e : Eng) (a : Nat) : Rake Nat := do
  let k ← rkOf e
  let w ← rkRead e (a + 1)
  if !w.isPtr then return 0
  let a0 := w.pay.toNat % 2 ^ 54
  let h ← if k.inHeap a0 then rkRead e a0 else pure Word.empty
  let t := if h.isFwd then h.pay.toNat % 2 ^ 54 else a0
  if !k.marks t then return 0
  let o := (t - k.spv 0x300) % 65536 / 2
  let b ← rkRead e (k.bitmap (k.region t) (o / 64))
  if b.pay.getLsbD (o % 64) then return 0
  rkWrite e (a + 1) Word.nil
  return 1
/-- R166, R167, R170: marking completes on a side. -/
def rkMarkComplete (e : Eng) : Rake Unit := do
  let k ← rkOf e
  let weak ← k.weak.foldlM (fun n a => do return n + (← rkWeak e a)) 0
  let live ← (List.range (k.spv 0x301)).foldlM (fun n r => do
    let v ← rkEntry e r
    if entState v == 5 && (r < k.spv 0x302 || !k.young) then rkSetEntry e r fun v => putFld v 63 60 0
    return n + entLive v) 0
  let f := (← get).frame
  rkSet e fun k => ((({ k with nextPhase := some 2, weak := [] }).setReg 0x317 weak).setReg 0x310 live).setReg 0x312 (f - k.markFrm)
/-- R170: relocation completes on a side. -/
def rkRelocComplete (e : Eng) : Rake Unit := do
  let k ← rkOf e
  (List.range (k.spv 0x301)).forM fun r => do
    let v ← rkEntry e r
    if entState v == 3 then rkSetEntry e r fun v => putFld v 63 60 5
    else if entState v == 4 then rkSetEntry e r fun v => putFld v 63 60 2
  let f := (← get).frame
  rkSet e fun k => ((({ k with nextPhase := some 0 }).setReg 0x311 k.moved).setReg 0x313 (f - k.relFrm)).setReg 0x30F (k.spv 0x30F + 1)

/-- R151: the sides of a partition that collect. -/
def State.gcSides (s : State) (p : Nat) : List Nat := (s.part p).live
/-- R151, R166: marking completes where every side is ready. -/
def State.gcMarkDone (s : State) (p : Nat) : State :=
  if (s.part p).st != 0 && (s.gcSides p).all (s.markDone p) then
    (s.gcSides p).foldl (fun s x => s.rakeRun p x rkMarkComplete) s
  else s
/-- R151, R170: relocation completes where every side is ready. -/
def State.gcRelocDone (s : State) (p : Nat) : State :=
  if (s.part p).st != 0 && (s.gcSides p).all (s.relocDone p) then
    (s.gcSides p).foldl (fun s x => s.rakeRun p x rkRelocComplete) s
  else s
/-- R149: the phase that a completion announced begins; R170: clearing begins with IDLE. -/
def State.gcPhase (s : State) (p : Nat) : State :=
  if (s.gcSides p).all fun x => (s.rk p x).nextPhase.isSome then
    (s.gcSides p).foldl (fun s x => s.modRk p x fun k =>
      let ph := k.nextPhase.getD 0
      if ph == 0 then { k with phase := 0, nextPhase := none, clearing := true, clear := List.range (k.spv 0x301) }
      else { k with phase := ph, nextPhase := none }) s
  else s
/-- R170: CLEAN becomes 1 once the last region is cleared. -/
def State.gcClean (s : State) (p side : Nat) : State :=
  let k := s.rk p side
  if k.clearing && k.clear.isEmpty && !s.rakeBusy p side then
    s.modRk p side fun k => { k with clean := true, clearing := false }
  else s
/-- R26: the strands of partition `p` in cell `n`. -/
def State.strandsIn (s : State) (n p : Nat) : Nat :=
  (List.range (s.rowsOf n)).foldl (fun a r => max a (s.coresGiven n r p).length) 0
/-- R158: the cores of a side save their groups as roots. -/
def State.flipCores (s : State) (p side : Nat) : State :=
  (s.coresOn p side).foldl (fun s c => s.modCore c fun k => { k with flip := true }) s
/-- R150, R170: a mark flip on a side. -/
def State.markFlip (s : State) (p side : Nat) : State :=
  let n := (s.part p).cellOf side
  let s := s.rakeRun p side fun e => do
    (List.range ((← rkOf e).spv 0x301)).forM fun r => rkSetEntry e r fun v => putBit v 56 (entState v == 2)
  let s := s.modRk p side fun k =>
    { k with col := (k.col + 1) % 4, phase := 1, young := k.req == 2, req := 0, clean := false, cardPos := [], weak := [],
             rescan := [], markFrm := s.frame, roots := List.range (s.strandsIn n p) ++ [64] }
  s.flipCores p side
/-- R150, R168: a relocate flip on a side. -/
def State.relocFlip (s : State) (p side : Nat) : State :=
  let s := s.rakeRun p side fun e => do
    let l ← (List.range ((← rkOf e).spv 0x301)).foldlM (fun l r => do
      return if entState (← rkEntry e r) == 3 then l ++ [r] else l) []
    rkSet e fun k => { k with sweep := l }
  let s := s.modRk p side fun k =>
    { k with col := (k.col + 1) % 4, phase := 3, req := 0, flipPend := false, defer := false, moved := 0, relFrm := s.frame }
  s.flipCores p side
/-- R150: a memory operand of an unfinished job of the side lies in a RELOC region. -/
def State.deferring (s : State) (p side : Nat) : Bool :=
  let vas := s.jobs.flatMap fun x => match x.2 with
    | some j => if j.part == p && j.side == side && j.st != .finished then j.ops.map fun o => o.2.1 else []
    | none => []
  let n := (s.part p).cellOf side
  match ((vas.foldlM (fun b va => do
      let e : Eng := ⟨n * s.build.cluPerCell, p, side⟩
      let k ← rkOf e
      if k.inHeap va then return b || entState (← rkEntry e (k.region va)) == 3 else return b) false : Rake Bool).run.run s).1 with
  | .ok b => b
  | .error _ => false
/-- R150: the mark flip of a partition, where it is due. -/
def State.gcMarkFlip (s : State) (p : Nat) : State :=
  if (s.gcSides p).all fun x => let k := s.rk p x; k.phase == 0 && k.clean && (k.req == 1 || k.req == 2) then
    (s.gcSides p).foldl (fun s x => s.markFlip p x) s
  else s
/-- R150: the relocate flip of a partition, where it is due. -/
def State.gcRelocFlip (s : State) (p : Nat) : State :=
  if (s.gcSides p).all fun x => let k := s.rk p x; k.phase == 2 && k.flipPend then
    let s := (s.gcSides p).foldl (fun s x => s.modRk p x fun k => { k with defer := s.deferring p x }) s
    if (s.gcSides p).any fun x => (s.rk p x).defer then s
    else (s.gcSides p).foldl (fun s x => s.relocFlip p x) s
  else s
/-- Step 7 of a tick for the collection of partition `p` (R17, R149 to R151). -/
def State.gcTick (s : State) (p : Nat) : State :=
  if (s.part p).st == 0 then s
  else
    let s := (s.gcSides p).foldl (fun s x => s.flushSide p x) s
    let s := s.gcPhase p
    let s := (s.gcSides p).foldl (fun s x => s.gcClean p x) s
    let s := if (s.part p).st == 3 then (s.gcMarkFlip p).gcRelocFlip p else s
    (s.gcMarkDone p).gcRelocDone p
/-- The engine of cluster `m` has work for a partition and side. -/
def State.rakeHas (s : State) (m : Nat) (x : Nat × Nat × Rk) : Bool :=
  ((s.clu m).prio.any fun q => q.part == x.1 && q.side == x.2.1)
    || [1, 2, 3, 4, 5, 6, 7].any fun kind => (s.rakeOf m kind x).isSome
/-- R226: PROOT is read at the tick for each partition that the engine has work for. -/
def State.rakeRoots (s : State) (m : Nat) : State :=
  (s.rakeParts m).foldl (fun s x =>
    if s.rakeHas m x then
      let r := s.proot x.1 x.2.1
      r.2.modClu m fun k => { k with rroot := (x.1 * 2 + x.2.1, r.1) :: k.rroot }
    else s) s
/-- R174: the engines' registers at a tick; R380, R381: the Rake increment monitors see the lines of the frame; R226: roots
are read again. -/
def State.rakeTick (s : State) (m : Nat) : State :=
  let n := (s.clu m).lines
  let s := s.monFeed 3 m (BitVec.ofNat 32 (min n 0xFFFF))
  let s := s.wrf .cluRkstat m 0 31 31 (b2n (n != 0))
  let s := s.wr .cluRklines m 0 (BitVec.ofNat 32 (max (s.rdf .cluRklines m 0 31 16) (min n 0xFFFF) * 2 ^ 16 + min n 0xFFFF))
  let s := s.modClu m fun k => { k with lines := 0, rroot := [], work := k.work.filter fun w => (s.part w.1).st != 0,
                                        prio := k.prio.filter fun q => (s.part q.part).st != 0 }
  if s.alm.zbusy then s else s.rakeRoots m

/-- MARK_COMPLETION (R166). -/
def execMarkCompletion (p side : Nat) (s : State) : Out := onPart s p (if side < 2 then s.gcMarkDone p else s)
/-- RELOCATION_COMPLETION (R170). -/
def execRelocationCompletion (p side : Nat) (s : State) : Out := onPart s p (if side < 2 then s.gcRelocDone p else s)
/-- REGION_CLEARING_COMPLETE (R170). -/
def execRegionClearingComplete (p side : Nat) (s : State) : Out := onPart s p (if side < 2 then s.gcClean p side else s)
/-- DEFERRED_RELOCATE_FLIP (R150). -/
def execDeferredRelocateFlip (p side : Nat) (s : State) : Out :=
  onPart s p (if side < 2 && (s.rk p side).defer && (s.part p).st == 3 then s.gcRelocFlip p else s)

end Sys2Proof.Machine
end

