-- ==== Sys2Proof/Machine/LoadStore.lean ====
section
/-!
DEFINITION. Loads, stores, list and vector operations and allocation (R82 to R85, R110), the retry of a waiting load barrier
(R156) and the mark buffer (R155).
-/
namespace Sys2Proof.Machine

/-! ### LD, ST, LDR, STR (R82, R83) -/

/-- LD (R82). -/
def ldOp (c : Nat) (rd rs1 : Reg) (imm : BitVec 13) : Op Flow := do
  let b ← regOp c rs1
  needBase c b
  let r ← baseAddr c b imm.toInt false
  putOp c rd (← loadOp c r.1 (.barrier (.ld c rd rs1 imm)))
  return .seq
/-- LD (R82). -/
def execLd (c : Nat) (rd rs1 : Reg) (imm : BitVec 13) (s : State) : Out := instr c (ldOp c rd rs1 imm) s
/-- ST (R82). -/
def stOp (c : Nat) (rv rs1 : Reg) (imm : BitVec 13) : Op Flow := do
  let b ← regOp c rs1
  let w ← regOp c rv
  needBase c b
  storeRegs c w (b.isCons && imm == 0) (b.isFix || b.isCons)
  let r ← baseAddr c b imm.toInt true
  storeOp c r.1 w r.2
  return .seq
/-- ST (R82). -/
def execSt (c : Nat) (rv rs1 : Reg) (imm : BitVec 13) (s : State) : Out := instr c (stOp c rv rs1 imm) s

/-- R83: the address of a raw copy. -/
def rawAddr (c : Nat) (rs1 : Reg) (imm : BitVec 13) : Op Nat := do
  needLevel c 2
  let b ← fixOp c 0 rs1
  steer 0x03 0 b
  return fixSum b imm.toInt
/-- LDR (R83). -/
def ldrOp (c : Nat) (rd rs1 : Reg) (imm : BitVec 13) : Op Flow := do
  let a ← rawAddr c rs1 imm
  let r ← loadAt c a
  watchOp c a false
  putOp c rd r.2.2
  return .seq
/-- LDR (R83). -/
def execLdr (c : Nat) (rd rs1 : Reg) (imm : BitVec 13) (s : State) : Out := instr c (ldrOp c rd rs1 imm) s
/-- STR (R83): a raw store; a device page still takes a public `FIX` alone (R219). -/
def rawStore (c va : Nat) (w : Word) : Op Unit := do
  let r ← memAt c (← levelOp c) .store va
  watchOp c va true
  if r.1.dev then deviceStore c r.2 w else writePa c r.2 w
/-- STR (R83). -/
def strOp (c : Nat) (rv rs1 : Reg) (imm : BitVec 13) : Op Flow := do
  let a ← rawAddr c rs1 imm
  rawStore c a (← regOp c rv)
  return .seq
/-- STR (R83). -/
def execStr (c : Nat) (rv rs1 : Reg) (imm : BitVec 13) (s : State) : Out := instr c (strOp c rv rs1 imm) s

/-! ### Lists and vectors (R84) -/

/-- R84: a `CONS` operand. -/
def consOp (c : Nat) (rs1 : Reg) : Op Word := do
  let b ← regOp c rs1
  needTag b.isCons 0 b
  return b
/-- CAR and CDR (R84): word `j`. -/
def cxrOp (c : Nat) (rd rs1 : Reg) (j : Nat) (i : Instr) : Op Flow := do
  let b ← consOp c rs1
  let a ← consAddr c b 0 j
  putOp c rd (← loadOp c a (.barrier i))
  return .seq
/-- CAR (R84). -/
def execCar (c : Nat) (rd rs1 : Reg) (s : State) : Out := instr c (cxrOp c rd rs1 0 (.car c rd rs1)) s
/-- CDR (R84). -/
def execCdr (c : Nat) (rd rs1 : Reg) (s : State) : Out := instr c (cxrOp c rd rs1 1 (.cdr c rd rs1)) s
/-- SETCAR and SETCDR (R84): word `j`. -/
def setcxrOp (c : Nat) (rs1 rs2 : Reg) (j : Nat) : Op Flow := do
  let b ← consOp c rs1
  let w ← regOp c rs2
  storeRegs c w (j == 0) true
  let a ← consAddr c b 0 j
  storeOp c a w none
  return .seq
/-- SETCAR (R84). -/
def execSetcar (c : Nat) (rs1 rs2 : Reg) (s : State) : Out := instr c (setcxrOp c rs1 rs2 0) s
/-- SETCDR (R84). -/
def execSetcdr (c : Nat) (rs1 rs2 : Reg) (s : State) : Out := instr c (setcxrOp c rs1 rs2 1) s

/-- CONS (R84, R110): the two words are seen together (R93). -/
def newConsOp (c : Nat) (region : BitVec 2) (rd rs1 rs2 : Reg) : Op Flow := do
  let car ← regOp c rs1
  let cdr ← regOp c rs2
  storeRegs c car true true
  storeRegs c cdr false true
  let (a, _) ← allocOp c region.toNat 2 car
  let r ← memAt c (← levelOp c) .store a
  let q ← memAt c (← levelOp c) .store (a + 1)
  storeDest c r.2 r.1 car none
  storeDest c q.2 q.1 cdr none
  let f ← cardFind c a car
  let g ← cardFind c (a + 1) cdr
  watchOp c a true
  watchOp c (a + 1) true
  sbRoom c 2 8
  cardPost c f
  cardPost c g
  pushStore c r.2 car true
  pushStore c q.2 cdr false
  allocDone c region.toNat (a + 2)
  putOp c rd (← newPtr c tyCONS a)
  return .seq
/-- CONS (R84). -/
def execCons (c : Nat) (region : BitVec 2) (rd rs1 rs2 : Reg) (s : State) : Out :=
  instr c (newConsOp c region rd rs1 rs2) s

/-- R84, R114 steps 1 to 3: base and index of `VREF` and `VSET`; the store's register checks stand between. -/
def vecBase (c : Nat) (rs1 rs2 : Reg) (w : Option Word) : Op (Word × Word) := do
  let b ← regOp c rs1
  needTag b.isHeadered 0 b
  let i ← fixOp c 1 rs2
  match w with
  | some w => storeRegs c w false false
  | none => pure ()
  steer 0x04 1 i
  return (b, i)
/-- R84: the address of body word `i` and the header payload. -/
def vecAddr (c : Nat) (b i : Word) : Op (Nat × B64) := do
  let (a, h) ← derefOp c b 0
  need (i.pay.toNat < 2 ^ 63 && i.pay.toNat < hdrLen h) 0x04 (bndInfo 1)
  return (a + 1 + i.pay.toNat, h)
/-- VREF (R84). -/
def vrefOp (c : Nat) (rd rs1 rs2 : Reg) : Op Flow := do
  let (b, i) ← vecBase c rs1 rs2 none
  let r ← vecAddr c b i
  putOp c rd (← loadOp c r.1 (.barrier (.vref c rd rs1 rs2)))
  return .seq
/-- VREF (R84). -/
def execVref (c : Nat) (rd rs1 rs2 : Reg) (s : State) : Out := instr c (vrefOp c rd rs1 rs2) s
/-- VSET (R84). -/
def vsetOp (c : Nat) (rv rs1 rs2 : Reg) : Op Flow := do
  let w ← regOp c rv
  let (b, i) ← vecBase c rs1 rs2 (some w)
  let r ← vecAddr c b i
  storeOp c r.1 w (some r.2)
  return .seq
/-- VSET (R84). -/
def execVset (c : Nat) (rv rs1 rs2 : Reg) (s : State) : Out := instr c (vsetOp c rv rs1 rs2) s

/-! ### ALLOC (R85, R110) -/

/-- R85: a length in the range of its kind. -/
def lengthOk (kind : Nat) (len : Int) : Bool :=
  (kindMinLen kind : Int) ≤ len && len < 2 ^ 32 && (kind != 0x07 || len == 1)
/-- ALLOC (R85). -/
def allocInstr (c : Nat) (rd rs1 : Reg) (imm : BitVec 13) : Op Flow := do
  let kind := fld imm 5 0
  let sld := imm.getLsbD 6
  let n := fld imm 8 7
  need (fld imm 12 9 == 0 && (kindPtr kind).isSome && (!sld || sealableKind kind)) 0x01
  need (kind != 0x04 || 1 ≤ (← levelOp c)) 0x0B
  let l ← fixOp c 0 rs1
  need (!(kind == 0x07 && (← pairedOp c))) 0x03 (3 * 256 + 0xC0)
  steer 0x04 0 l
  need (lengthOk kind l.int) 0x04 (bndInfo 0)
  micro c 0x00A0 do
    let len := l.pay.toNat
    let q ← nextSeq c
    let h := mkWord tyHDR false 0 (mkHdr len (idHash q.toNat) kind sld 0 false)
    let (a, _) ← allocOp c n (objSize len) h
    watchOp c a true
    let clr ← clearOp c n
    if clr then putWord c a h else putWhole c a (h :: List.replicate (objSize len - 1) Word.empty)
    headedDone c n (a + objSize len) q
    putOp c rd (← newPtr c ((kindPtr kind).getD 0) a)
    return .seq
/-- ALLOC (R85). -/
def execAlloc (c : Nat) (rd rs1 : Reg) (imm : BitVec 13) (s : State) : Out := instr c (allocInstr c rd rs1 imm) s

/-! ### The mark buffer (R155) -/

/-- MARK_BUFFER_FLUSH (R155). -/
def execMarkBufferFlush (c : Nat) (s : State) : Out := onCore s c (s.flushMarks c).1

end Sys2Proof.Machine
end

