-- ==== Sys2Proof/Machine/Resumable.lean ====
section
/-!
DEFINITION. When an interrupt is due (R186, R187), the resumable instructions (R90, R91) and `ZLINE` (R92).
-/
namespace Sys2Proof.Machine

/-! ### Interrupts due (R39, R178, R186, R187) -/

/-- R187: an interrupt for level `x` is taken. -/
def Core.takesInt (k : Core) (x : Nat) : Bool := k.level < x || (k.level == x && k.pbit 2)
/-- The target level of an interrupt: S when `toS` and the strand is not of a pair, else T. -/
def State.intLevel (s : State) (c : Nat) (toS : Bool) : Nat := if toS && !s.pairedOn c then 1 else 2
/-- R178 orders 2 and 3: the interrupt due at core `c`: level, cause and SINFO. -/
def State.dueInt (s : State) (c : Nat) : Option (Nat × Nat × Nat) :=
  let k := s.core c
  let xt := s.intLevel c ((k.spv 0x053).getLsbD 0x31)
  if k.pbit 6 then none
  else if k.tmrPend && k.takesInt xt then some (xt, 0x31, 0)
  else
    let v := s.ipend c &&& k.spv 0x051
    ((List.range 64).find? fun i => v.getLsbD i && k.takesInt (s.intLevel c ((k.spv 0x052).getLsbD i))).map fun i =>
      (s.intLevel c ((k.spv 0x052).getLsbD i), 0x32, i)

/-! ### Ranges (R91) -/

/-- R91: an even register number from 2 to 30. -/
def pairReg (r : Reg) : Bool := r.toNat % 2 == 0 && 2 ≤ r.toNat
/-- A base and index. -/
structure Span91 where
  base : Word
  /-- Address and header payload of the object, for a headered base. -/
  obj : Option (Nat × B64)
  idx : Int
  deriving DecidableEq, Repr
/-- R91: the base and index registers; `o` is the operand that SINFO names. -/
def spanRegs (c o : Nat) (r : Reg) : Op (Word × Word) := do
  let b ← regOp c r
  needTag (b.isPtr || (b.isFix && 1 ≤ (← levelOp c))) o b
  let i ← regOp c (r + 1)
  needTag i.isFix 3 i
  return (b, i)
/-- R127: base and index steer. -/
def spanSteer (o : Nat) (q : Word × Word) : Op Unit := do
  steer 0x03 o q.1
  steer 0x04 o q.2
/-- R91: the whole range is in range; the object is dereferenced. -/
def spanOf (c o : Nat) (q : Word × Word) (n : Int) : Op Span91 := do
  let (b, i) := q
  let ok := fun (len : Int) => need (n == 0 || (0 ≤ i.int && i.int + n ≤ len)) 0x04 (bndInfo o)
  if b.isFix then return ⟨b, none, i.int⟩
  else if b.isCons then
    let _ ← ptrAddr o b
    ok 2
    return ⟨b, none, i.int⟩
  else
    let x ← derefOp c b o
    ok (hdrLen x.2)
    return ⟨b, some x, i.int⟩
/-- R91: the address of the word `d` places on from the index. -/
def spanAddr (c o : Nat) (q : Span91) (d : Nat) : Op Nat :=
  match q.obj with
  | some x => return (x.1 + 1 + (q.idx + d).toNat)
  | none => if q.base.isCons then consAddr c q.base o (q.idx + d).toNat else return fixSum q.base (q.idx + d)
/-- R91: the count. -/
def countOp (c : Nat) (rs2 : Reg) : Op Word := fixOp c 1 rs2
/-- R91: a count that is public and not negative. -/
def countOk (n : Word) : Op Unit := do
  need (0 ≤ n.int) 0x04 (bndInfo 1)

/-- R90: the count register and the index registers `rs` after a word; `fwd` where the indices advance. -/
def progress (c : Nat) (rs2 : Reg) (rs : List Reg) (fwd : Bool) : Op Unit := do
  if fwd then
    modOp c fun k => rs.foldl (fun k r => k.put (r + 1) (Word.fix ((k.get (r + 1)).pay + 1))) k
  modOp c fun k => k.put rs2 (Word.fix ((k.get rs2).pay - 1))
/-- R90: after each line's worth of words a pending preemption or interrupt stops the instruction. R97, R188: the first line
ends the one-instruction shadow. -/
def linePoint (c moved left : Nat) : Op Unit := do
  if moved % 8 == 0 && left != 0 then
    modOp c fun k => k.setPbit 6 false
    let s ← get
    if (s.core c).preempt || (s.dueInt c).isSome then throw .more
/-- R90, R96: RESUME is 1 after a trap or a wait that comes once a word is done. A word done in an earlier execution counts
(DESIGN CHOICE, log 49): RESUME that was 1 stays. -/
def resumable (c : Nat) (rs2 : Reg) (body : Op Flow) : Op Flow := do
  let n0 ← regOp c rs2
  tryCatch body fun e => do
    let n ← regOp c rs2
    match e with
    | .trap _ _ _ => modOp c fun k => k.setPbit 3 (k.pbit 3 || n != n0)
    | .wait _ => if n != n0 then modOp c fun k => k.setPbit 3 true
    | _ => pure ()
    throw e

/-! ### BLKCOPY, BLKCOPYR (R91) -/

/-- The words of a block copy: `one d` moves the word `d` places on from the indices as they stood. -/
def copyLoop (c : Nat) (rs2 : Reg) (rs : List Reg) (back : Bool) (n : Nat) (one : Nat → Op Unit) : Nat → Op Unit
  | 0 => pure ()
  | left + 1 => do
    let doneBefore := n - (left + 1)
    one (if back then left else doneBefore)
    progress c rs2 rs (!back)
    linePoint c (doneBefore + 1) left
    copyLoop c rs2 rs back n one left
/-- R91: a copy runs backward when the destination starts above the source and the ranges overlap. -/
def copiesBack (src dst n : Nat) : Bool := src < dst && dst < src + n
/-- R91: the direction of a copy: a resumed one keeps the direction in which it began, which the strand holds for each
level. -/
def copyDir (c src dst n : Nat) : Op Bool := do
  let s ← get
  let k := s.core c
  if k.pbit 3 then return (s.strand (s.strandOn c)).back.getLsbD k.level
  else
    let b := copiesBack src dst n
    set (s.modStrand (s.strandOn c) fun x => { x with back := putBit x.back k.level b })
    return b
/-- BLKCOPY (R91). -/
def blkcopyOp (c : Nat) (rd rs1 rs2 : Reg) : Op Flow := do
  need (pairReg rs1 && pairReg rd) 0x01
  let s ← spanRegs c 0 rs1
  let d ← spanRegs c 2 rd
  let n ← countOp c rs2
  spanSteer 0 s
  spanSteer 2 d
  steer 0x04 1 n
  countOk n
  let src ← spanOf c 0 s n.int
  let dst ← spanOf c 2 d n.int
  let cnt := n.pay.toNat
  if cnt == 0 then return .seq
  let a ← spanAddr c 0 src 0
  let b ← spanAddr c 2 dst 0
  copyLoop c rs2 [rs1, rd] (← copyDir c a b cnt) cnt (fun i => do
    let w ← loadOp c (← spanAddr c 0 src i) (.barrier (.blkcopy c rd rs1 rs2))
    storeRegs c w (d.1.isCons && dst.idx + i == 0) (d.1.isFix || d.1.isCons)
    storeOp c (← spanAddr c 2 dst i) w (dst.obj.map Prod.snd)) cnt
  return .seq
/-- BLKCOPY (R91). -/
def execBlkcopy (c : Nat) (rd rs1 rs2 : Reg) (s : State) : Out := instr c (resumable c rs2 (blkcopyOp c rd rs1 rs2)) s
/-- BLKCOPYR (R91, R83). -/
def blkcopyrOp (c : Nat) (rd rs1 rs2 : Reg) : Op Flow := do
  need (pairReg rs1 && pairReg rd) 0x01
  needLevel c 2
  let s ← spanRegs c 0 rs1
  needTag s.1.isFix 0 s.1
  let d ← spanRegs c 2 rd
  needTag d.1.isFix 2 d.1
  let n ← countOp c rs2
  spanSteer 0 s
  spanSteer 2 d
  steer 0x04 1 n
  countOk n
  let cnt := n.pay.toNat
  let a := fixSum s.1 s.2.int
  let b := fixSum d.1 d.2.int
  copyLoop c rs2 [rs1, rd] (← copyDir c a b cnt) cnt (fun i => do
    let va := fixSum s.1 (s.2.int + i)
    let r ← loadAt c va
    watchOp c va false
    rawStore c (fixSum d.1 (d.2.int + i)) r.2.2) cnt
  return .seq
/-- BLKCOPYR (R91). -/
def execBlkcopyr (c : Nat) (rd rs1 rs2 : Reg) (s : State) : Out := instr c (resumable c rs2 (blkcopyrOp c rd rs1 rs2)) s

/-! ### SCANTAG (R91) -/

/-- R91: the mask of `SCANTAG` selects the type of a word. -/
def scanHit (m : B64) (w : Word) : Bool := m.getLsbD w.ty != m.getLsbD 32
/-- The words of a scan: the index of the first hit. -/
def scanLoop (c : Nat) (rs1 rs2 : Reg) (q : Span91) (m : B64) (n : Nat) : Nat → Op (Option Int)
  | 0 => return none
  | left + 1 => do
    let i := n - (left + 1)
    let va ← spanAddr c 0 q i
    let r ← loadAt c va
    needTag (!r.1.x) 3 r.2.2
    watchOp c va false
    progress c rs2 [rs1] true
    if scanHit m r.2.2 then return some (q.idx + i)
    linePoint c (i + 1) left
    scanLoop c rs1 rs2 q m n left
/-- SCANTAG (R91). -/
def scantagOp (c : Nat) (rd rs1 rs2 : Reg) : Op Flow := do
  need (pairReg rs1) 0x01
  let s ← spanRegs c 0 rs1
  let n ← countOp c rs2
  let m ← fixOp c 2 rd
  spanSteer 0 s
  steer 0x04 1 n
  steer 0x07 2 m
  countOk n
  let q ← spanOf c 0 s n.int
  let r ← scanLoop c rs1 rs2 q m.pay n.pay.toNat n.pay.toNat
  putOp c rd (Word.fix (BitVec.ofInt 64 (r.getD (-1))))
  return .seq
/-- SCANTAG (R91). -/
def execScantag (c : Nat) (rd rs1 rs2 : Reg) (s : State) : Out := instr c (resumable c rs2 (scantagOp c rd rs1 rs2)) s

/-! ### ZRANGE and ZLINE (R91, R92) -/

/-- A word of memory becomes `EMPTY`; a page that takes no word names operand 2 (DESIGN CHOICE, log 18). -/
def emptyWord (c va : Nat) : Op Unit := do
  let r ← memAt c (← levelOp c) .store va
  needTag (!r.1.dev && !r.1.x) 2 Word.empty
  watchOp c va true
  writePa c r.2 Word.empty
/-- ZRANGE (R91). -/
def zrangeOp (c : Nat) (rs1 rs2 : Reg) : Op Flow := do
  need (pairReg rs1) 0x01
  needLevel c 1
  let s ← spanRegs c 0 rs1
  let n ← countOp c rs2
  spanSteer 0 s
  steer 0x04 1 n
  countOk n
  let q ← spanOf c 0 s n.int
  copyLoop c rs2 [rs1] false n.pay.toNat (fun i => do emptyWord c (← spanAddr c 0 q i)) n.pay.toNat
  return .seq
/-- ZRANGE (R91). -/
def execZrange (c : Nat) (rs1 rs2 : Reg) (s : State) : Out := instr c (resumable c rs2 (zrangeOp c rs1 rs2)) s

/-- R92, R244: a line becomes `EMPTY`, owned by the cluster's L2 without a read of memory. -/
def zeroLine (c pa : Nat) : Op Unit := do
  drainFirst c
  let s ← get
  let n := s.build.cellOfCore c
  if (s.scratchAt n pa).isNone && !(s.cell n).l2off then
    let r := s.acquireM (c / 4) (pa / 8) true
    set r.1
    if !r.2 then stall
  l2Words c pa (List.replicate 8 Word.empty)
/-- ZLINE (R92). -/
def zlineOp (c : Nat) (rs1 : Reg) (imm : BitVec 13) : Op Flow := do
  needLevel c 1
  let b ← fixOp c 0 rs1
  steer 0x03 0 b
  let a := fixSum b imm.toInt
  need (a % 8 == 0) 0x04 (bndInfo 0)
  let r ← memAt c (← levelOp c) .store a
  needTag (!r.1.dev && !r.1.x) 2 Word.empty
  watchOp c a true
  zeroLine c r.2
  return .seq
/-- ZLINE (R92). -/
def execZline (c : Nat) (rs1 : Reg) (imm : BitVec 13) (s : State) : Out := instr c (zlineOp c rs1 imm) s

end Sys2Proof.Machine
end

