-- ==== Sys2Proof/Machine/Specials.lean ====
section
/-!
DEFINITION. The special registers (R94, R101, R202 to R204, R229): `MFS` and `MTS`, and the rows for the writes that do more
than store: request taking (R333), DIRTY (R195), the software interrupts (R202), TLB invalidation (R223, R224) and the
collection interface (R150, R165, R172, R173).
-/
namespace Sys2Proof.Machine

/-! ### The index (R101) -/

/-- R101: the ranges of the index with their read and write levels; 4 for a register that no level writes. -/
def specIndex : List (Nat × Nat × Nat × Nat) :=
  [(0x000, 0x000, 0, 4), (0x001, 0x001, 0, 1), (0x002, 0x002, 1, 3), (0x003, 0x003, 1, 2), (0x004, 0x004, 0, 2),
   (0x005, 0x006, 0, 3), (0x007, 0x009, 0, 4), (0x00A, 0x00B, 1, 1), (0x00C, 0x00D, 1, 2), (0x010, 0x012, 0, 1),
   (0x018, 0x01F, 0, 1), (0x020, 0x024, 1, 1), (0x028, 0x02C, 2, 2), (0x030, 0x034, 3, 3), (0x038, 0x038, 1, 1),
   (0x039, 0x039, 2, 2), (0x03A, 0x03A, 3, 3), (0x03B, 0x03B, 1, 1), (0x03C, 0x03C, 2, 2), (0x03D, 0x03D, 3, 3),
   (0x040, 0x047, 2, 2), (0x050, 0x057, 1, 2), (0x060, 0x071, 2, 2), (0x080, 0x0BF, 2, 2), (0x100, 0x11F, 1, 1),
   (0x200, 0x20B, 3, 3), (0x300, 0x317, 1, 2)]
/-- R101: the read and write levels of an assigned number. -/
def specLevels (n : Nat) : Option (Nat × Nat) :=
  (specIndex.find? fun e => e.1 ≤ n && n ≤ e.2.1).map fun e => e.2.2

/-! ### The collection interface (R150, R172, R173) -/

/-- R173: the bits of a collection register. -/
def rkMask (n : Nat) : B64 :=
  match n with
  | 0x300 => 0x003FFFFFFFFF0000
  | 0x301 | 0x302 => 0x7FFFFF
  | 0x303 | 0x305 | 0x308 => 0x003FFFFFFFFFFFFF
  | 0x304 => 0x003FFFFFFFFFFE00
  | 0x306 => 0x003FFFFFFFFFFFF8
  | 0x307 => 0xFFFFFFFF
  | 0x30B | 0x30C | 0x30D | 0x30E => 0x007FFFFF007FFFFF
  | _ => 0xFFFFFFFFFFFFFFFF
/-- R173: RKSTAT. -/
def Rk.stat (r : Rk) : B64 :=
  BitVec.ofNat 64 (r.phase % 4 + b2n r.young * 4 + b2n r.clean * 8 + b2n r.plan * 16 + b2n r.defer * 32 + r.err % 16 * 2 ^ 12)
/-- R150, R151, R173: a collection register as core `c` reads it; its reset value where the core holds no partition. -/
def State.rkRead (s : State) (c n : Nat) : B64 :=
  match s.rkOn c with
  | none => if n == 0x30A then 8 else 0
  | some (p, side, r) =>
    if (s.part p).paired && (s.core c).level ≤ 1 && (n == 0x30A || 0x30F ≤ n) then 0
    else match n with
      | 0x309 => BitVec.ofNat 64 (r.req % 16)
      | 0x30A => ({ r with defer := r.flipPend && s.deferring p side } : Rk).stat
      | 0x316 => 0
      | _ => Tab.get (fun _ => 0) r.reg n
/-- R150: a request that is not accepted. -/
def Rk.refuse (r : Rk) (e : Nat) : Rk := { r with err := e, req := 0, plan := false, flipPend := false, defer := false }
/-- R150: a write of RKREQ.OP. OP 0 is no request: a pending one, the plan and ERR stay (DESIGN CHOICE, log 50). -/
def Rk.request (r : Rk) (op : Nat) : Rk :=
  match op with
  | 0 => r
  | 1 | 2 => if r.phase == 0 then { r with req := op, err := 0 } else r.refuse 1
  | 3 => if r.phase == 2 then { r with req := 3, err := 0, plan := true, flipPend := false } else r.refuse 1
  | _ => r.refuse 1
/-- R172: the registers that set up the heap are open. -/
def Rk.open_ (r : Rk) : Bool := r.phase == 0 && r.clean && r.req == 0
/-- R172, R173: a write of a collection register other than RKREQ and RKPIN. -/
def Rk.put (r : Rk) (n : Nat) (v : B64) : Rk :=
  let set := fun (x : B64) => { r with reg := Tab.set (fun _ => 0) r.reg n x }
  if n ≤ 0x308 then (if r.open_ then set (v &&& rkMask n) else { r with err := 2 })
  else if 0x30B ≤ n && n ≤ 0x30E then (if r.phase == 2 then set (v &&& rkMask n) else { r with err := 2 })
  else if (0x30F ≤ n && n ≤ 0x315) || n == 0x317 then (if v == 0 then set 0 else r)
  else r
/-- R165: RKPIN sets or clears MARK of the object it names, in phase IDLE. -/
def State.rkPin (s : State) (p side : Nat) (v : B64) : State :=
  if (s.rk p side).phase != 0 then s.modRk p side fun r => { r with err := 1 }
  else
    let x := s.agentAddr p side .store (v.toNat % 2 ^ 54)
    match x.1 with
    | none => x.2
    | some pa =>
      let w := x.2.agentRead pa
      if w.1.isHdr then w.2.agentWrite pa ⟨w.1.tag, putBit w.1.pay 2 (!v.getLsbD 63)⟩ else w.2
/-- R173: a write of a collection register by core `c`. -/
def State.rkWrite (s : State) (c n : Nat) (v : B64) : State :=
  match s.rkOn c with
  | none => s
  | some (p, side, _) =>
    if n == 0x309 then s.modRk p side fun r => r.request (fld v 3 0)
    else if n == 0x316 then s.rkPin p side v
    else s.modRk p side fun r => r.put n v

/-! ### TLB invalidation requests (R223, R224) -/

/-- R224: requests of a list that are of single pages, and of ASIDs. -/
def Shoot.isPage : Shoot → Bool | .page _ _ => true | _ => false
def Shoot.isAsid : Shoot → Bool | .asid _ => true | _ => false
/-- R224: a request that the list covers. -/
def shootCovered (l : List Shoot) (q : Shoot) : Bool :=
  l.contains .all || l.contains q || (match q with | .page a _ => l.contains (.asid a) | _ => false)
/-- R224: an ASID request enters; true where the list became one OP 3. -/
def shootAsid (l : List Shoot) (a : Nat) : List Shoot × Bool :=
  let r := l.filter fun q => match q with | .page b _ => b != a | _ => true
  if (r.filter Shoot.isAsid).length < 8 then (r ++ [.asid a], false) else ([.all], true)
/-- R224: a request enters a list; true where it was promoted. -/
def shootAdd (l : List Shoot) (q : Shoot) : List Shoot × Bool :=
  if shootCovered l q then (l, false)
  else match q with
    | .all => ([.all], false)
    | .asid a => shootAsid l a
    | .page a _ =>
      if (l.filter Shoot.isPage).length < 56 then (l ++ [q], false)
      else ((shootAsid l a).1, true)
/-- R223, R229: a write of TLBREQ by core `c`. -/
def State.tlbRequest (s : State) (c : Nat) (v : B64) : State :=
  let k := s.core c
  let n := s.build.cellOfCore c
  let asid := (k.spv 0x042).toNat % 65536
  let go := fun (q : Shoot) =>
    let r := shootAdd (s.cell n).shoot q
    (s.modCell n fun k => { k with shoot := r.1 }).modCore c fun k =>
      k.setSp 0x044 (Word.nat ((s.frame + 1) % 2 ^ 48 * 2 ^ 16 + b2n r.2 * 2 + 1))
  match fld v 63 62 with
  | 0 => s
  | 1 => go (.page asid (fld v 53 0 / 512))
  | 2 => go (.asid asid)
  | _ => go .all
/-! ### MFS -/

/-- R94: what `MFS` returns for a register other than RQTAKE and RQPEEK. -/
def State.specRead (s : State) (c n : Nat) : Word :=
  let k := s.core c
  let m := c / 4
  let cs := fun (lo : Nat) => Word.nat (((s.clu m).csWord (fld (k.spv 0x208) 12 0)).toNat / 2 ^ lo % 2 ^ 32)
  match n with
  | 0x000 => Word.fix (s.coreId c)
  | 0x005 => Word.nat (if s.pairedOn c && k.level ≤ 1 then 0 else s.goodColour c)
  | 0x006 => Word.fix (s.cycleRead c)
  | 0x007 => Word.fix (s.framenoRead c)
  | 0x00A => Word.fix (k.spillPtr (bankOf k.level))
  | 0x00B => Word.fix (k.saveHead (bankOf k.level))
  | 0x043 | 0x055 | 0x056 => Word.nat 0
  | 0x044 => Word.fix (s.tlbStat (k.spv n))
  | 0x050 => Word.fix (s.ipend c)
  | 0x057 => Word.nat (s.ifirst c)
  | 0x061 => Word.nat (b2n (k.twUse.getLsbD 2) * 8 + b2n (k.twUse.getLsbD 1) * 4 + k.level)
  | 0x209 => cs 0
  | 0x20A => cs 32
  | 0x20B => cs 64
  | _ =>
    if specWhole n then k.sp n
    else if specLink n then k.sp n
    else if 0x200 ≤ n && n ≤ 0x207 then Word.fix (k.preg (n - 0x200 + 248)).pay
    else if 0x300 ≤ n then Word.fix (s.rkRead c n)
    else Word.fix (k.spv n)

/-- R333: the pointer to the record of a request. -/
def State.recordPtr (s : State) (c r : Nat) : Word :=
  match s.req r with
  | some q => s.goodPtr c tyVEC ((s.part q.part).arenaVa + q.recOff.getD 0)
  | none => Word.nil

/-- R39, R333: `MFS` of RQTAKE. -/
def rqtakeOp (c : Nat) (rd : Reg) : Op Flow := do
  let s ← get
  match (s.core c).part with
  | none => throw (.wait (.rqtake rd))
  | some p =>
    let side := s.sideOfCore c p
    match (s.part p).dlv side with
    | [] => throw (.wait (.rqtake rd))
    | r :: t =>
      let arr := ((s.req r).map Req.arr).getD 0
      let st := ((s.req r).map Req.stamp).getD 0
      modify fun s => s.modPart p fun q =>
        { q.setDlv side t with rqFrm := Tab.set (fun _ => 0) q.rqFrm side (arr + 1), rqCyc := Tab.set (fun _ => 0) q.rqCyc side st }
      if (s.part p).paired then modify fun s => s.applySeeds p side arr
      putOp c rd (s.recordPtr c r)
      return .seq
/-- R39, R333: `MFS` of RQPEEK. -/
def rqpeekOp (c : Nat) (rd : Reg) : Op Flow := do
  let s ← get
  need (!s.pairedOn c) 0x0B
  let d := match (s.core c).part with | some p => (s.part p).dlv (s.sideOfCore c p) | none => []
  putOp c rd (match d with | r :: _ => s.recordPtr c r | [] => Word.nil)
  return .seq
/-- MFS (R94). -/
def mfsOp (c : Nat) (rd : Reg) (n : Nat) : Op Flow := do
  match specLevels n with
  | none => trapOp 0x01
  | some (lr, _) =>
    needLevel c lr
    if n == 0x008 then rqtakeOp c rd
    else if n == 0x009 then rqpeekOp c rd
    else
      if 0x100 ≤ n && n ≤ 0x11F then
        loadX c
        modOp c Core.finishInline
      putOp c rd ((← get).specRead c n)
      return .seq
/-- MFS (R94). -/
def execMfs (c : Nat) (rd : Reg) (n : BitVec 12) (s : State) : Out := instr c (mfsOp c rd n.toNat) s
/-- RQTAKE (R333). -/
def execRqtake (c : Nat) (rd : Reg) (s : State) : Out := instr c (mfsOp c rd 0x008) s
/-- RQPEEK (R333). -/
def execRqpeek (c : Nat) (rd : Reg) (s : State) : Out := instr c (mfsOp c rd 0x009) s
/-- REQUEST_DELIVERED_WAKE (R39): a waiting `MFS` of RQTAKE is executed again. -/
def execRequestDeliveredWake (c : Nat) (s : State) : Out :=
  onCore s c (match (s.core c).wait with
    | .rqtake rd => s.issue c false false (mfsOp c rd 0x008)
    | _ => s)

/-! ### MTS -/

/-- R195: a write of DIRTY: each group whose bit goes from 1 to 0 is stored into its base copy. -/
def dirtyWriteOp (c : Nat) (v : B64) : Op Unit := do
  let k ← coreOp c
  match (← get).recordOf c with
  | some b =>
    drainFirst c
    for g in [0, 1, 2, 3] do
      if k.dirtyBits.testBit g && !v.getLsbD g then storeBase c b g
  | none => pure ()
  modOp c fun k => k.setDirty (fld v 3 0)

/-- R101: the PSTAT bits that a level writes. -/
def pstatMask (lvl : Nat) : B64 := if lvl ≤ 1 then 0x20 else 0x34

/-- A special register takes a value that passed the checks. -/
def specWrite (c n : Nat) (w : Word) : Op Unit := do
  let v := w.pay
  let k ← coreOp c
  match n with
  | 0x001 =>
    let m := pstatMask k.level
    modOp c fun k => k.setSpv 0x001 ((k.spv 0x001 &&& ~~~m) ||| (v &&& m))
  | 0x002 =>
    need (v.toNat ≤ 11) 0x01
    modOp c fun k => (k.setCwp v.toNat).setWindow v.toNat { k.window v.toNat with res := true, held := false }
  | 0x003 => dirtyWriteOp c v
  | 0x004 => modOp c fun k => (k.setSpv n v).dirty 1
  | 0x005 =>
    modify fun s => match s.rkOn c with
      | some (p, side, _) => s.modRk p side fun r => { r with col := v.toNat % 4 }
      | none => s
  | 0x006 => modify fun s => s.modCore c fun k => { k with cycOff := v - BitVec.ofNat 64 (s.clock * 8) }
  | 0x00A => modOp c fun k => k.setSpillPtr (bankOf k.level) v
  | 0x00B => modOp c fun k => k.setSaveHead (bankOf k.level) v
  | 0x043 => modify fun s => s.tlbRequest c v
  | 0x044 => pure ()
  | 0x055 => modOp c fun k => { k with swInt := k.swInt &&& ~~~((v >>> 56).setWidth 8) }
  | 0x056 => modOp c fun k => { k with swInt := k.swInt ||| (v >>> 56).setWidth 8 }
  | 0x050 | 0x057 | 0x061 => pure ()
  | _ =>
    if 0x100 ≤ n && n ≤ 0x11F then
      loadX c
      modOp c fun k => (k.finishInline.setSp n w).dirty 8
    else if specWhole n then modOp c fun k => k.setSp n w
    else if 0x200 ≤ n && n ≤ 0x207 then modOp c fun k => (k.setPreg (n - 0x200 + 248) w).dirty 1
    else if 0x300 ≤ n then modify fun s => s.rkWrite c n v
    else
      modOp c fun k => (k.setSp n ⟨w.tag, v &&& specMask n⟩).dirty
        (if 0x010 ≤ n && n ≤ 0x012 then 4 else if 0x018 ≤ n && n ≤ 0x01F then 1 else 0)

/-- R94, R181, R229: the checks of `MTS` on the word. -/
def specCheck (c n : Nat) (w : Word) : Op Unit := do
  if specWhole n then pure ()
  else if specLink n then
    needTag w.isLink 0 w
    let l := (← coreOp c).level
    needTag (match n with
      | 0x011 | 0x012 => w.sub == l
      | 0x038 | 0x039 | 0x03A => w.sub == n - 0x037 && !w.pay.getLsbD 54 && w.pay.toNat % 4 == 0
      | _ => true) 0 w
  else
    needTag w.isFix 0 w
    steer 0x0B 0 w
    need (!(0x040 ≤ n && n ≤ 0x047) || n == 0x044 || transRegOk n w.pay) 0x01
/-- MTS (R94). -/
def mtsOp (c : Nat) (rs1 : Reg) (n : Nat) : Op Flow := do
  match specLevels n with
  | none => trapOp 0x01
  | some (_, lw) =>
    needLevel c lw
    need (!(0x209 ≤ n && n ≤ 0x20B)) 0x0B
    let w ← regOp c rs1
    specCheck c n w
    specWrite c n w
    return .seq
/-- MTS (R94). -/
def execMts (c : Nat) (rs1 : Reg) (n : BitVec 12) (s : State) : Out := instr c (mtsOp c rs1 n.toNat) s
/-- DIRTY_WRITE (R195). -/
def execDirtyWrite (c : Nat) (rs1 : Reg) (s : State) : Out := instr c (mtsOp c rs1 0x003) s
/-- ICLR (R202). -/
def execIclr (c : Nat) (rs1 : Reg) (s : State) : Out := instr c (mtsOp c rs1 0x055) s
/-- ISET (R202). -/
def execIset (c : Nat) (rs1 : Reg) (s : State) : Out := instr c (mtsOp c rs1 0x056) s

/-- A row that is an `MTS` whose word holds one value of a field; another value is the `MTS` it is. -/
def mtsRow (c : Nat) (rs1 : Reg) (n : Nat) (s : State) : Out := instr c (mtsOp c rs1 n) s
/-- TLB_INVALIDATE_PAGE (R223): TLBREQ with OP 1. -/
def execTlbInvalidatePage (c : Nat) (rs1 : Reg) (s : State) : Out := mtsRow c rs1 0x043 s
/-- TLB_INVALIDATE_ASID (R223): TLBREQ with OP 2. -/
def execTlbInvalidateAsid (c : Nat) (rs1 : Reg) (s : State) : Out := mtsRow c rs1 0x043 s
/-- TLB_INVALIDATE_ALL (R223): TLBREQ with OP 3. -/
def execTlbInvalidateAll (c : Nat) (rs1 : Reg) (s : State) : Out := mtsRow c rs1 0x043 s
/-- MARK_FULL (R150): RKREQ with OP 1. -/
def execMarkFull (c : Nat) (rs1 : Reg) (s : State) : Out := mtsRow c rs1 0x309 s
/-- MARK_YOUNG (R150): RKREQ with OP 2. -/
def execMarkYoung (c : Nat) (rs1 : Reg) (s : State) : Out := mtsRow c rs1 0x309 s
/-- RELOCATE (R150): RKREQ with OP 3. -/
def execRelocate (c : Nat) (rs1 : Reg) (s : State) : Out := mtsRow c rs1 0x309 s
/-- RKPIN (R165). -/
def execRkpin (c : Nat) (rs1 : Reg) (s : State) : Out := mtsRow c rs1 0x316 s
/-- RAKE_COUNTER_CLEAR (R173): a write of one of specials 0x30F to 0x315 and 0x317. -/
def execRakeCounterClear (c : Nat) (rs1 : Reg) (n : BitVec 12) (s : State) : Out := mtsRow c rs1 n.toNat s

end Sys2Proof.Machine
end

