-- ==== Sys2Proof/Machine/Traps.lean ====
section
/-!
DEFINITION. Traps and interrupts that reach a core from outside an instruction (R178, R179, R187), the timer (R187), the
background spills (R193) and the retry of a waiting load (R156).
-/
namespace Sys2Proof.Machine

/-- R177: the causes of synchronous traps. -/
def trapCause (c : Nat) : Bool :=
  (1 ≤ c && c ≤ 0x0B) || (0x10 ≤ c && c ≤ 0x14) || c == 0x19 || c == 0x1A || (0x20 ≤ c && c ≤ 0x22)
    || (0x28 ≤ c && c ≤ 0x2A) || c == 0x38
/-- R178 order 5: the causes of fetch faults. -/
def fetchCause (c : Nat) : Bool := (0x10 ≤ c && c ≤ 0x14) || c == 0x19 || c == 0x1A
/-- R179, R185: a synchronous trap of the instruction at the PC; a fetch fault at a vector entry locks the core up. R118, R128:
role 0x0D of cause 0x05 is a sequencer that met a secret condition or address, which sets CLU_CSERR.SFLOW. -/
def trapEntry (c cause : Nat) (info : B64) (s : State) : State :=
  let k := s.core c
  if !s.canIssue c || !trapCause cause then s
  else if k.stepPend then s.stepTrap c
  else if k.entering && fetchCause cause then s.lockup c 1 (fld (k.spv (spcN k.level + 2)) 5 0) k.pc
  else
    let s := if cause == 0x05 && fld info 15 8 == 0x0D then
        s.wr .cluCserr (c / 4) 0 (s.rd .cluCserr (c / 4) ||| 0x20000000) else s
    s.trapHere c cause info (bankOf k.level)
/-- TRAP_ENTRY (R179). -/
def execTrapEntry (c : Nat) (cause : BitVec 6) (info : BitVec 64) (s : State) : Out :=
  onCore s c (trapEntry c cause.toNat info s)

/-- DEDUCED from R120, R187 and R303 (log 20): the core is inside an instruction that waits for a request, a twin, a job or
the barrier, which only a tick cancels, so it stands at no instruction boundary. -/
def Core.waits (k : Core) : Bool := match k.wait with | .none | .memory => false | _ => true
/-- R120: a resuming sequence stands stopped: no trap entry comes before it goes on. -/
def Core.ucStopped (k : Core) : Bool := k.pbit 3 && k.ucResume != 0
/-- R187, R178: the interrupt due at core `c` is taken, after a single-step trap that waits; the timer's pending bit clears when
it is. -/
def interrupt (c : Nat) (s : State) : State :=
  if !s.canIssue c || (s.core c).waits || (s.core c).ucStopped then s
  else if (s.core c).stepPend then s.stepTrap c
  else match s.dueInt c with
    | none => s
    | some (x, cause, src) =>
      let r := s.tryTrap c x cause (BitVec.ofNat 64 src) (s.core c).pc
      if r.2 == .taken && cause == 0x31 then r.1.modCore c fun k => { k with tmrPend := false } else r.1
/-- INTERRUPT (R187). -/
def execInterrupt (c : Nat) (s : State) : Out := onCore s c (interrupt c s)

/-- R187: a core whose strand counts down its timer: it holds the core. -/
def State.holdsCore (s : State) (c : Nat) : Bool :=
  let k := s.core c
  !k.locked && k.switched && (k.part.isSome || k.entry == 0xF2) && (s.cell (s.build.cellOfCore c)).st == 2
/-- TIMER_EXPIRY (R187): TMRCNT steps from 1 to 0. -/
def execTimerExpiry (c : Nat) (s : State) : Out :=
  onCore s c (if (s.core c).spv 0x054 == 1 then s.modCore c fun k => { k.setSpv 0x054 0 with tmrPend := true } else s)

/-- R193: the background engine spills the oldest resident frame while fewer than two windows beyond CWP are free; a spill
that faults is held. -/
def backgroundSpill (c : Nat) (s : State) : State :=
  let k := s.core c
  if !s.canIssue c || !((k.window (k.cwp + 1)).res || (k.window (k.cwp + 2)).res) then s
  else match (List.range 11).find? fun i => (k.window (k.cwp + 1 + i)).res with
    | some i => ((spillWindow c ((k.cwp + 1 + i) % 12)).run.run s).2
    | none => s
/-- BACKGROUND_SPILL (R193). -/
def execBackgroundSpill (c : Nat) (s : State) : Out := onCore s c (backgroundSpill c s)

/-- R156: a load that waits at a line boundary of the Rake's progress is executed again. -/
def barrierRetry (c : Nat) (s : State) : Out :=
  match (s.core c).wait with
  | .barrier (.ld _ rd rs1 imm) => execLd c rd rs1 imm s
  | .barrier (.car _ rd rs1) => execCar c rd rs1 s
  | .barrier (.cdr _ rd rs1) => execCdr c rd rs1 s
  | .barrier (.vref _ rd rs1 rs2) => execVref c rd rs1 rs2 s
  | .barrier (.blkcopy _ rd rs1 rs2) => execBlkcopy c rd rs1 rs2 s
  | .barrier (.jmpr _ rs1) => execJmpr c rs1 s
  | .barrier (.callr _ rs1) => execCallr c rs1 s
  | _ => .next s
/-- BARRIER_RETRY (R156). -/
def execBarrierRetry (c : Nat) (s : State) : Out :=
  if c < s.build.cores then barrierRetry c s else .next s

end Sys2Proof.Machine
end

