-- ==== Sys2Proof/Machine/Coproc.lean ====
section
/-!
DEFINITION. The Graft instructions that act at once (R95, R297 to R300): `XPUT` and `XGET`, the inline operations, the key
operations and their use by twins (R40).
-/
namespace Sys2Proof.Machine

/-! ### Common steps (R95, R297, R304) -/

/-- R95, R297, R304: a Graft instruction: the coprocessor is in service where it is needed, group X is loaded and dirty. -/
def graft (c : Nat) (unit : Bool) : Op Unit := do
  need (!unit || ((← get).rd .cpxCtl (c / 4)).getLsbD 0) 0x28
  loadX c
  modOp c fun k => k.dirty 8
/-- A CX register. -/
def cxOp (c n : Nat) : Op Word := do return (← coreOp c).sp (cxN n)
/-- R304: SINFO of trap 0x29. -/
def cpxInfo (reason fn : Nat) : Nat := reason * 2 ^ 60 + fn % 256
/-- R304: trap 0x29 unless `b`. -/
def cpxNeed (b : Bool) (reason fn : Nat) : Op Unit := need b 0x29 (cpxInfo reason fn)
/-- R297, R138: a parameter register that an operation reads is public. -/
def paramOp (w : Word) (o : Nat) : Op Unit := steer 0x0C o w
/-- R289: a handle, checked for a use; its material and policy. `e` is what the read of its slot meets (R293). -/
def useHandle (c : Nat) (h : Word) (ty : Nat → Bool) (right : Nat) (e : SlotEcc := .good) : Op (Nat × B64) := do
  let s ← get
  let r := handleCheck s (s.core c).part h.pay ty right e
  set r.2
  if r.1 != 0 then throw (.trap 0x2A (handleInfo r.1 h.pay) 2)
  let k := s.slot (hSlot h.pay)
  return (k.mat, k.pol)
/-- Free bytes, for a draw with no instance to draw from. -/
def freshBytes : Nat → State → Bytes × State
  | 0, s => ([], s)
  | n + 1, s =>
    let r := s.fresh
    let t := freshBytes n r.2
    (bytesLE 8 r.1.toNat ++ t.1, t.2)
/-- R309: `n` bytes from the instance of the core's partition; trap 0x29 with REASON 6 at its reseed limit. -/
def drawOp (c n fn : Nat) : Op Bytes := do
  let s ← get
  match s.rkOn c with
  | none =>
    let r := freshBytes ((n + 7) / 8) s
    set r.2
    return r.1.take n
  | some (p, side, _) =>
    match s.drawBytes p side (n / 65536 + 1) n with
    | some (b, t) =>
      set t
      return b
    | none =>
      set (s.reseedLimit p)
      trapOp 0x29 (cpxInfo 6 fn)

/-! ### XPUT and XGET (R298) -/

/-- XPUT (R298). -/
def xputOp (c n : Nat) (rs1 : Reg) : Op Flow := do
  graft c false
  let w ← regOp c rs1
  modOp c fun k => k.finishInline.setSp (cxN n) w
  return .seq
/-- XPUT (R298). -/
def execXput (c : Nat) (n : BitVec 5) (rs1 : Reg) (s : State) : Out := instr c (xputOp c n.toNat rs1) s
/-- XGET (R298): it waits for an inline operation that writes the register. -/
def xgetOp (c : Nat) (rd : Reg) (n : Nat) : Op Flow := do
  graft c false
  match (← coreOp c).inlineOp with
  | some o => if o.results.any fun e => e.1 == n then stall
  | none => pure ()
  putOp c rd (← cxOp c n)
  return .seq
/-- XGET (R298). -/
def execXget (c : Nat) (rd : Reg) (n : BitVec 5) (s : State) : Out := instr c (xgetOp c rd n.toNat) s

/-! ### Inline operations (R300) -/

/-- R300: an operand word of an inline operation. -/
def cxWord (c n : Nat) : Op Word := do
  let w ← cxOp c n
  needTag w.isWordOp 3 w
  return w
def cxWords (c : Nat) : List Nat → Op (List Word)
  | [] => pure []
  | n :: t => do
    let w ← cxWord c n
    let r ← cxWords c t
    return w :: r
/-- R300: two registers as a block, the lower one first. -/
def blockBytes (ws : List Word) : Bytes := ws.flatMap fun w => bytesLE 8 w.pay.toNat
/-- A block as `RAW` words. -/
def rawWords (b : Bytes) (sec : Bool) : List Word := (chunk 8 b).map fun x => Word.raw (BitVec.ofNat 64 (natLE x)) sec
/-- R300: an inline operation is issued with its results from register `n` on. -/
def inlineTo (c n : Nat) (ws : List Word) : Op Flow := do
  modOp c fun k => { k with inlineOp := some ⟨(List.range ws.length).map fun i => (n + i, ws.getD i Word.empty)⟩ }
  return .seq
/-- R300: an inline operation begins after the one in flight. -/
def inlineBegin (c : Nat) : Op Unit := do
  graft c true
  modOp c Core.finishInline
/-- R286, R288: rights by bit. -/
def rSign : Nat := 1
def rDerive : Nat := 2
def rEnc : Nat := 4
def rDec : Nat := 8
def rWrap : Nat := 16
def rUnwrap : Nat := 32
def rRead : Nat := 64
def rExport : Nat := 128
/-- An AES type. -/
def aesType (t : Nat) : Bool := t == 1 || t == 2
/-- R297: the handle in CX `n`. -/
def cxHandle (c n : Nat) (ty : Nat → Bool) (right : Nat) : Op (Nat × B64) := do
  let h ← cxOp c n
  needTag (h.ty == tyHANDLE) 3 h
  paramOp h 3
  useHandle c h ty right
/-- AESENC and AESDEC (R300). -/
def aesInline (c : Nat) (enc : Bool) : Op Flow := do
  inlineBegin c
  let h ← cxOp c 0
  needTag (h.ty == tyHANDLE) 3 h
  paramOp h 3
  let ws ← cxWords c [8, 9]
  let k ← useHandle c h aesType (if enc then rEnc else rDec)
  let key := aesKeyOf (polType k.2) k.1
  inlineTo c 10 (rawWords (if enc then aesEnc key (blockBytes ws) else aesDec key (blockBytes ws)) (!enc))
/-- AESENC (R300). -/
def execAesenc (c : Nat) (s : State) : Out := instr c (aesInline c true) s
/-- AESDEC (R300). -/
def execAesdec (c : Nat) (s : State) : Out := instr c (aesInline c false) s
/-- R300: a register as two 32-bit words, the first in the upper half. -/
def halves (w : Word) : List (BitVec 32) := [(w.pay >>> 32).setWidth 32, w.pay.setWidth 32]
/-- Pairs of 32-bit words as payloads. -/
def joinHalves : List (BitVec 32) → List B64
  | a :: b :: t => (a ++ b) :: joinHalves t
  | _ => []
/-- SHA256C (R300). -/
def sha256cOp (c : Nat) : Op Flow := do
  inlineBegin c
  let st ← cxWords c [16, 17, 18, 19]
  let blk ← cxWords c [24, 25, 26, 27, 28, 29, 30, 31]
  let sec := (st ++ blk).any Word.sec
  inlineTo c 16 ((joinHalves (sha256Compress (st.flatMap halves) (blk.flatMap halves))).map fun p => Word.raw p sec)
/-- SHA256C (R300). -/
def execSha256c (c : Nat) (s : State) : Out := instr c (sha256cOp c) s
/-- GMUL (R300). -/
def gmulOp (c : Nat) : Op Flow := do
  inlineBegin c
  let a ← cxWords c [8, 9]
  let b ← cxWords c [10, 11]
  let r := gmulNat (natBE (blockBytes a)) (natBE (blockBytes b))
  inlineTo c 12 (rawWords (bytesBE 16 r) ((a ++ b).any Word.sec))
/-- GMUL (R300). -/
def execGmul (c : Nat) (s : State) : Out := instr c (gmulOp c) s
/-- RNG (R300). -/
def rngOp (c : Nat) : Op Flow := do
  inlineBegin c
  let b ← drawOp c 64 0x05
  inlineTo c 8 (rawWords b true)
/-- RNG (R300). -/
def execRng (c : Nat) (s : State) : Out := instr c (rngOp c) s
/-- XCLR (R300). -/
def xclrOp (c : Nat) : Op Flow := do
  inlineBegin c
  inlineTo c 0 (List.replicate 32 Word.empty)
/-- XCLR (R300). -/
def execXclr (c : Nat) (s : State) : Out := instr c (xclrOp c) s
/-- INLINE_OPERATION_COMPLETE (R300). -/
def execInlineOperationComplete (c : Nat) (s : State) : Out := onCore s c (s.modCore c Core.finishInline)

/-! ### Key changes of twins (R40) -/

/-- R299: KGEN's effect: the material is drawn from the instance of every live side, the key created once. -/
def kgenApply (p side : Nat) (w : Word) (s : State) : (Option Word × Nat) × State :=
  let t := fld w.pay 7 0
  let use := Nat.land (fld w.pay 15 8) ((typeRights t).getD 0)
  if (freeSlot s (s.keyBase p) (s.keyCount p)).isNone then ((none, 3), s)
  else
    let others := (s.part p).live.filter (· != side)
    match s.drawKey p side t with
    | none => ((none, 6), s.reseedLimit p)
    | some (mat, s) =>
      let s := others.foldl (fun s x => match s.drawKey p x t with | some r => r.2 | none => s) s
      match s.createKey p t use (fld w.pay 39 16) mat with
      | some (i, s) => ((some (mkWord tyHANDLE false 0 (mkHandle use p (polGen (s.slot i).pol) i)), 0), s)
      | none => ((none, 3), s)
/-- R299: KDEL's effect. -/
def kdelApply (w : Word) (s : State) : (Option Word × Nat) × State := ((none, 0), s.destroySlot (hSlot w.pay))
/-- A key change by its function value. -/
def keyChange (p side fn : Nat) (ops : List Word) (s : State) : (Option Word × Nat) × State :=
  if fn == 0x03 then kgenApply p side (ops.headD Word.empty) s else kdelApply (ops.headD Word.empty) s
/-- R40: the twin that waited receives the result, where its core still waits; else the result stays for its next execution. -/
def State.twinDeliver (s : State) (p : Nat) : State :=
  match (s.part p).keyWait with
  | none => s
  | some w =>
    let k := s.core w.core
    match w.res, k.wait with
    | some r, .twinKey rd =>
      if k.part == some p && s.sideOfCore w.core p == w.side then
        let s := s.modPart p fun q => { q with keyWait := none }
        if r.2 == 0 then
          (match r.1 with | some x => s.modCore w.core fun k => k.put rd x | none => s).retire w.core k .seq
        else s.trapHere w.core 0x29 (BitVec.ofNat 64 (cpxInfo r.2 w.fn)) 2
      else s
    | _, _ => s
/-- R302: a word written by a coprocessor of cell `n`. -/
def State.jobWrite (s : State) (n pa : Nat) (w : Word) : State :=
  match s.scratchAt n pa with
  | some (m, o) => s.setScratch m o w
  | none => (s.calm pa).agentWrite pa w
/-- R302, R307: a job finishes: its output is in memory, its units are free. -/
def State.jobFinish (s : State) (j : Nat) (q : Job) : State :=
  let n := s.build.cellOfClu q.clu
  let s := q.out.foldl (fun s e => s.jobWrite n e.1 e.2) s
  let s := (s.setJob j (some { q with st := .finished, out := [], units := [], bir := none })).modClu q.clu fun k =>
    { k with jobrun := k.jobrun.filter (· != j), jobq := k.jobq.filter (· != j) }
  let s := s.inc32 .cpxJobs q.clu
  if 24 < q.attempts then s.inc32 .cpxExt q.clu else s
/-- R40: a job by which partition code changes a key, not finished and not ended by a word that it could not read. -/
def Job.changesKey (q : Job) : Bool := q.fn == 0x0C && q.st != .finished && q.poison.isNone && q.badWord.isNone
/-- R40: the oldest such job of a twin. -/
def State.twinJob (s : State) (p side : Nat) : Option (Nat × Job) :=
  (s.jobs.filterMap fun e => match e.2 with
    | some x => if x.part == p && x.side == side && x.changesKey then some (e.1, x) else none
    | none => none).foldl (fun o e => match o with
      | some y => if y.1 ≤ e.1 then o else some e
      | none => some e) none
/-- R40: one twin's next key change is the unwrap `j`, the other's an `XKEY`: neither is applied. -/
def State.mixedChange (s : State) (j : Nat) (q : Job) : State :=
  (s.pairMismatch q.part 2).jobFinish j { q with fail := 10, newKey := none }
/-- R40: the same where the other twin waits in its `XKEY`. -/
def State.twinMixed (s : State) (j : Nat) (q : Job) : State :=
  ((s.mixedChange j q).modPart q.part fun p => { p with keyWait := p.keyWait.map fun w => { w with res := some (none, 10) } }).twinDeliver
    q.part
/-- A result of a key change at the instruction that asked for it. -/
def keyResult (c fn : Nat) (rd : Reg) (r : Option Word × Nat) : Op Flow := do
  cpxNeed (r.2 == 0) r.2 fn
  match r.1 with
  | some w => putOp c rd w
  | none => pure ()
  return .seq
/-- R40: the second twin's operation. -/
def twinSecond (c p side fn : Nat) (ops : List Word) (rd : Reg) (w : KeyWait) : Op Flow := do
  let s ← get
  let same := w.fn == fn && w.operands == ops
  let r := if same then keyChange p side fn ops s else ((none, 10), s.pairMismatch p 2)
  set ((r.2.modPart p fun q => { q with keyWait := some { w with res := some r.1 } }).twinDeliver p)
  keyResult c fn rd r.1
/-- R40: the result of this key change that the other twin has brought about meanwhile. -/
def keyPending (c fn : Nat) (ops : List Word) : Op (Option (Option Word × Nat)) := do
  let s ← get
  match s.rkOn c with
  | none => return none
  | some (p, side, _) =>
    match (s.part p).keyWait with
    | some w => return (if w.side == side && w.fn == fn && w.operands == ops then w.res else none)
    | none => return none
/-- R40: a key change by an instruction of core `c`. -/
def keyChangeOp (c fn : Nat) (ops : List Word) (rd : Reg) : Op Flow := do
  let s ← get
  match s.rkOn c with
  | none => trapOp 0x29 (cpxInfo 3 fn)
  | some (p, side, _) =>
    let q := s.part p
    if !q.paired || q.lost != 0 then
      let r := keyChange p side fn ops s
      set r.2
      keyResult c fn rd r.1
    else
      match q.keyWait with
      | none =>
        match (if (s.twinJob p side).isNone then s.twinJob p (1 - side) else none) with
        | some (j, x) =>
          if x.st == .computed then
            set (s.mixedChange j x)
            trapOp 0x29 (cpxInfo 10 fn)
          else stall
        | none =>
          set (s.modPart p fun q => { q with keyWait := some { side := side, core := c, fn := fn, operands := ops, rd := rd } })
          throw (.wait (.twinKey rd))
      | some w =>
        if w.side == side then
          match w.res with
          | some r =>
            set (s.modPart p fun q => { q with keyWait := none })
            keyResult c fn rd r
          | none =>
            set (s.modPart p fun q => { q with keyWait := some { w with core := c } })
            throw (.wait (.twinKey rd))
        else if w.res.isSome then stall
        else twinSecond c p side fn ops rd w
/-- R40: the operation of a twin that waited when the other was lost. -/
def twinKeyWaitApply (p : Nat) (s : State) : State :=
  let q := s.part p
  match q.keyWait with
  | some w =>
    if q.keyApply && q.degraded && w.res.isNone then
      let r := keyChange p w.side w.fn w.operands s
      (r.2.modPart p fun q => { q with keyWait := some { w with res := some r.1 }, keyApply := false }).twinDeliver p
    else s
  | none => s

/-! ### Key operations (R299) -/

/-- R299: an operand of type `HANDLE` or `FIX`. -/
def keyOperand (c o : Nat) (r : Reg) (ty : Nat) : Op Word := do
  let w ← regOp c r
  needTag (w.ty == ty) o w
  return w
/-- KOPEN (R299). -/
def kopenOp (c : Nat) (rd rs1 : Reg) : Op Flow := do
  graft c true
  let w ← keyOperand c 0 rs1 tyFIX
  paramOp w 0
  let s ← get
  let p := (s.core c).part.getD 0
  let h := mkWord tyHANDLE false 0 (s.nameHandle p w.pay.toNat)
  if 2 ^ 34 ≤ w.pay.toNat then throw (.trap 0x2A (handleInfo 1 h.pay) 2)
  let _ ← useHandle c h (fun _ => true) 0
  putOp c rd h
  return .seq
/-- KOPEN (R299). -/
def execKopen (c : Nat) (rd rs1 : Reg) (s : State) : Out := instr c (kopenOp c rd rs1) s
/-- KATT (R299). -/
def kattOp (c : Nat) (rd rs1 rs2 : Reg) : Op Flow := do
  graft c true
  let h ← keyOperand c 0 rs1 tyHANDLE
  let m ← keyOperand c 1 rs2 tyFIX
  paramOp m 1
  putOp c rd ⟨h.tag, putFld h.pay 47 40 (Nat.land (hRights h.pay) (fld m.pay 7 0))⟩
  return .seq
/-- KATT (R299). -/
def execKatt (c : Nat) (rd rs1 rs2 : Reg) (s : State) : Out := instr c (kattOp c rd rs1 rs2) s
/-- KINFO (R299). -/
def kinfoOp (c : Nat) (rd rs1 : Reg) : Op Flow := do
  graft c true
  let h ← keyOperand c 0 rs1 tyHANDLE
  let k ← useHandle c h (fun _ => true) 0
  putOp c rd (Word.nat (fld k.2 39 0))
  return .seq
/-- KINFO (R299). -/
def execKinfo (c : Nat) (rd rs1 : Reg) (s : State) : Out := instr c (kinfoOp c rd rs1) s
/-- KGEN (R299). -/
def kgenOp (c : Nat) (rd rs1 : Reg) : Op Flow := do
  graft c true
  let w ← keyOperand c 0 rs1 tyFIX
  paramOp w 0
  cpxNeed ((typeRights (fld w.pay 7 0)).isSome && fld w.pay 63 40 == 0) 1 0x03
  keyChangeOp c 0x03 [w] rd
/-- KGEN (R299). -/
def execKgen (c : Nat) (rd rs1 : Reg) (s : State) : Out := instr c (kgenOp c rd rs1) s
/-- KDEL (R299). -/
def kdelOp (c : Nat) (rs1 : Reg) : Op Flow := do
  graft c true
  let h ← keyOperand c 0 rs1 tyHANDLE
  if (← keyPending c 0x04 [h]).isNone then
    let k ← useHandle c h (fun _ => true) 0
    if hRights h.pay != polUse k.2 then throw (.trap 0x2A (handleInfo 6 h.pay) 2)
  keyChangeOp c 0x04 [h] 0
/-- KDEL (R299). -/
def execKdel (c : Nat) (rs1 : Reg) (s : State) : Out := instr c (kdelOp c rs1) s
/-- KRD (R299). -/
def krdOp (c : Nat) (rs1 : Reg) (e : SlotEcc) : Op Flow := do
  graft c true
  let h ← keyOperand c 0 rs1 tyHANDLE
  let k ← useHandle c h (fun _ => true) rRead e
  modOp c fun x => (List.range 4).foldl (fun x i => x.setSp (cxN (8 + i)) (Word.raw (BitVec.ofNat 64 (k.1 / 2 ^ (64 * i))) true))
    x.finishInline
  return .seq
/-- KRD (R299). -/
def execKrd (c : Nat) (rs1 : Reg) (s : State) (e : SlotEcc := .good) : Out := instr c (krdOp c rs1 e) s

end Sys2Proof.Machine
end

