-- ==== Sys2Proof/Machine/Jobs.lean ====
section
/-!
DEFINITION. Coprocessor jobs (R301 to R307, R311): `XJOB` and `XWAIT`, the operations that a job computes, its start and
completion.
-/
namespace Sys2Proof.Machine

/-! ### The form of a job (R306) -/

/-- R297, R306: how CX0 keys a job. -/
inductive KeyUse where
  | no
  /-- A handle of one of the types with the right. -/
  | slot (ty : List Nat) (right : Nat)
  /-- A handle, or a pointer to a sealed key object. -/
  | either (ty : List Nat) (right : Nat)
  /-- A pointer to a sealed key object. -/
  | object
  /-- `EMPTY`, a handle or a key object. -/
  | optional (ty : List Nat) (right : Nat)
  deriving DecidableEq, Repr

/-- R306: the registers that a job uses: the key, a second handle in CX2, the input and the output pointers. -/
structure JobForm where
  key : KeyUse := .no
  key2 : Option (List Nat × Nat) := none
  ins : List Nat := []
  outs : List Nat := []
  deriving DecidableEq, Repr

/-- The AES types. -/
def aesTypes : List Nat := [1, 2]
/-- R288: the slot type of a curve selector of ECDSA, ECDH and public-key derivation. -/
def curveTypes (p5 : Nat) : List Nat := match p5 with | 0 => [4] | 2 => [5] | 3 => [6] | _ => []
/-- R306: the form of a function; none for a value that is not assigned. -/
def jobForm (fn p5 : Nat) (w0 : Word) : Option JobForm :=
  match fn with
  | 0x01 | 0x02 => some { ins := [1], outs := [3] }
  | 0x03 => some { key := .slot [3] rSign, ins := [1], outs := [3] }
  | 0x04 => some { key := .optional [3] rSign, ins := [1], outs := [3] }
  | 0x08 => some { key := .slot aesTypes rEnc, ins := [1, 2, 6], outs := [3, 4] }
  | 0x09 => some { key := .slot aesTypes rDec, ins := [1, 2, 4, 6], outs := [3] }
  | 0x0A =>
    let r := if p5 % 2 == 0 then rEnc else rDec
    some { key := .slot [2] r, key2 := some ([2], r), ins := [1, 6], outs := [3] }
  | 0x0B => some { key := .slot [2] rWrap, key2 := some ([1, 2, 3, 4, 5, 6], rExport), outs := [3] }
  | 0x0C => some { key := .slot [2] rUnwrap, ins := [1] }
  | 0x0D => some { key := .slot aesTypes rWrap, ins := [1], outs := [3] }
  | 0x0E => some { key := .slot aesTypes rUnwrap, ins := [1], outs := [3] }
  | 0x10 => some { key := .either (if p5 == 0 then [4] else []) rSign, ins := [1], outs := [3] }
  | 0x11 | 0x13 | 0x19 => some { ins := [1, 2, 4] }
  | 0x12 => some { key := .either [6] rSign, ins := [1], outs := [3] }
  | 0x14 => some { key := .either (curveTypes p5) rDerive, ins := [2], outs := [3] }
  | 0x15 => some { key := .either (curveTypes p5) 0, outs := [3] }
  | 0x18 => some { key := .object, ins := [1], outs := [3] }
  | 0x1A | 0x1E => some { outs := [3, 4] }
  | 0x1C => some { ins := [2], outs := [3, 4] }
  | 0x1D => some { key := .object, ins := [1], outs := [3] }
  | 0x20 => some { key := if p5 % 2 == 0 && w0.isEmpty then .no else .object, ins := [1, 2], outs := [3] }
  | 0x28 => some { ins := [1, 2], outs := [3] }
  | 0x30 => some { outs := [3] }
  | _ => none
/-- R306: CX5 is used. -/
def usesCx5 (fn : Nat) : Bool := [0x01, 0x02, 0x03, 0x0A, 0x0C, 0x10, 0x11, 0x14, 0x15, 0x18, 0x19, 0x1A, 0x1C, 0x1D, 0x1E,
  0x20, 0x28].contains fn
/-- R306: CX7 is used. -/
def usesCx7 (fn p5 : Nat) : Bool := fn == 0x30 || (fn == 0x02 && 3 ≤ p5)

/-- R304 REASON 1, R311: CX5 holds a supported value. -/
def cx5Ok (fn : Nat) (v : B64) : Bool :=
  let x := v.toNat
  match fn with
  | 0x01 | 0x03 | 0x14 | 0x18 | 0x19 | 0x1A | 0x1C | 0x1D | 0x1E => x < 3
  | 0x02 => x < 5
  | 0x15 => x < 4
  | 0x0A | 0x10 | 0x11 | 0x20 => x < 2
  | 0x0C => x < 256
  | 0x28 =>
    let p := fld v 29 28 + 1
    8 * p ≤ fld v 22 0 && fld v 22 0 ≤ 4194304 && 16 ≤ fld v 46 40 && fld v 46 40 ≤ 64
  | _ => true

/-! ### Lengths (R301 step 4, R306) -/

/-- Sizes of ML-DSA and ML-KEM by parameter set: public key, private key, signature or ciphertext. -/
def dsaPk (p5 : Nat) : Nat := [1312, 1952, 2592].getD p5 0
def dsaSk (p5 : Nat) : Nat := [2560, 4032, 4896].getD p5 0
def dsaSig (p5 : Nat) : Nat := [2420, 3309, 4627].getD p5 0
def kemPk (p5 : Nat) : Nat := [800, 1184, 1568].getD p5 0
def kemSk (p5 : Nat) : Nat := [1632, 2400, 3168].getD p5 0
def kemCt (p5 : Nat) : Nat := [768, 1088, 1568].getD p5 0
/-- The parameter set numbers. -/
def dsaSet (p5 : Nat) : Nat := [44, 65, 87].getD p5 0
def kemSet (p5 : Nat) : Nat := [512, 768, 1024].getD p5 0
/-- Digest bytes of SHA-2 by CX5. -/
def sha2Len (p5 : Nat) : Nat := [32, 48, 64].getD p5 0
/-- Bytes of a scalar, and of a point, by curve selector. -/
def scalarLen (p5 : Nat) : Nat := if p5 == 1 then 48 else 32
def pointLen (p5 : Nat) : Nat := match p5 with | 0 => 64 | 1 => 96 | _ => 32

/-- An operand's object: the address of its header, its payload. -/
abbrev JobObjs := List (Nat × Nat × B64)
/-- The header payload of an operand. -/
def objHdr (l : JobObjs) (cx : Nat) : B64 := ((l.find? fun e => e.1 == cx).map fun e => e.2.2).getD 0
/-- R60: the bytes that an object holds. -/
def hdrBytes (h : B64) : Nat := 8 * hdrLen h - (if 0x10 ≤ hdrKind h then hdrKind h - 0x10 else 0)
/-- R60: an operand holds `n` bytes: a byte string exactly, a RAW vector in the words that they need. -/
def lenIs (h : B64) (n : Nat) : Bool := if hdrKind h == 0x06 then hdrLen h == (n + 7) / 8 else hdrBytes h == n

/-- R301 step 4, R306: the lengths of the inputs suit the function. -/
def insOk (fn p5 : Nat) (obj : Bool) (l : JobObjs) : Bool :=
  let is := fun cx n => lenIs (objHdr l cx) n
  let n1 := hdrBytes (objHdr l 1)
  match fn with
  | 0x04 => !obj || hdrBytes (objHdr l 0) ≤ 64
  | 0x08 => is 6 12
  | 0x09 => is 6 12 && is 4 16
  | 0x0A => is 6 16 && 16 ≤ n1
  | 0x0C => is 1 48
  | 0x0D => 0 < n1 && n1 ≤ 65536 && n1 % 8 == 0
  | 0x0E => 16 ≤ n1 && n1 ≤ 65544 && n1 % 8 == 0
  | 0x10 => !obj || is 0 (scalarLen p5)
  | 0x11 => is 2 (pointLen p5) && is 4 (2 * scalarLen p5)
  | 0x12 => !obj || is 0 32
  | 0x13 => is 2 32 && is 4 64
  | 0x14 => is 2 (pointLen p5) && (!obj || is 0 (scalarLen p5))
  | 0x15 => !obj || is 0 (scalarLen p5)
  | 0x18 => is 0 (dsaSk p5)
  | 0x19 => is 2 (dsaPk p5) && is 4 (dsaSig p5)
  | 0x1C => is 2 (kemPk p5)
  | 0x1D => is 0 (kemSk p5) && is 1 (kemCt p5)
  | 0x20 => 64 ≤ hdrBytes (objHdr l 2) && hdrBytes (objHdr l 2) ≤ 512
  | _ => true
/-- R301 step 5, R306, R141: the outputs of a function: register, bytes of the largest result, and whether its class can
carry S. -/
def jobOuts (fn p5 p7 : Nat) (v5 : B64) (keySec : Bool) (l : JobObjs) : List (Nat × Nat × Bool) :=
  let n1 := hdrBytes (objHdr l 1)
  match fn with
  | 0x01 | 0x03 => [(3, sha2Len p5, true)]
  | 0x02 => [(3, [32, 48, 64].getD p5 p7, true)]
  | 0x04 => [(3, 64, true)]
  | 0x08 => [(3, n1, false), (4, 16, false)]
  | 0x09 => [(3, n1, true)]
  | 0x0A => [(3, n1, p5 % 2 == 1)]
  | 0x0B => [(3, 48, false)]
  | 0x0D => [(3, n1 + 8, false)]
  | 0x0E => [(3, n1 - 8, true)]
  | 0x10 => [(3, 2 * scalarLen p5, !keySec)]
  | 0x12 => [(3, 64, !keySec)]
  | 0x14 => [(3, scalarLen p5, true)]
  | 0x15 => [(3, pointLen p5, false)]
  | 0x18 => [(3, dsaSig p5, !keySec)]
  | 0x1A => [(3, dsaSk p5, true), (4, dsaPk p5, false)]
  | 0x1C => [(3, 32, true), (4, kemCt p5, false)]
  | 0x1D => [(3, 32, true)]
  | 0x1E => [(3, kemSk p5, true), (4, kemPk p5, false)]
  | 0x20 => [(3, hdrBytes (objHdr l 2), true)]
  | 0x28 => [(3, fld v5 46 40, true)]
  | 0x30 => [(3, p7, true)]
  | _ => []

/-! ### XJOB (R301) -/

/-- R301 step 1: the types of the parameter registers, in ascending order. -/
def jobTypes (c fn p5 : Nat) (f : JobForm) : Op Unit := do
  let w0 ← cxOp c 0
  needTag (match f.key with
    | .no => true
    | .slot _ _ => w0.ty == tyHANDLE
    | .object => w0.ty == tyRAWV
    | .either _ _ => w0.ty == tyHANDLE || w0.ty == tyRAWV
    | .optional _ _ => w0.isEmpty || w0.ty == tyHANDLE || w0.ty == tyRAWV) 3 w0
  for i in [1, 2, 3, 4, 6] do
    let w ← cxOp c i
    if f.ins.contains i then needTag (w.ty == tyBYTES || w.ty == tyRAWV) 3 w
    else if f.outs.contains i then needTag (w.ty == tyRAWV) 3 w
    else if i == 2 && f.key2.isSome then needTag (w.ty == tyHANDLE) 3 w
  if usesCx5 fn then
    let w ← cxOp c 5
    needTag w.isFix 3 w
  if usesCx7 fn p5 then
    let w ← cxOp c 7
    needTag w.isFix 3 w
  for i in [0, 1, 2, 3, 4, 5, 6, 7] do
    let w ← cxOp c i
    let used := (i == 0 && f.key != .no) || f.ins.contains i || f.outs.contains i || (i == 2 && f.key2.isSome)
      || (i == 5 && usesCx5 fn) || (i == 7 && usesCx7 fn p5)
    if used then paramOp w 3

/-- R301 step 2: the handles. -/
def jobKeys (c : Nat) (f : JobForm) (e : SlotEcc) : Op (List (Nat × B64)) := do
  let w0 ← cxOp c 0
  let h := fun (ty : List Nat) (right : Nat) => do
    if w0.ty == tyHANDLE then return [← useHandle c w0 ty.contains right e]
    else return ([] : List (Nat × B64))
  let a ← (match f.key with
    | .slot ty r | .either ty r | .optional ty r => h ty r
    | _ => pure [] : Op (List (Nat × B64)))
  match f.key2 with
  | some (ty, r) => return a ++ [← useHandle c (← cxOp c 2) ty.contains r]
  | none => return a

/-- R156, R301 step 3: the object at `a` is not one that waits for its move. -/
def movedOp (c a : Nat) : Op Unit := do
  let s ← get
  match s.rkOn c with
  | none => pure ()
  | some (p, side, r) =>
    if r.phase == 3 && r.inHeap a then
      let e ← hwRead c (r.spv 0x303 + r.region a)
      if fld e.pay 63 60 == 3 then
        modify fun s => s.postPrio c p side a
        if (← levelOp c) ≤ 1 && !(s.part p).paired then
          modify fun s => s.modRk p side fun r =>
            { r with reg := Tab.set (fun _ => 0) r.reg 0x315 (BitVec.ofNat 64 (satInc 64 (r.spv 0x315))) }
          trapOp 0x06 a
        else
          modify fun s => s.modRk p side fun r =>
            { r with reg := Tab.set (fun _ => 0) r.reg 0x314 (BitVec.ofNat 64 (satInc 64 (r.spv 0x314))) }
          stall
/-- R239, R307: a physical word in sealed scratch. -/
def State.sealedPa (s : State) (n pa : Nat) : Bool :=
  match s.scratchAt n pa with
  | some (m, _) => s.scratchSealed m
  | none => false
/-- R301 step 3: the pointer operands dereferenced. -/
def jobObjs (c : Nat) : List Nat → Op JobObjs
  | [] => pure []
  | i :: t => do
    let w ← cxOp c i
    let x ← derefOp c w 3
    movedOp c x.1
    let r ← jobObjs c t
    return (i, x.1, x.2) :: r
/-- R239, R307: a page of the `n` words from `va` on lies in sealed scratch of its cell; a page whose translation faults is left
to step 6. -/
def State.sealedWords (s : State) (c lvl : Nat) (a : Access) : Nat → Nat → Nat → Bool
  | 0, _, _ => false
  | fuel + 1, va, n =>
    if n == 0 then false
    else
      let k := min n (512 - va % 512)
      (match (s.translate c lvl a va).1 with
        | .ok _ pa => s.sealedPa (s.build.cellOfCore c) pa
        | _ => false) || s.sealedWords c lvl a fuel (va + k) (n - k)
/-- R239, R307: no operand lies in sealed scratch. -/
def jobScratch (c fn : Nat) (outs : List Nat) : JobObjs → Op Unit
  | [] => pure ()
  | x :: t => do
    let n := hdrLen x.2.2 + 1
    cpxNeed (!(← get).sealedWords c (← levelOp c) (if outs.contains x.1 then .store else .load) n x.2.1 n) 5 fn
    jobScratch c fn outs t
/-- R301 step 6: the physical words of `n` words from `va` on, each page translated once; R55, R82, R140: no operand lies on an
X page. -/
def jobPas (c : Nat) (a : Access) : Nat → Nat → Nat → Op (List Nat)
  | 0, _, _ => pure []
  | fuel + 1, va, n => do
    if n == 0 then return []
    let r ← memAt c (← levelOp c) a va
    need (!r.1.dev) 0x19 va
    if r.1.x then needTag false 3 (← readPa c r.2)
    let k := min n (512 - va % 512)
    let t ← jobPas c a fuel (va + k) (n - k)
    return (List.range k).map (fun i => r.2 + i) ++ t
/-- R301 step 6: the pages of every operand. -/
def jobPages (c : Nat) (outs : List Nat) : JobObjs → Op (List (Nat × List Nat))
  | [] => pure []
  | (i, a, h) :: t => do
    let l ← jobPas c (if outs.contains i then .store else .load) (hdrLen h + 1) (a + 1) (hdrLen h)
    let r ← jobPages c outs t
    return (i, l) :: r
/-- R141: a word of a key object has S = 1. -/
def objSec (c a : Nat) : Nat → Op Bool
  | 0 => return false
  | n + 1 => do
    let r ← loadAt c (a + 1 + n)
    if r.2.2.sec then return true else objSec c a n
/-- R142, R304 REASON 4: the region of an Argon2id job: it is the caller's, large enough and free. -/
def State.regionOk (s : State) (c : Nat) (v5 : B64) : Bool :=
  let n := s.build.cellOfCore c
  let d := fld v5 34 32
  let v := s.birOn n d
  let p := fld v5 29 28 + 1
  v.getLsbD 31 && (s.core c).part == some (fld v 29 24) && fld v5 22 0 / (4 * p) * (4 * p) * 16 ≤ (s.birRange n v).2
    && !s.jobs.any fun e => match e.2 with
      | some j => j.st != .finished && j.bir == some d && s.build.cellOfClu j.clu == n
      | none => false
/-- R306: the random bytes that a function draws. -/
def jobDraw (c fn p5 p7 : Nat) : Op Bytes := do
  let s ← get
  match fn with
  | 0x10 =>
    match s.rkOn c with
    | none => drawOp c (scalarLen p5) fn
    | some (p, side, _) =>
      match s.drawScalar p side (if p5 == 1 then p384 else p256) 64 with
      | some (k, t) =>
        set t
        return bytesLE (scalarLen p5) k
      | none =>
        set (s.reseedLimit p)
        trapOp 0x29 (cpxInfo 6 fn)
  | 0x18 | 0x1A | 0x1C => drawOp c 32 fn
  | 0x1E => drawOp c 64 fn
  | 0x30 => drawOp c p7 fn
  | _ => return []
/-- R301: a free ticket of the strand. -/
def State.freeTicketOf (s : State) (t : Nat) : Option Nat :=
  [0, 1, 2, 3].find? fun i => Tab.get (fun _ => 0) (s.strand t).tickets i == 0

/-- XJOB (R301). -/
def xjobOp (c : Nat) (rd : Reg) (fn : Nat) (e : SlotEcc) : Op Flow := do
  let f0 := jobForm fn 0 Word.empty
  need f0.isSome 0x01
  graft c true
  modOp c Core.finishInline
  let k ← coreOp c
  let ps := (List.range 8).map fun i => k.sp (cxN i)
  let v5 := (ps.getD 5 Word.empty).pay
  let p5 := v5.toNat
  let p7 := (ps.getD 7 Word.empty).pay.toNat
  let w0 := ps.getD 0 Word.empty
  let f := (jobForm fn p5 w0).getD {}
  jobTypes c fn p5 f
  let keys ← jobKeys c f e
  let obj := f.key != .no && w0.ty == tyRAWV
  let l ← jobObjs c ((if obj then [0] else []) ++ f.ins ++ f.outs)
  jobScratch c fn f.outs l
  cpxNeed (!usesCx5 fn || cx5Ok fn v5) 1 fn
  needTag (!obj || hdrSealed (objHdr l 0)) 3 w0
  needTag (fn != 0x0D || (hdrSealed (objHdr l 1) && hdrKind (objHdr l 1) == 0x06)) 3 (ps.getD 1 Word.empty)
  needTag (fn != 0x28 || hdrKind (objHdr l 1) != 0x06 || hdrSealed (objHdr l 1)) 3 (ps.getD 1 Word.empty)
  cpxNeed (insOk fn p5 obj l) 2 fn
  let osec ← (if obj then objSec c ((l.headD (0, 0, 0)).2.1) (hdrLen (objHdr l 0)) else pure false : Op Bool)
  let keySec := !keys.isEmpty || osec
  let outs := jobOuts fn p5 p7 v5 keySec l
  cpxNeed (outs.all fun o => o.2.1 ≤ 8 * hdrLen (objHdr l o.1)) 2 fn
  cpxNeed (fn != 0x28 || (← get).regionOk c v5) 4 fn
  need (outs.all fun o => !o.2.2 || hdrSealed (objHdr l o.1)) 0x05 (secInfo 0x08 3)
  let pages ← jobPages c f.outs l
  let s ← get
  let t := s.strandOn c
  let m := c / 4
  match s.freeTicketOf t with
  | none => stall
  | some i =>
    if 32 ≤ (s.clu m).jobq.length then stall
    let rnd ← jobDraw c fn p5 p7
    modify fun s =>
      let j : Job := { part := s.jobPart c, side := s.sideOfCore c (s.jobPart c), strand := t, ticket := i, clu := m, fn := fn,
                       st := .queued, params := ps, keys := keys, ops := l, pages := pages, rnd := rnd, keySec := keySec,
                       bir := if fn == 0x28 then some (fld v5 34 32) else none }
      let no := s.jobNo
      (State.modClu (State.modStrand (State.setJob { s with jobNo := no + 1 } no (some j)) t fun x =>
        { x with tickets := Tab.set (fun _ => 0) x.tickets i (no + 1) }) m fun k => { k with jobq := k.jobq ++ [no] })
    putOp c rd (Word.nat i)
    return .seq
/-- XJOB (R301). -/
def execXjob (c : Nat) (rd : Reg) (fn : BitVec 13) (s : State) (e : SlotEcc := .good) : Out := instr c (xjobOp c rd fn.toNat e) s

/-! ### Units (R302, R306, R314) -/

/-- R306: the units that a function occupies, a Keccak lane given as `lane`. -/
def jobUnits (fn lane : Nat) : List Nat :=
  match fn with
  | 0x01 | 0x03 => [5]
  | 0x02 => [lane]
  | 0x04 | 0x28 => [7]
  | 0x08 | 0x09 | 0x0A | 0x0B | 0x0C | 0x0D | 0x0E | 0x30 => [6]
  | 0x10 | 0x11 | 0x14 | 0x15 => [1]
  | 0x12 | 0x13 => [1, 5]
  | 0x18 | 0x19 | 0x1A | 0x1C | 0x1D | 0x1E => [2, lane]
  | _ => [0]
/-- The units that the running jobs of a cluster occupy. -/
def State.unitsBusy (s : State) (m : Nat) : List Nat :=
  (s.clu m).jobrun.flatMap fun j => match s.job j with | some q => q.units | none => []
/-- JOB_START (R302): unit `u` takes the first waiting job that needs it, if the job's other unit is free too. -/
def jobStart (m u : Nat) (s : State) : State :=
  let busy := s.unitsBusy m
  let lane := if u == 3 || u == 4 then u else if busy.contains 3 then 4 else 3
  let need := fun j => match s.job j with | some q => jobUnits q.fn lane | none => []
  if !(s.rd .cpxCtl m).getLsbD 0 then s
  else match (s.clu m).jobq.find? fun j => (need j).contains u with
    | none => s
    | some j =>
      if (need j).any busy.contains then s
      else (s.modClu m fun k => { k with jobq := k.jobq.filter (· != j), jobrun := k.jobrun ++ [j] }).modJob j fun q =>
        { q with st := .running, units := need j }
/-- JOB_START (R302). -/
def execJobStart (m u : Nat) (s : State) : Out := onClu s m (jobStart m u s)

/-! ### What a job computes (R306) -/

/-- A running job's inputs: parameters, bytes by register, whether any has S, keys, random bytes. -/
structure JobIn where
  v5 : B64
  p7 : Nat
  args : List (Nat × Bytes)
  sec : Bool
  keys : List (Nat × B64)
  rnd : Bytes
  keySec : Bool
  /-- CX0 is a key object. -/
  obj : Bool
  /-- The cell of the coprocessor. -/
  cell : Nat
  deriving DecidableEq, Repr
/-- What it yields: bytes and S by output register, the result of `XWAIT`, REASON of a failure, a key, and (R307) `EMPTY`
over CX3. -/
structure JobRes where
  outs : List (Nat × Bytes × Bool) := []
  result : Nat := 0
  sec : Bool := false
  fail : Nat := 0
  key : Option (B64 × Nat) := none
  wipe : Bool := false
  blob : Bytes := []
  /-- R307: the attempts of an ML-DSA signature. -/
  attempts : Nat := 0
  deriving DecidableEq, Repr

def JobIn.p5 (x : JobIn) : Nat := x.v5.toNat
def JobIn.arg (x : JobIn) (cx : Nat) : Bytes := ((x.args.find? fun e => e.1 == cx).map Prod.snd).getD []
/-- The key: of a handle by type, or a key object's bytes. -/
def JobIn.aes (x : JobIn) (i : Nat) : Bytes := let k := x.keys.getD i (0, 0); aesKeyOf (polType k.2) k.1
def JobIn.keyBytes (x : JobIn) (n : Nat) : Bytes := if x.obj then (x.arg 0).take n else bytesLE n (x.keys.headD (0, 0)).1
def JobIn.keyNat (x : JobIn) (n : Nat) : Nat := natLE (x.keyBytes n)
/-- One result in CX3. -/
def JobRes.bytes (b : Bytes) (sec : Bool) : JobRes := { outs := [(3, b, sec)], result := b.length, sec := sec }
/-- A verification. -/
def JobRes.verdict (ok sec : Bool) : JobRes := { result := b2n ok, sec := sec }

/-- A job's function on its inputs. -/
abbrev JobFn := JobIn → State → JobRes × State

def sha2Fn : JobFn := fun x s => (.bytes (sha2 x.p5 (x.arg 1)) x.sec, s)
def sha3Fn : JobFn := fun x s => (.bytes (sha3 x.p5 x.p7 (x.arg 1)) x.sec, s)
def hmacFn : JobFn := fun x s => (.bytes (hmac x.p5 (x.keyBytes 32) (x.arg 1)) true, s)
def blakeFn : JobFn := fun x s =>
  (.bytes (blake2b 64 (if x.obj then x.arg 0 else if x.keys.isEmpty then [] else x.keyBytes 32) (x.arg 1)) (x.sec || x.keySec), s)
def gcmSealFn : JobFn := fun x s =>
  let n := (x.arg 6).take 12
  let ct := gcmCrypt (x.aes 0) n (x.arg 1)
  ({ outs := [(3, ct, false), (4, gcmTag (x.aes 0) n (x.arg 2) ct, false)], result := ct.length }, s)
def gcmOpenFn : JobFn := fun x s =>
  let n := (x.arg 6).take 12
  if gcmTag (x.aes 0) n (x.arg 2) (x.arg 1) == (x.arg 4).take 16 then
    ({ outs := [(3, gcmCrypt (x.aes 0) n (x.arg 1), true)], result := (x.arg 1).length }, s)
  else ({ wipe := true }, s)
def xtsFn : JobFn := fun x s =>
  let dec := x.p5 % 2 == 1
  (.bytes (aesXts (!dec) (x.aes 0) (x.aes 1) ((x.arg 6).take 16) (x.arg 1)) dec, s)
def wrapFn : JobFn := fun x s =>
  let k := x.keys.getD 1 (0, 0)
  (.bytes (wrapKey (x.aes 0) k.2 k.1) false, s)
def unwrapFn : JobFn := fun x s =>
  match unwrapKey (x.aes 0) (x.arg 1) with
  | some (t, use, label, mat) =>
    ({ key := some (mkPolicy 0 0 t (Nat.land use (x.p5 % 256)) label, mat), blob := x.arg 1 }, s)
  | none => ({ fail := 9, blob := x.arg 1 }, s)
def objWrapFn : JobFn := fun x s => (.bytes (kwpWrap (x.aes 0) (x.arg 1)) false, s)
def objUnwrapFn : JobFn := fun x s =>
  match kwpUnwrap (x.aes 0) (x.arg 1) with
  | some b => (.bytes b true, s)
  | none => ({ fail := 9 }, s)
/-- The curve of a selector. -/
def curveOf (p5 : Nat) : Curve := if p5 == 1 then p384 else p256
def ecdsaSignFn : JobFn := fun x s =>
  let n := scalarLen x.p5
  match ecdsaSignWith (curveOf x.p5) (x.keyNat n) (natLE x.rnd) (x.arg 1) with
  | some b => (.bytes b (!x.keySec && x.sec), s)
  | none => let r := freshBytes (2 * n / 8) s; (.bytes r.1 (!x.keySec && x.sec), r.2)
def ecdsaVerifyFn : JobFn := fun x s =>
  (.verdict (ecdsaVerify (curveOf x.p5) ((x.arg 2).take (pointLen x.p5)) (x.arg 1) ((x.arg 4).take (2 * scalarLen x.p5))) x.sec, s)
def edSignFn : JobFn := fun x s => (.bytes (ed25519Sign (x.keyBytes 32) (x.arg 1)) (!x.keySec && x.sec), s)
def edVerifyFn : JobFn := fun x s => (.verdict (ed25519Verify ((x.arg 2).take 32) (x.arg 1) ((x.arg 4).take 64)) x.sec, s)
def ecdhFn : JobFn := fun x s =>
  let n := scalarLen x.p5
  if x.p5 == 2 then (.bytes (x25519 (x.keyBytes 32) ((x.arg 2).take 32)) true, s)
  else match ecdh (curveOf x.p5) (x.keyNat n) ((x.arg 2).take (pointLen x.p5)) with
    | some b => (.bytes b true, s)
    | none => let r := freshBytes (n / 8) s; (.bytes r.1 true, r.2)
/-- The base point of X25519. -/
def x25519Base : Bytes := bytesLE 32 9
def publicFn : JobFn := fun x s =>
  (.bytes (if x.p5 == 2 then x25519 (x.keyBytes 32) x25519Base
    else if x.p5 == 3 then ed25519Public (x.keyBytes 32)
    else (curveOf x.p5).encode ((curveOf x.p5).mul (x.keyNat (scalarLen x.p5)) (curveOf x.p5).base)) false, s)
/-- R307: an ML-DSA signature; should every attempt that FIPS 204 asks for fail, its bytes are free. -/
def dsaSignFn : JobFn := fun x s =>
  match mlDsaSign (dsaSet x.p5) (x.keyBytes (dsaSk x.p5)) (x.arg 1) x.rnd with
  | some (b, k) => ({ JobRes.bytes b (!x.keySec && x.sec) with attempts := k }, s)
  | none => let r := freshBytes (dsaSig x.p5 / 8 + 1) s; (.bytes (r.1.take (dsaSig x.p5)) (!x.keySec && x.sec), r.2)
def dsaVerifyFn : JobFn := fun x s =>
  (.verdict (mlDsaVerify (dsaSet x.p5) ((x.arg 2).take (dsaPk x.p5)) (x.arg 1) [] ((x.arg 4).take (dsaSig x.p5))) x.sec, s)
def dsaKeyFn : JobFn := fun x s =>
  let k := mlDsaKey (dsaSet x.p5) x.rnd
  ({ outs := [(3, k.2, true), (4, k.1, false)], result := dsaSk x.p5, sec := true }, s)
/-- R306: encapsulation; the result for a key that fails the input check of FIPS 203 is free. -/
def kemEncapsFn : JobFn := fun x s =>
  let ek := (x.arg 2).take (kemPk x.p5)
  let end_ := fun (k : Bytes × Bytes) (s : State) =>
    (({ outs := [(3, k.1, true), (4, k.2, false)], result := 32, sec := true } : JobRes), s)
  if mlKemKeyOk (kemSet x.p5) ek then end_ (mlKemEncaps (kemSet x.p5) ek x.rnd) s
  else let r := freshBytes (4 + kemCt x.p5 / 8) s; end_ (r.1.take 32, r.1.drop 32) r.2
/-- R306: decapsulation; the same of a private key. -/
def kemDecapsFn : JobFn := fun x s =>
  let dk := x.keyBytes (kemSk x.p5)
  if mlKemPrivOk (kemSet x.p5) dk then (.bytes (mlKemDecaps (kemSet x.p5) dk ((x.arg 1).take (kemCt x.p5))) true, s)
  else let r := freshBytes 4 s; (.bytes r.1 true, r.2)
def kemKeyFn : JobFn := fun x s =>
  let k := mlKemKey (kemSet x.p5) x.rnd
  ({ outs := [(3, k.2, true), (4, k.1, false)], result := kemSk x.p5, sec := true }, s)
/-- R306 fn 0x20: with the exponent in CX0 the base is CX1; the spec names no register for the base of the other forms, and
no layout of a CRT key: their result is free. -/
def modExpFn : JobFn := fun x s =>
  let m := x.arg 2
  if x.obj && x.p5 % 2 == 0 && natBE m != 0 then
    (.bytes (bytesBE m.length (powMod (natBE m) (natBE (x.arg 1)) (natBE (x.arg 0)))) x.sec, s)
  else let r := freshBytes ((m.length + 7) / 8) s; (.bytes (r.1.take m.length) x.sec, r.2)
/-- R143: a run of the engine leaves its memory in the region of the descriptor, block by block from its base (DESIGN CHOICE,
log 54: the words are secret `RAW`). -/
def State.argonPut (s : State) (n d : Nat) (m : ArgonMem) : State :=
  let base := n * 2 ^ 34 + (s.birRange n (s.birOn n d)).1
  m.foldl (fun s e => (List.range 16).foldl (fun s i =>
    s.dramWrite (base + 16 * e.1 + i) (((e.2.drop (8 * i)).take 8).map fun v => Word.raw v true)) s) s
def argonFn : JobFn := fun x s =>
  let r := argon2id (x.arg 1) (x.arg 2) [] [] (fld x.v5 22 0) (fld x.v5 27 24 + 1) (fld x.v5 29 28 + 1) (fld x.v5 46 40)
  (.bytes r.1 x.sec, s.argonPut x.cell (fld x.v5 34 32) r.2)
def drbgFillFn : JobFn := fun x s => (.bytes x.rnd true, s)

/-! ### Running a job -/

/-- R302: a word read by a coprocessor of cell `n`. -/
def State.jobRead (s : State) (n pa : Nat) : Word × State :=
  match s.scratchAt n pa with
  | some (m, o) => (s.scratchWord m o, s)
  | none => s.agentRead pa
def jobReads (n : Nat) : List Nat → State → List Word × State
  | [], s => ([], s)
  | a :: t, s =>
    let r := s.jobRead n a
    let q := jobReads n t r.2
    (r.1 :: q.1, q.2)
/-- The inputs of a job, in ascending register order: words by register. -/
def jobInputs (n : Nat) (q : Job) : List Nat → State → List (Nat × List Word) × State
  | [], s => ([], s)
  | i :: t, s =>
    let r := jobReads n (((q.pages.find? fun e => e.1 == i).map Prod.snd).getD []) s
    let z := jobInputs n q t r.2
    ((i, r.1) :: z.1, z.2)
/-- R303, R140: the first word met that a checked load refuses: its virtual address and itself. -/
def jobRefused (q : Job) : List (Nat × List Word) → Option (Nat × Word)
  | [] => none
  | (i, ws) :: t =>
    match ws.findIdx? fun w => w.isPoison || w.malformed with
    | some k => some (((q.ops.find? fun e => e.1 == i).map fun e => e.2.1).getD 0 + 1 + k, ws.getD k Word.empty)
    | none => jobRefused q t
/-- R60: the bytes of an operand's words. -/
def operandBytes (h : B64) (ws : List Word) : Bytes := (ws.flatMap fun w => bytesLE 8 w.pay.toNat).take (hdrBytes h)
/-- The words that a result puts into an output object. -/
def outWords (q : Job) (r : JobRes) : List (Nat × Word) :=
  let pas := fun cx => ((q.pages.find? fun e => e.1 == cx).map Prod.snd).getD []
  if r.wipe then (pas 3).map fun a => (a, Word.empty)
  else if r.fail != 0 then []
  else r.outs.flatMap fun o => (pas o.1).zip (rawWords o.2.1 o.2.2)
/-- A running job is computed. -/
def jobRun (j : Nat) (q : Job) (f : JobFn) (s : State) : State :=
  let n := s.build.cellOfClu q.clu
  let w0 := q.params.getD 0 Word.empty
  let v5 := (q.params.getD 5 Word.empty).pay
  let form := (jobForm q.fn v5.toNat w0).getD {}
  let obj := form.key != .no && w0.ty == tyRAWV
  let ins := jobInputs n q ((if obj then [0] else []) ++ form.ins) s
  match jobRefused q ins.1 with
  | some (va, w) =>
    ins.2.setJob j (some (if w.isPoison then { q with st := .computed, poison := some va }
      else { q with st := .computed, badWord := some w }))
  | none =>
    let x : JobIn := { v5 := v5, p7 := (q.params.getD 7 Word.empty).pay.toNat,
                       args := ins.1.map fun e => (e.1, operandBytes (objHdr q.ops e.1) e.2),
                       sec := ins.1.any fun e => e.2.any Word.sec, keys := q.keys, rnd := q.rnd, keySec := q.keySec, obj := obj, cell := n }
    let r := f x ins.2
    r.2.setJob j (some { q with st := .computed, result := Word.fix (BitVec.ofNat 64 r.1.result) r.1.sec, fail := r.1.fail,
                                out := outWords q r.1, newKey := r.1.key, blob := r.1.blob,
                                attempts := r.1.attempts })
/-- A row of the job table: job `j` of cluster `m`, if it runs with the function `fn`. -/
def jobRow (m j fn : Nat) (f : JobFn) (s : State) : Out :=
  onClu s m (match s.job j with
    | some q => if q.clu == m && q.fn == fn && q.st == .running then jobRun j q f s else s
    | none => s)

/-- SHA2_JOB (R306). -/
def execSha2Job (m j : Nat) (s : State) : Out := jobRow m j 0x01 sha2Fn s
/-- SHA3_JOB (R306). -/
def execSha3Job (m j : Nat) (s : State) : Out := jobRow m j 0x02 sha3Fn s
/-- HMAC_JOB (R306). -/
def execHmacJob (m j : Nat) (s : State) : Out := jobRow m j 0x03 hmacFn s
/-- BLAKE2B_JOB (R306). -/
def execBlake2bJob (m j : Nat) (s : State) : Out := jobRow m j 0x04 blakeFn s
/-- AES_GCM_SEAL (R306). -/
def execAesGcmSeal (m j : Nat) (s : State) : Out := jobRow m j 0x08 gcmSealFn s
/-- AES_GCM_OPEN (R306, R307). -/
def execAesGcmOpen (m j : Nat) (s : State) : Out := jobRow m j 0x09 gcmOpenFn s
/-- AES_XTS (R306). -/
def execAesXts (m j : Nat) (s : State) : Out := jobRow m j 0x0A xtsFn s
/-- KEY_WRAP_OUT (R295). -/
def execKeyWrapOut (m j : Nat) (s : State) : Out := jobRow m j 0x0B wrapFn s
/-- KEY_UNWRAP_IN (R295). -/
def execKeyUnwrapIn (m j : Nat) (s : State) : Out := jobRow m j 0x0C unwrapFn s
/-- OBJECT_WRAP (R295). -/
def execObjectWrap (m j : Nat) (s : State) : Out := jobRow m j 0x0D objWrapFn s
/-- OBJECT_UNWRAP (R295). -/
def execObjectUnwrap (m j : Nat) (s : State) : Out := jobRow m j 0x0E objUnwrapFn s
/-- ECDSA_SIGN (R306). -/
def execEcdsaSign (m j : Nat) (s : State) : Out := jobRow m j 0x10 ecdsaSignFn s
/-- ECDSA_VERIFY (R306). -/
def execEcdsaVerify (m j : Nat) (s : State) : Out := jobRow m j 0x11 ecdsaVerifyFn s
/-- ED25519_SIGN (R306). -/
def execEd25519Sign (m j : Nat) (s : State) : Out := jobRow m j 0x12 edSignFn s
/-- ED25519_VERIFY (R306). -/
def execEd25519Verify (m j : Nat) (s : State) : Out := jobRow m j 0x13 edVerifyFn s
/-- ECDH (R306). -/
def execEcdh (m j : Nat) (s : State) : Out := jobRow m j 0x14 ecdhFn s
/-- PUBLIC_KEY_DERIVATION (R306). -/
def execPublicKeyDerivation (m j : Nat) (s : State) : Out := jobRow m j 0x15 publicFn s
/-- ML_DSA_SIGN (R306, R307). -/
def execMlDsaSign (m j : Nat) (s : State) : Out := jobRow m j 0x18 dsaSignFn s
/-- ML_DSA_VERIFY (R306). -/
def execMlDsaVerify (m j : Nat) (s : State) : Out := jobRow m j 0x19 dsaVerifyFn s
/-- ML_DSA_KEY_GENERATION (R306). -/
def execMlDsaKeyGeneration (m j : Nat) (s : State) : Out := jobRow m j 0x1A dsaKeyFn s
/-- ML_KEM_ENCAPSULATION (R306). -/
def execMlKemEncapsulation (m j : Nat) (s : State) : Out := jobRow m j 0x1C kemEncapsFn s
/-- ML_KEM_DECAPSULATION (R306). -/
def execMlKemDecapsulation (m j : Nat) (s : State) : Out := jobRow m j 0x1D kemDecapsFn s
/-- ML_KEM_KEY_GENERATION (R306). -/
def execMlKemKeyGeneration (m j : Nat) (s : State) : Out := jobRow m j 0x1E kemKeyFn s
/-- MODULAR_EXPONENTIATION (R306). -/
def execModularExponentiation (m j : Nat) (s : State) : Out := jobRow m j 0x20 modExpFn s
/-- ARGON2ID (R311). -/
def execArgon2id (m j : Nat) (s : State) : Out := jobRow m j 0x28 argonFn s
/-- DRBG_FILL (R306). -/
def execDrbgFill (m j : Nat) (s : State) : Out := jobRow m j 0x30 drbgFillFn s

/-! ### Completion (R302, R303, R307) -/

/-- R291, R295, R303: the key of an unwrap is created: the finished job, whose result is secret (R141). -/
def State.unwrapKeyJob (s : State) (q : Job) : Job × State :=
  match q.newKey with
  | none => (q, s)
  | some (pol, mat) =>
    match s.createKey q.part (polType pol) (polUse pol) (fld pol 23 0) mat with
    | some (i, s) => ({ q with result := Word.fix (BitVec.ofNat 64 (s.keyName i)) true, newKey := none }, s)
    | none => ({ q with fail := 3, newKey := none }, s)
/-- R40: two unwraps are the same operation: the parameters that the function reads, and the input bytes. -/
def Job.sameChange (q x : Job) : Bool := ([0, 1, 5].all fun i => q.params.getD i Word.empty == x.params.getD i Word.empty)
  && q.blob == x.blob
/-- R40: a key unwrap by a pair, once both twins have issued it: both jobs finish together. -/
def State.twinUnwrap (s : State) (j : Nat) (q : Job) (i : Nat) (x : Job) : State :=
  if q.sameChange x then
    let r := s.unwrapKeyJob q
    (r.2.jobFinish j r.1).jobFinish i { x with result := r.1.result, fail := r.1.fail, newKey := none }
  else
    ((s.pairMismatch q.part 2).jobFinish j { q with fail := 10, newKey := none }).jobFinish i { x with fail := 10, newKey := none }
/-- R40: a computed unwrap `j` of a pair: it ends with the other twin's next key change, when that is known. -/
def State.pairUnwrap (s : State) (j : Nat) (q : Job) : State :=
  if (s.twinJob q.part q.side).map Prod.fst != some j then s
  else match s.twinJob q.part (1 - q.side) with
    | some (i, x) => if x.st == .computed then s.twinUnwrap j q i x else s
    | none => match (s.part q.part).keyWait with
      | some w => if w.side != q.side && w.res.isNone then s.twinMixed j q else s
      | none => s
/-- JOB_COMPLETION (R302). -/
def jobCompletion (m j : Nat) (s : State) : State :=
  match s.job j with
  | none => s
  | some q =>
    if q.clu != m || q.st != .computed then s
    else if q.changesKey then
      let p := s.part q.part
      if p.paired && p.lost == 0 then s.pairUnwrap j q
      else
        let r := s.unwrapKeyJob q
        r.2.jobFinish j r.1
    else s.jobFinish j q
/-- JOB_COMPLETION (R302). -/
def execJobCompletion (m j _fc : Nat) (s : State) : Out := onClu s m (jobCompletion m j s)

/-- R421: the twins of paired partitions whose jobs `js` met an internal error are lost. -/
def State.jobTwinsLost (s : State) (n : Nat) (js : List Nat) : State :=
  (js.filterMap fun j => (s.job j).map Job.part).eraseDups.foldl (fun s p => if (s.part p).paired then s.lose n p 5 else s) s
/-- R304, R421: an internal error of a unit: the coprocessor leaves service and its unfinished jobs fail with REASON 7; twins are
lost instead. -/
def coprocessorError (m u : Nat) (s : State) : State :=
  let js := (s.clu m).jobrun ++ (s.clu m).jobq
  let p := (js.findSome? fun j => match s.job j with | some q => if q.units.contains u then some q.part else none | none => none).getD 0
  let body := BitVec.ofNat 32 (u % 16 * 2 ^ 16 + p % 64)
  let s := (s.record .cpxErr m body).wrf .cpxCtl m 0 0 0 0
  let s := s.elogEnter (s.build.cellOfClu m) 0x51 m 3 (body ||| 0x80000000) 0
  let s := s.jobTwinsLost (s.build.cellOfClu m) js
  js.foldl (fun s j => match s.job j with
    | some q => s.jobFinish j { q with fail := 7, poison := none, badWord := none, out := [], newKey := none }
    | none => s) s
/-- COPROCESSOR_INTERNAL_ERROR (R304). -/
def execCoprocessorInternalError (m u : Nat) (s : State) : Out := onClu s m (coprocessorError m u s)

/-- TWIN_KEY_WAIT_APPLY (R40): the operations of a waiting twin whose other twin is lost. -/
def twinWaitApply (p : Nat) (s : State) : State :=
  let s := twinKeyWaitApply p s
  if (s.part p).paired && (s.part p).degraded then
    s.jobs.foldl (fun s e => match e.2 with
      | some q =>
        if q.part == p && q.changesKey && q.st == .computed then
          let r := s.unwrapKeyJob q
          r.2.jobFinish e.1 r.1
        else s
      | none => s) s
  else s
/-- TWIN_KEY_WAIT_APPLY (R40). -/
def execTwinKeyWaitApply (p : Nat) (s : State) : Out := onPart s p (twinWaitApply p s)

/-- MHF_SLOT (R282): an access of the memory-hard-function engine to a line of the region that a job holds, real or dummy: the
line passes the decoder of R269. A real access that meets `POISON` makes the job meet it; the word has no virtual address, so
SINFO is free there. -/
def mhfSlot (n region line : Nat) (real : Bool) (s : State) : State :=
  let b := s.birRange n (s.birOn n region)
  if !s.birBusy n region || b.2 ≤ line then s
  else
    let r := s.dramRead (n * 2 ^ 34 + b.1 + line) 0 [] []
    if real && r.1.any Word.isPoison then
      let v := r.2.fresh
      { v.2 with jobs := v.2.jobs.map fun e => (e.1, e.2.map fun q =>
        if (q.st == .running || q.st == .computed) && q.bir == some region && s.build.cellOfClu q.clu == n then
          { q with poison := some v.1.toNat }
        else q) }
    else r.2
/-- MHF_SLOT (R282). -/
def execMhfSlot (n region : Nat) (real : Bool) (s : State) (line : Nat := 0) : Out := onCell s n (mhfSlot n region line real s)

/-! ### XWAIT (R303) -/

/-- XWAIT (R303). An `XWAIT` that already waits has passed the check for trap 0x28 (DESIGN CHOICE, log 54). An internal error does
not reach a twin: it waits until it stops (R421). -/
def xwaitOp (c : Nat) (rd rs1 : Reg) (waiting : Bool) : Op Flow := do
  graft c (!waiting)
  let w ← fixOp c 0 rs1
  paramOp w 0
  let s ← get
  let t := s.strandOn c
  let i := w.pay.toNat
  let no := if i < 4 then Tab.get (fun _ => 0) (s.strand t).tickets i else 0
  match (if no == 0 then none else s.job (no - 1)) with
  | none => trapOp 0x29 (cpxInfo 8 0)
  | some q =>
    if q.st != .finished || (q.fail == 7 && (s.part q.part).paired) then throw (.wait .job)
    set ((s.modStrand t fun x => { x with tickets := Tab.set (fun _ => 0) x.tickets i 0 }).setJob (no - 1) none)
    match q.poison with
    | some va => trapOp 0x1A va
    | none =>
      needTag q.badWord.isNone 3 (q.badWord.getD Word.empty)
      cpxNeed (q.fail == 0) q.fail q.fn
      putOp c rd q.result
      return .seq
/-- XWAIT (R303). -/
def execXwait (c : Nat) (rd rs1 : Reg) (s : State) : Out :=
  instr c (xwaitOp c rd rs1 ((s.core c).wait == .job)) s

end Sys2Proof.Machine
end

