-- ==== Sys2Proof/Machine/Switch.lean ====
section
/-!
DEFINITION. Preemption and the context switch (R18 to R21, R27, R158, R176, R199, R200, R225), and the prefetch and the locks
of context lines (R255).
-/
namespace Sys2Proof.Machine

/-! ### Preemption points (R19, R27, R158, R176) -/

/-- R158: the strand that goes on after a colour flip: its groups and windows are saved as roots, and its groups and trap
windows come back through the barrier. -/
def flipStrand (c base : Nat) : Op Unit := do
  saveStrand c base
  loadHeld c base 12
  loadGroups c base
  let k ← coreOp c
  for x in [1, 2] do
    if k.twUse.getLsbD x then
      let t ← recLoads c (base + 432 + 16 * x) 16
      modOp c fun k => k.setPregs (trapBase x) t
  modOp c fun k => { k with flip := false, xLoaded := false }
/-- The strand of a core is lost in a switch, without a lockup; the core runs the rest of the frame as 0xF1 (R200). -/
def State.strandGone (s : State) (c : Nat) : State :=
  (s.strandLost c).modCore c fun k =>
    { k.tlbClear with
        part := none, strand := 0, entry := 0xF1, next := none, switched := true, preempt := false, flip := false
        wait := .none, streams := [], locks := [], relock := [] }
/-- R121, R185, R199, R200: a switch stops: the control store locks the core up, or the strand is lost. -/
def State.switchStopped (s : State) (c : Nat) : Stop → State
  | .lock lk => (s.lockup c lk 0 (s.core c).pc).modCore c fun k => { k with preempt := false, switched := true }
  | _ => s.strandGone c
/-- R27: the core's entry of the new row is the one it runs. -/
def Core.stays (k : Core) : Bool :=
  match k.next with
  | some (e, p, t) => e == k.entry && p == k.part && (p.isNone || t == k.strand)
  | none => true
/-- R21: FRM_SLACK.MAX_CC sees the time of a preemption point. -/
def State.slackTime (s : State) (cc : Nat) : State :=
  s.wrf .frmSlack 0 0 15 0 (max (s.rdf .frmSlack 0 0 15 0) (min cc 0xFFFF))
/-- R19, R27, R176, R225: core `c` reaches a preemption point `cc` core cycles after the tick. -/
def State.preemption (s : State) (c cc : Nat) : State :=
  let k := s.core c
  if !k.preempt || !s.canIssue c || ((k.part.isSome || k.entry == 0xF2) && (k.level == 3 || k.pbit 6)) then s
  else
    let l := (s.cell (s.build.cellOfCore c)).shootNow
    let s := (s.slackTime cc).modCore c fun k => { k.applyShoot l with preempt := false, wait := .none, walk := none }
    if !k.stays then s
    else if k.flip then
      match s.recordOf c with
      | none => s.modCore c fun k => { k with flip := false, next := none, switched := true }
      | some b =>
        let r := (flipStrand c b).run.run s
        match r.1 with
        | .ok _ => r.2.modCore c fun k => { k with next := none, switched := true }
        | .error (.wait _) => r.2.modCore c fun k => { k with preempt := true, wait := .memory }
        | .error e => r.2.switchStopped c e
    else s.modCore c fun k => { k with next := none, switched := true }
/-- PREEMPTION_POINT (R19). -/
def execPreemptionPoint (c cc : Nat) (s : State) : Out := onCore s c (s.preemption c cc)

/-! ### The switch (R199, R200) -/

/-- R199 steps 1 to 3: the outgoing strand leaves the core. -/
def leaveStrand (c base : Nat) : Op Unit := do
  enterUc c 0x00B0
  let f := (← get).flushMarks c
  set f.1
  if f.2 then pure () else stall
  fenceOp c
  saveStrand c base
  let s ← get
  let k := s.core c
  set (s.modStrand (s.strandOn c) fun x => { x with tmrPend := k.tmrPend, stepPend := k.stepPend })
/-- R155, R199: what a core keeps of a strand that has left it: nothing. -/
def Core.vacate (k : Core) : Core :=
  { k with part := none, strand := 0, entry := 0xF1, tmrPend := false, stepPend := false, flip := false, wait := .none, walk := none, streams := [],
           cards := [], mark := [], xLoaded := false, inlineOp := none, entering := false, win := [] }
/-- R199 step 4, R200: the entry of the new row takes the core; idling enters the control store (R121). -/
def State.enterStrand (s : State) (c : Nat) : State :=
  match (s.core c).next with
  | none => s
  | some (e, p, t) =>
    let s0 := s.modCore c fun k => { k with entry := e, part := p, strand := t }
    let done := fun (s : State) => s.modCore c fun k =>
      { k with next := none, switched := true, streams := [], locks := [], relock := [] }
    match s0.recordOf c with
    | none =>
      let s := done (s0.modCore c fun k => if e == 0xF1 || e == 0xFF then k.tlbClear else k)
      match if e == 0xF1 then (s.clu (c / 4)).ucEntry 0x00F8 else none with
      | some (.lock lk) => s.lockup c lk 0 (s.core c).pc
      | _ => s
    | some b =>
      let r := (loadStrand c b).run.run s0
      match r.1 with
      | .ok _ => done (r.2.modCore c fun k =>
          { k with tmrPend := (r.2.strand (r.2.strandOn c)).tmrPend, stepPend := (r.2.strand (r.2.strandOn c)).stepPend })
      | .error (.wait _) => r.2.modCore c fun k => { k with entry := 0xF1, part := none, strand := 0, wait := .memory }
      | .error e => r.2.switchStopped c e
/-- R199: the switch of core `c`, as far as memory lets it go. -/
def State.switch (s : State) (c : Nat) : State :=
  let k := s.core c
  if k.preempt || k.switched || k.next.isNone || k.locked || (s.cell (s.build.cellOfCore c)).st == 4 || s.alm.zbusy then s
  else match s.recordOf c with
    | none => s.enterStrand c
    | some b =>
      let r := (leaveStrand c b).run.run s
      match r.1 with
      | .ok _ => ((r.2.dropShadow c).modCore c Core.vacate).enterStrand c
      | .error (.wait _) => r.2.modCore c fun k => { k with wait := .memory }
      | .error e => r.2.switchStopped c e
/-- CONTEXT_SWITCH (R199). -/
def execContextSwitch (c : Nat) (s : State) : Out := onCore s c (s.switch c)

/-! ### Context prefetch (R255) -/

/-- R24, R26, R401: what core `c` of cell `n` runs for an entry of a row: the effective entry, the partition and the
strand. A partition that is not RUNNING in the cell runs as 0xF1; a core whose cluster stays in reset runs nothing (R122). -/
def State.rowRuns (s : State) (n row c : Nat) : BitVec 8 × Option Nat × Nat :=
  let e := if s.offPend.contains c || (s.core c).locked || !(s.clu (c / 4)).csOk then 0xFF else s.rotEntry row c
  if 0x40 ≤ e.toNat then (e, none, 0)
  else
    let p := e.toNat
    let q := s.part p
    if (q.st == 3 || (q.st == 4 && q.stopPend)) && q.homedIn n && !q.lostSide (q.sideIn n) && q.faultPend.isNone && !s.frozen then
      (e, some p, (s.coresGiven n row p).findIdx (· == c))
    else (0xF1, none, 0)
/-- The context record of a strand on the cell of core `c`. -/
def State.recordFor (s : State) (c : Nat) (e : BitVec 8) (p : Option Nat) (t : Nat) : Option Nat :=
  match p with
  | some p => some ((s.part p).ctxOf (s.sideOfCore c p) + 512 * t)
  | none => if e == 0xF2 then some (s.build.cellOfCore c * 2 ^ 37 + 512 * (c % s.build.coresPerCell)) else none
/-- R199 step 4, R255: the lines of a record that the switch will load, by its header and window state. -/
def recordLines (base : Nat) (hdr wins : B64) : List Nat :=
  let b := base / 8
  let up := if hdr.getLsbD 12 || hdr.getLsbD 14 then [12, 13, 14, 15] else []
  let upb := if hdr.getLsbD 12 && hdr.getLsbD 14 then [] else [0, 1, 2, 3]
  let low := if hdr.getLsbD 13 then [16, 17, 18, 19] else [4, 5, 6, 7]
  let tw := (if hdr.getLsbD 16 then [56, 57] else []) ++ (if hdr.getLsbD 17 then [58, 59] else [])
  let held := (List.range 12).flatMap fun w => if wins.getLsbD (3 * w + 2) then [32 + 2 * w, 33 + 2 * w] else []
  ([24, 25, 26, 27, 28, 29, 30, 31] ++ up ++ upb ++ low ++ tw ++ held).map (b + ·)
/-- R255: a line is read into the L2 of core `c`'s cluster and locked. -/
def State.lockLine (s : State) (c l : Nat) : State :=
  let r := s.acquireS (c / 4) l
  if r.2 then r.1.modCore c fun k => { k with locks := if k.locks.contains l then k.locks else k.locks ++ [l],
                                              relock := k.relock.filter (· != l) }
  else r.1
/-- R255: core `c` prefetches the record of the strand that it will run. -/
def State.contextPrefetch (s : State) (c : Nat) : State :=
  let n := s.build.cellOfCore c
  let k := s.core c
  if !(s.cutoff || s.period ≤ s.fc + 64) || (s.cell n).st != 2 || k.locked || (s.cell n).l2off || s.alm.zbusy then s
  else
    let x := s.rowRuns n ((s.frame + 1) % s.rowsOf n) c
    if x.1 == k.entry && x.2.1 == k.part && (x.2.1.isNone || x.2.2 == k.strand) then s
    else match s.recordFor c x.1 x.2.1 x.2.2 with
      | none => s
      | some b =>
        match (readPa c (b + 192)).run.run s with
        | (.error _, t) => t
        | (.ok h, t) =>
          match (readPa c (b + 221)).run.run t with
          | (.error _, t) => t
          | (.ok w, t) => (recordLines b h.pay w.pay).foldl (fun s l => s.lockLine c l) t
/-- CONTEXT_PREFETCH (R255). -/
def execContextPrefetch (c : Nat) (s : State) : Out := onCore s c (s.contextPrefetch c)
/-- LOCKED_LINE_REREAD (R255). -/
def execLockedLineReread (c line : Nat) (s : State) : Out :=
  onCore s c (if (s.core c).relock.contains line then s.lockLine c line else s)

/-! ### A late preemption point (R21) -/

/-- R21, R424: 256 cc have passed without a preemption point. -/
def State.slackViolation (s : State) (c : Nat) : State :=
  let k := s.core c
  if k.preempt && !k.slackCounted && !k.locked then
    let s := (s.modCore c fun k => { k with slackCounted := true }).incf .frmSlack 0 0 31 16
    s.raise 0x12 0 (s.rd .frmSlack)
  else s
/-- SLACK_VIOLATION (R21). -/
def execSlackViolation (c : Nat) (s : State) : Out := onCore s c (s.slackViolation c)
/-- R21, R205: 512 cc have passed: the core is locked up with LKCAUSE 6. -/
def execPreemptionLockup (c : Nat) (s : State) : Out :=
  onCore s c (if (s.core c).preempt then (s.lockup c 6 0 (s.core c).pc).modCore c fun k => { k with preempt := false } else s)

end Sys2Proof.Machine
end

