-- ==== Sys2Proof/Machine/Frames.lean ====
section
/-!
DEFINITION. Frames (R13 to R22, R29, R37): the tick and its eight steps, its acknowledgement, the input cut-off, the
calibration slots, and the passing of a fabric cycle.
-/
namespace Sys2Proof.Machine

/-! ### Time (R16, R187) -/

/-- R187: `d` fabric cycles pass for the timer of a strand that holds a core. -/
def Core.passTimer (k : Core) (d : Nat) : Core :=
  let v := (k.spv 0x054).toNat
  if v == 0 then k
  else if d < v then k.setSpv 0x054 (BitVec.ofNat 64 (v - d))
  else { k.setSpv 0x054 0 with tmrPend := true }
/-- `d` fabric cycles pass: for the timer unit (R354), for the timers of strands, and for replies that are being encoded (R334). -/
def State.pass (s : State) (d : Nat) : State :=
  let s := s.timersPass d
  (s.coreIds.foldl (fun s c => if d != 0 && s.holdsCore c then s.modCore c fun k => k.passTimer d else s) s).stageDue

/-! ### Steps of the tick (R17) -/

/-- R17 step 2, R401: a lift clears FROZEN, a freeze that is pending sets it. -/
def State.tickFreeze (s : State) : State :=
  let s := if s.alm.liftPend then
      ({ s with frozen := false } : State).modAlm fun a => { a with liftPend := false, cls := if a.cls == 1 then 0 else a.cls }
    else s
  if s.alm.freezePend then ({ s with frozen := true } : State).modAlm fun a => { a with freezePend := false, cls := max a.cls 1 }
  else s
/-- R17 step 3: pending changes of one cell; the row of a RUNNING cell. -/
def State.tickCell (s : State) (n : Nat) : State :=
  let k := s.cell n
  let s := if k.restarting then s.cellRestarted n else s
  let s := if k.startPend && k.mcur.isNone && k.mpend == 0 then
      let s := (s.setCellState n 2).modCell n fun k => { k with startPend := false }
      if s.admWait == .cellStart n then s.admFinish 0 else s
    else s
  let s := if k.stopPend then s.cellQuiesce n else s
  s.modCell n fun k => { k with row := if k.st == 2 then s.frame % max 1 (s.rowsOf n) else k.row, acked := k.st != 2 }
/-- R21, R185: entries of cores that locked up read 0xFF in every row. -/
def State.tickOffline (s : State) : State :=
  let s := s.offPend.foldl (fun s c => (List.range 256).foldl (fun s r => s.setRotEntry r c 0xFF) s) s
  { s with offPend := [] }
/-- R201: what a start sets in the context records of a side. -/
def State.startRecords (s : State) (p side : Nat) : State :=
  let q := s.part p
  (List.range (s.strandsIn (q.cellOf side) p)).foldl (fun s t =>
    let b := q.ctxOf side + 512 * t
    let h := s.agentRead (b + 192)
    let s := (h.2.calm (b + 192)).agentWrite (b + 192) ⟨h.1.tag, putBit h.1.pay 7 false⟩
    (s.calm (b + 9)).agentWrite (b + 9) (Word.nat 0)) s
/-- R17 step 3, R43, R344 to R347: pending changes of one partition. -/
def State.tickPart (s : State) (p : Nat) : State :=
  let q := s.part p
  if q.st == 0 then s
  else
    let s := match q.faultPend with
      | some st =>
        let s := (s.modPart p fun q => { q with st := 5, faultPend := none, stopPend := false, startPend := false }).faultReqs p st
        (match s.admWait, s.adm with
          | .partStop, a :: _ => if a.target % 64 == p then s.admFinish 0 else s
          | _, _ => s)
      | none => s
    let q := s.part p
    let s := if q.paired && q.lost != 0 && !q.degraded && 2 ≤ q.st && q.st ≤ 4 then
        (s.modPart p fun q => { q with degraded := true }).degradeReqs p
      else s
    let s := if (s.part p).startPend then
        let s := s.modPart p fun q =>
          let q := if q.repaired then { q with lost := 0, degraded := false, repaired := false } else q
          { q with st := 3, startPend := false, startFrm := s.frame, startCyc := s.clock * 8, rqFrm := [], rqCyc := [],
                   dlv0 := [], dlv1 := [], keyWait := none, keyApply := false }
        let s := (s.part p).live.foldl (fun s x => s.startRecords p x) s
        if s.admWait == .startTick && s.adm.any (fun a => a.target % 64 == p) then s.admFinish 0 else s
      else s
    let s := if (s.part p).stopPend then (s.modPart p fun q => { q with stopPend := false }).stopReqs p else s
    let s := if (s.part p).keyApply then twinWaitApply p s else s
    if (s.part p).downPend then (s.modPart p fun q => { q with downPend := false }).faultReqs p 0x0301 else s
/-- R329: commands that end in step 3 are released at this very tick. -/
def State.tickAdm (s : State) : State :=
  { s with admDone := s.admDone.map fun d => if d.fin == s.frame then { d with fin := s.frame - 1 } else d }
/-- R17 step 6, R22, R331: what arrives is stamped, what is due is delivered or served; fetches that wait for arena space try
again. -/
def State.tickDeliver (s : State) : State :=
  s.qps.foldl (fun s e => arenaWaitFetch (e.1 / 16) (e.1 % 16) s) s.stampAll.stepSix
/-- R17 step 7, R223, R225: the shootdowns that are due in a cell; cores that still hold an older list apply it now, and so do
cores that are offline. -/
def State.tickShoot (s : State) (n : Nat) : State :=
  let old := (s.cell n).shootNow
  let new := (s.cell n).shoot
  let s := (s.coresOfCell n).foldl (fun s c => s.modCore c fun k =>
    let k := if k.preempt then k.applyShoot old else k
    if k.entry == 0xFF || k.locked then k.applyShoot new else k) s
  let s := (s.clusOfCell n).foldl (fun s m => s.modClu m fun k =>
    { k with rtlb := k.rtlb.filter fun e => !new.any fun q => q.hitsLeaf e }) s
  s.modCell n fun k => { k with shoot := [], shootNow := new }
/-- R17 step 8: the preemption requests of a RUNNING cell. -/
def State.tickPreempt (s : State) (n : Nat) : State :=
  if (s.cell n).st != 2 then s
  else (s.coresOfCell n).foldl (fun s c =>
    let k := s.core c
    if k.locked then s
    else
      let x := s.rowRuns n (s.cell n).row c
      if k.entry == 0xFF && x.1 == 0xFF then s
      else s.modCore c fun k => { k with next := some x, preempt := true, switched := false, slackCounted := false }) s
/-- R159, R357: what a tick ends in every core. -/
def State.tickCores (s : State) : State :=
  s.coreIds.foldl (fun s c => (s.dropShadow c).modCore c fun k => { k with cards := [] }) s

/-- R17 step 1: the next frame opens; what is left of the old one passes. -/
def State.tickOpen (s : State) : State :=
  let s := s.pass (s.period - s.fc)
  { s with frame := (s.frame + 1) % 2 ^ 48, fc := 0, cutoff := false, sel := s.periodSel }
/-- R17 steps 3 to 8, after the merge of the monitors (R380): what the tick itself samples belongs to the new frame. -/
def State.tickWork (s : State) : State :=
  let s := s.cellIds.foldl State.tickCell s.monTick
  let s := s.tickOffline
  let s := drbgReseed (s.partIds.foldl State.tickPart s)
  let s := s.tickAdm
  let s := s.compareAll.releaseAll
  let s := adminCompletionPost (s.partIds.foldl (fun s p => partStopComplete p s) s)
  let s := s.tickDeliver
  let s := if s.alm.zbusy then s else s.partIds.foldl State.gcTick s
  let s := s.cellIds.foldl State.tickShoot s
  let s := if s.alm.zbusy then s else s.cellIds.foldl State.tickPreempt s
  (s.cluIds.foldl State.rakeTick s).tickCores
/-- R17: the tick of the next frame. -/
def State.tick (s : State) : State := s.tickOpen.tickFreeze.tickWork
/-- TICK (R17): only while the frame controller runs (R15). -/
def execTick (s : State) : Out := .next (if s.ticking then s.tick else s)

/-! ### Acknowledgement, cut-off, calibration -/

/-- R37: every online core of the cell has finished its switch. -/
def State.switchesDone (s : State) (n : Nat) : Bool :=
  (s.coresOfCell n).all fun c => (s.core c).locked || (!(s.core c).preempt && (s.core c).switched)
/-- R446: the home PLL has lost lock while the part runs. -/
def State.homeLost (s : State) : Bool := 2 ≤ s.pwr.stage && !s.pwr.lock.getLsbD 1
/-- TICK_ACK (R37). -/
def execTickAck (n : Nat) (s : State) : Out :=
  onCell s n (if (s.cell n).st == 2 && s.switchesDone n && !s.homeLost then s.modCell n fun k => { k with acked := true } else s)
/-- TICK_ACK_DEADLINE (R37): fc 192 has come. -/
def execTickAckDeadline (n : Nat) (s : State) : Out :=
  onCell s n (if (s.cell n).st == 2 && !(s.cell n).acked then s.cellDown n 1 0 else s)
/-- INPUT_CUTOFF (R22): fc P − 64 has come. -/
def execInputCutoff (s : State) : Out := .next (if s.ticking then { s with cutoff := true } else s)
/-- R29: the frame is one in which the channel's slot is due. -/
def State.calFrame (s : State) (ch : Nat) : Bool :=
  let i := max 1 (s.rdf .frmCal 0 0 7 0)
  let m := s.build.chanPerCell
  s.frame % i == ch % m * (i / m)
/-- R29: fc 256 of a frame has come: a channel whose slot is due opens it, or defers it to a row with CAL_OK. -/
def calSlot (ch : Nat) (s : State) : State :=
  let n := s.build.cellOfChan ch
  let i := ch % s.build.chanPerCell
  let k := s.cell n
  if k.st != 2 || !(s.calFrame ch || k.calDue.getLsbD i) then s
  else if (s.rowAttr k.row n).getLsbD 16 && k.cal == 0 then
    (s.incf .memStat ch 0 15 0).modCell n fun k => { k with cal := putBit k.cal i true, calDue := putBit k.calDue i false }
  else s.modCell n fun k => { k with calDue := putBit k.calDue i true }
/-- CALIBRATION_SLOT (R29). -/
def execCalibrationSlot (ch : Nat) (s : State) : Out := onChan s ch (calSlot ch s)
/-- CALIBRATION_SLOT_END (R29). -/
def execCalibrationSlotEnd (ch : Nat) (s : State) : Out :=
  onChan s ch (s.modCell (s.build.cellOfChan ch) fun k => { k with cal := putBit k.cal (ch % s.build.chanPerCell) false })

end Sys2Proof.Machine
end

