-- ==== Sys2Proof/Machine/Power.lean ====
section
/-!
DEFINITION. Power, resets, clocks and boot (R434 to R447): the always-on island, the reset inputs, the eight boot stages,
readiness, deep sleep, and losses of lock.
-/
namespace Sys2Proof.Machine

/-! ### The always-on island (R435 to R437) -/

/-- R439: the part has no power, or is held in reset: nothing survives, and it is not up. -/
def State.powerOff (s : State) (cause : Nat) : State :=
  (s.coldBoot cause).modPwr fun w => { w with pwrgd := false, up := false }
/-- VDD_AON_RISE (R436): the latch powers up set, and PMIC_ON rises. -/
def execVddAonRise (s : State) : Out :=
  .next ((s.powerOff 1).modPwr fun w => { w with aon := true, wake := true, pmicOn := true, pgSeen := false })
/-- WAKE_N_FALL (R436): a filtered falling edge, `ms` after PMIC_ON fell. -/
def execWakeNFall (ms : Nat) (s : State) : Out :=
  .next (if s.pwr.aon && !s.pwr.pmicOn && 50 ≤ ms then s.modPwr fun w => { w with wake := true, pmicOn := true, pgSeen := false, cause := 1 }
    else s)
/-- PWRGD_RISE (R435, R439, R451): the part leaves reset and begins to boot; it stays in reset where TEST0 or TEST1 reads
high. -/
def execPwrgdRise (s : State) (test0 test1 : Bool := false) : Out :=
  .next (if s.pwr.pmicOn && !s.pwr.pwrgd then
      (s.coldBoot s.pwr.cause).modPwr fun w => { w with pwrgd := true, pgSeen := true, up := !(test0 || test1) }
    else s)
/-- PWRGD_FALL (R435, R447): a loss of power while the part is powered; `ioInRange`: VDD_IO is still in range. -/
def execPwrgdFall (ioInRange : Bool) (s : State) : Out := .next (if s.pwr.pwrgd then s.powerOff (if ioInRange then 3 else 1) else s)
/-- PWRGD_TIMEOUT (R435): 100 ms have passed since PMIC_ON rose. -/
def execPwrgdTimeout (s : State) : Out :=
  .next (if s.pwr.pmicOn && !s.pwr.pgSeen then s.modPwr fun w => { w with pmicOn := false, wake := false } else s)
/-- R437: what PMIC_ON waits for after a SLEEP. -/
def State.mayDrop (s : State) : Bool :=
  s.pwr.pmicDropPend && !(s.adm.any fun a => a.op == 0x3E) && !(s.admDone.any fun d => d.cmd.op == 0x3E) && !s.alm.zbusy
    && !s.alm.burn && !s.alm.burnDue && !s.sbk.busy
/-- PMIC_DROP (R437): at a tick, the part drops PMIC_ON. -/
def execPmicDrop (s : State) : Out :=
  .next (if s.mayDrop then (s.powerOff s.pwr.cause).modPwr fun w => { w with pmicOn := false, wake := false } else s)

/-! ### Reset inputs (R438) -/

/-- RESET_N (R438): low for at least 1 µs. -/
def execResetN (s : State) : Out := .next (if s.pwr.up then s.coldBoot 2 else s)
/-- PWR_RESET (R438, R447). -/
def execPwrReset (w : Who) (v : BitVec 32) (s : State) : Out := .next (s.writeReg w .pwrReset 0 0 (pwrResetWrite v))
/-- TRST_N (R438): the JTAG TAP only. -/
def execTrstN (s : State) : Out := .next (s.modPwr fun w => { w with tapReset := true })
/-- R438: the HCI block's own registers and the MSI-X and configuration state of every function. -/
def State.hciReset (s : State) : State :=
  ([RegName.hciErr, .hciCqstall, .hciArenawait].foldl (fun s n => s.wr n 0 0 0) s).modPwr fun w =>
    { w with link := false, numVf := 0, bme := (List.range 65).foldl (fun t f => Tab.set (fun _ => true) t f false) [] }
/-- PERST_N (R318, R351, R438): the fundamental reset is asserted; ignored in deep sleep. -/
def execPerstN (s : State) : Out :=
  .next (if s.pwr.pmicOn then ((s.flrPf.hciReset).hciLogRec 9 0 0xFF 0 0).modPwr fun w => { w with perst := true } else s)
/-- PERST_N_RELEASE (R438): the link may train again. -/
def execPerstNRelease (s : State) : Out := .next (s.modPwr fun w => { w with perst := false })

/-! ### Boot (R440 to R444) -/

/-- R440: stage 1: PLLs lock, the alarm monitor loads its policy, the Seedbank is read, ALM_DBGNONCE is drawn, the endpoint
is released; the directories stand initialised (R258, R439). -/
def bootStage1 (r : BootIn) (s : State) : State :=
  let s := (s.wr .almPolicy 0 0 (bootPolicy s.sbk.otp)).modSbk fun b => { b with view := b.otp }
  let s := s.modAlm fun a => { a with nonce := r.nonce, dbg := otpDlevel s.sbk.otp == 0 }
  let s := s.cellIds.foldl (fun s n => s.modCell n fun k => { k with mlast := 2 }) s
  s.modPwr fun w => { w with lock := 0xFF, link := !w.perst, stage := 2 }

/-- R393, R394: a slot verifies at boot. -/
def State.slotOk (s : State) (k : Nat) : Bool := s.bundleStatus k none == 0
/-- R394, R444: the slot to run, and whether it is on trial; none where the boot ROM gives up. -/
def State.chooseSlot (s : State) (pendOk : Bool) : Option (Nat × Bool) :=
  match s.shd.ctlWins with
  | none => if s.slotOk 0 then some (0, false) else none
  | some (_, c) =>
    if pendOk then some (c.pend % 2, true)
    else ([c.active % 2, 1 - c.active % 2].find? s.slotOk).map fun k => (k, false)
/-- R442: the warden image of a slot: an image as IMAGE_LOAD takes it. -/
def State.wardenImage (s : State) (slot : Nat) : Adm :=
  { q := 0, cid := 0, op := 0x15, target := 0, ps := [], outAddr := 0, outLen := 0,
    inp := match s.section? slot 3 with | some (off, len) => s.flashBytes (slotBase slot + off) len | none => [] }
/-- R442: the Seedbank's WKEY. -/
def State.wkey (s : State) : BitVec 256 :=
  BitVec.ofNat 256 (natLE (dwBytes ((List.range 8).map fun i => groupDw s.sbk.otp 5 (1 + i))))
/-- R442: the Shed accepts the warden image. -/
def State.wardenOk (s : State) (a : Adm) : Bool :=
  let d := BitVec.ofNat 256 (natLE (sha3_256 a.imageKey))
  a.imageOk && (d == Config.wardenKeyDigest || (s.wkey != 0 && d == s.wkey)) && a.imageSigned
/-- R440: stage 2: the boot ROM counts a trial, selects and checks a slot; the firmware then starts, reloads its log, and
holds the bundle's warden. -/
def bootStage2 (s : State) : State :=
  let c := s.shd.ctl
  let tries := c.trial + 1
  let pendOk := c.pendFlag && tries < 2 && s.slotOk (c.pend % 2)
  let s := if !c.pendFlag then s
    else s.modShd fun d => d.ctlPut fun c => if pendOk then { c with trial := tries } else { c with pendFlag := false, trial := 0 }
  match s.chooseSlot pendOk with
  | none => s.modPwr fun w => { w with dead := true }
  | some (k, trial) =>
    let a := s.wardenImage k
    let ok := s.wardenOk a
    let s := s.modShd fun d =>
      { d with run := true, slot := k, trial := trial, bundleVer := s.bundleField k 12 4, bundleSvn := s.bundleField k 8 4,
               hasWarden := ok, warden := if ok then a.body else [] }
    let s := s.restoreLog
    let s := if c.pendFlag && !pendOk then s.logCode 0x93 (c.pend % 2) (BitVec.ofNat 32 (s.bundleField (c.pend % 2) 12 4)) else s
    s.modPwr fun w => { w with stage := 3 }

/-- R440: stage 3: the TRNG start-up test, the device DRBG, MEM_CFG from the SPDs. -/
def bootStage3 (r : BootIn) (s : State) : State :=
  let s := { s with trngOk := r.trngOk }
  let s := if r.trngOk then s.startDeviceDrbg else s
  let s := (List.range s.build.channels).foldl (fun s c =>
    s.wr .memCfg c 0 (r.memCfg.getD c 0 &&& (RegName.row .memCfg).rwl)) s
  s.modPwr fun w => { w with stage := 4 }

/-- R262: the channel breaks the population rules: reserved values, no DIMM, or not as the cell's first channel. -/
def State.chanBreaks (s : State) (c : Nat) : Bool :=
  let v := s.rd .memCfg c
  fld v 13 12 == 0 || fld v 13 12 == 3 || fld v 9 8 == 3 || fld v 1 0 == 3 || v != s.memCfg (s.build.cellOfChan c)
/-- R122: the control store of a cluster is loaded from the running bundle, locked and measured. -/
def csLoad (m : Nat) (s : State) : State :=
  csMeasured m (csctlWrite m 0x80000000 ((List.range csWords).foldl (fun s a => s.csPut m a (s.imageWord a)) s))
/-- R440: stage 4: the channels are trained, the control stores loaded and measured. -/
def bootStage4 (r : BootIn) (s : State) : State :=
  let s := (List.range s.build.channels).foldl (fun s c =>
    s.wr .memStat c 0 (if r.trainFail.contains c || s.chanBreaks c then 0x40000000 else 0x80000000)) s
  let s := s.cellIds.foldl (fun s n => s.wrf .clkDdr 0 0 (2 * n + 1) (2 * n) (fld (s.memCfg n) 1 0)) s
  (s.cluIds.foldl (fun s m => csLoad m s) s).modPwr fun w => { w with stage := 5 }

/-- R14, R29: the default frame period of the Seedbank, and FRM_CAL.SLOT where the reset value would break the bound. -/
def State.bootPeriod (s : State) : State :=
  let v := groupDw s.sbk.otp 5 0
  if !v.getLsbD 2 then s
  else
    let s := s.wrf .frmPeriod 0 0 1 0 (fld v 1 0)
    match fld v 1 0 with
    | 0 => s.wrf .frmCal 0 0 15 8 48
    | 1 => s.wrf .frmCal 0 0 15 8 64
    | _ => s
/-- R277: the line of the top region of cell `n` that the check of its subchannel `u` uses (DESIGN CHOICE, log 53: the lowest). -/
def State.pathLine (s : State) (n u : Nat) : Nat :=
  let x := s.capLines n - 16384
  n * 2 ^ 34 + ((List.range 16384).find? fun i => s.subIndex n (x + i) == u).elim x (x + ·)
/-- R276, R277: a mask is armed for the line, the line is written and read back with the errors `e`; the TYPE logged, 0 for none. -/
def State.pathType (s : State) (l : Nat) (mask : BitVec 32) (e : List (Nat × BitVec 8)) : Nat :=
  let c := s.chanOfLine l
  let s := (((s.wr .memFlipline c 0 (BitVec.ofNat 32 l)).wr .memFliplineh c 0 (BitVec.ofNat 32 (l / 2 ^ 32))).wr .memFlipmask c 0
    mask).wr .memFlipctl c 0 0x80000000
  fld ((((s.wr .memErrstat c 0 0).dramWrite l emptyLine).dramRead l 0 e []).2.rd .memErrstat c) 23 20
/-- R277: the code-path check of subchannel `u` of cell `n` passes: a one-nibble mask gives TYPE 1, a mask of two beat pairs
TYPE 2. The errors that it caused are cleared, so it leaves nothing else behind. -/
def State.pathOk (r : BootIn) (s : State) (n u : Nat) : Bool :=
  let e := ((r.pathErr.find? fun x => x.1 == n * 2 ^ s.build.subLog + u).map Prod.snd).getD ([], [])
  s.pathType (s.pathLine n u) 0x1 e.1 == 1 && s.pathType (s.pathLine n u) 0x101 e.2 == 2
/-- R440: stage 5: the code-path check, the known-answer tests, the frame period, the first tick (R15). -/
def bootStage5 (r : BootIn) (s : State) : State :=
  let all := (groupDw s.sbk.otp 5 0).getLsbD 8
  let s := s.cellIds.foldl (fun s n =>
    if all || !(List.range (2 ^ s.build.subLog)).all (s.pathOk r n) then s.modCell n fun k => { k with selftest := true } else s) s
  let s := s.cluIds.foldl (fun s m => s.wr .cpxCtl m 0 (if r.katFail.contains m then 0 else 3)) s
  let s := s.bootPeriod
  let s := ({ s with ticking := true, fc := s.period } : State).tick
  s.modPwr fun w => { w with stage := 6 }

/-- R262: channels of a cell that failed. -/
def State.failedChans (s : State) (n : Nat) : List Nat :=
  ((List.range s.build.chanPerCell).map fun i => n * s.build.chanPerCell + i).filter fun c => (s.rd .memStat c).getLsbD 30
/-- R440, R443: stage 6 for one cell. -/
def bootCell (s : State) (n : Nat) : State :=
  let s := if s.shd.hasWarden then s else s.logCode 0x10 n (s.cellStateReg n)
  let bad := s.failedChans n
  if !bad.isEmpty then
    (bad.foldl (fun s c => s.logCode 0x40 c (s.rd .memErrstat c)) s).modCell n fun k => { k with resolved := true, selftest := false }
  else if (s.cell n).selftest then s.modCell n fun k => { k with resolved := true }
  else s.bootStart n
/-- R440: stage 6; the monitors then take their sources (R385). -/
def bootStage6 (s : State) : State := (s.cellIds.foldl bootCell s).modPwr fun w => { w with stage := 7 }

/-- R385: the monitors' sources after boot. -/
def State.bootMonitors (s : State) : State :=
  (List.range 48).foldl (fun s m =>
    let v := BitVec.ofNat 32 ([4, 3, 5, 6].getD (m / 12) 0 * 2 ^ 24 + m % 12 * 2 ^ 16)
    let t := s.wr .monCfg 0 m v
    if t.monLive m then t else s) s
/-- R394 step 3: a trial boot that reached readiness: the slot becomes active, and the anti-rollback counter rises. -/
def State.trialDone (s : State) : State :=
  if !s.shd.trial then s
  else
    let d := s.shd
    let s := s.modShd fun d =>
      { d.ctlPut fun c => { c with active := d.slot, pendFlag := false, trial := 0 } with trial := false, svnGoal := d.bundleSvn }
    (s.raiseSvn).logCode 0x92 d.slot (BitVec.ofNat 32 d.bundleVer)
/-- R443: readiness, once every cell is in one of the conditions: READY, the trial, code 0x01; then the self-tests run. The
host finds the part (R317) and enables the first `numVf` VFs. -/
def readyNow (numVf : Nat) (s : State) : State :=
  if s.pwr.dead || s.pwr.stage != 7 || s.cellIds.any (fun n => !(s.cell n).resolved) then s
  else
    let d := s.shd
    let s := s.modPwr fun w => { w with ready := true, stage := 8 }
    let s := s.trialDone
    let s := s.logCode 0x01 (d.slot + b2n d.trial * 2 ^ 7) (BitVec.ofNat 32 d.bundleVer)
    let s := s.bootMonitors
    let s := s.cellIds.foldl (fun s n => if (s.cell n).selftest then s.mrequest n [5] else s) s
    if s.pwr.link then s.hostConfig numVf [] else s
/-- READY (R443). -/
def execReady (s : State) (numVf : Nat := 0) : Out := .next (readyNow numVf s)

/-- R440: the current stage ends, and the next begins. -/
def bootStage (r : BootIn) (s : State) : State :=
  if !s.pwr.up || s.pwr.dead then s
  else match s.pwr.stage with
    | 1 => bootStage1 r s
    | 2 => bootStage2 s
    | 3 => bootStage3 r s
    | 4 => bootStage4 r s
    | 5 => bootStage5 r s
    | 6 => bootStage6 s
    | 7 => readyNow s.build.parts s
    | _ => s
/-- BOOT_STAGE_COMPLETE (R440). -/
def execBootStageComplete (r : BootIn) (s : State) : Out := .next (bootStage r s)

/-- R443: 600 ms have passed since the boot CELL_START and no HELLO has come: the Shed stops the cell. -/
def helloWaitTimeout (n : Nat) (s : State) : State :=
  if (s.cell n).helloWait then (s.cellHalt n).modCell n fun k => { k with resolved := true } else s
/-- HELLO_WAIT_TIMEOUT (R443). -/
def execHelloWaitTimeout (n : Nat) (s : State) : Out := onCell s n (helloWaitTimeout n s)

/-! ### Clocks (R444, R446) -/

/-- MAIN_PLL_LOCK_TIMEOUT (R444): the part stays in reset until the next cold boot. -/
def execMainPllLockTimeout (s : State) : Out :=
  .next (if s.pwr.up && s.pwr.stage == 1 then s.modPwr fun w => { w with dead := true } else s)
/-- R318: the link goes down. -/
def State.linkLost (s : State) : State := if s.pwr.link then (s.flrPf).modPwr fun w => { w with link := false } else s
/-- R446: PLL `i` has lost lock: its lock bit clears and its CLK_LOSS bit sets. -/
def State.lockLost (s : State) (i : Nat) : State :=
  (s.modPwr fun w => { w with lock := putBit w.lock i false }).wr .clkLoss 0 0 (putBit (s.rd .clkLoss) i true)
/-- R446: a clock or PLL failure while the part runs: 0 main, 1 home, 2 PCIe, 3 to 6 PHY groups, 7 Shed, 8 the 25 MHz
reference, 9 the 100 MHz reference. After a loss of the home PLL no cell acknowledges a tick (`State.homeLost`); after that of a
PHY PLL no data returns (`State.phyLost`). -/
def clockFailure (i : Nat) (s : State) : State :=
  if !s.pwr.up || s.pwr.stage < 2 then s
  else
    let s := if i < 8 then s.lockLost i else s
    match i with
    | 0 | 8 => s.alarmInput 2
    | 2 | 9 => s.linkLost
    | 7 => (shedStop s).modPwr fun w => { w with lockupN := true }
    | _ => s
/-- PLL_LOSS_OF_LOCK (R446). -/
def execPllLossOfLock (pll : BitVec 4) (s : State) : Out :=
  .next (if pll.toNat < 10 then clockFailure pll.toNat s else s)

/-! ### Pins (R452, R460) -/

/-- R452: signals whose state the part decides. -/
inductive Signal where
  | pmicOn | pwrgd | wakeN | resetN | perstN | sideband | spi | i3c | uartTxd | uartRxd | tap | tamperN | lockupN | almOutN | test
  /-- MCHc_DRST_N. -/
  | drstN (c : Nat)
  /-- TMR_IO[k]. -/
  | tmrIo (k : Nat)
  deriving DecidableEq, Repr
/-- R452: what the part does at a pin. -/
inductive PinUse where
  | unpowered | highZ | sampled | ignored | driven | low | high
  deriving DecidableEq, Repr
/-- R452: the boot stage that has been reached, 0 in reset. -/
def State.pinStage (s : State) : Nat := if s.pwr.up then s.pwr.stage else 0
/-- R436, R444, R452: what the part does at a pin now. -/
def State.pinUse (s : State) (x : Signal) : PinUse :=
  let taken := fun (k : Nat) (a b : PinUse) => if k ≤ s.pinStage then b else a
  match x with
  | .pmicOn => if s.pwr.pmicOn then .high else .low
  | .pwrgd => .sampled
  | .wakeN => if s.pwr.pmicOn then .ignored else .sampled
  | x =>
    if !s.pwr.pmicOn then .unpowered
    else match x with
      | .sideband | .i3c | .uartTxd => taken 3 .highZ .driven
      | .spi => if s.pwr.dead then .highZ else taken 2 .highZ .driven
      | .uartRxd => taken 3 .ignored .sampled
      | .tamperN => taken 1 .ignored .sampled
      | .lockupN => if s.pwr.lockupN then .low else .highZ
      | .almOutN => if s.alm.out then .low else .highZ
      | .drstN c => if (s.rd .memStat c).getLsbD 31 then .high else .low
      | .tmrIo k => if (s.rd .tmuPin 0 k).getLsbD 29 then .driven else .sampled
      | _ => .sampled
/-- R460: the IDCODE of the TAP: stepping B1, the build, the maker's identity, which the spec gives elsewhere, and 1. -/
def State.idcode (s : State) : BitVec 32 :=
  BitVec.ofNat 32 (2 ^ 28 + (if s.build.cells = 3 then 0x0048 else 0x0016) * 2 ^ 12 + Config.jedecId.toNat * 2 + 1)
/-- R460: an instruction of the TAP. -/
inductive TapInstr where
  | idcode | bypass | other (ir : Nat)
  deriving DecidableEq, Repr
/-- R460: what the TAP executes for an instruction: while debug is locked, BYPASS for all but IDCODE. -/
def State.tapRuns (s : State) (i : TapInstr) : TapInstr :=
  match i with
  | .other _ => if s.alm.dbg then i else .bypass
  | _ => i

end Sys2Proof.Machine
end

