-- ==== Sys2Proof/Machine/Dispatch.lean ====
section
/-!
DEFINITION. The dispatcher: each command and its meaning.
-/
namespace Sys2Proof.Machine

/-- What a command does to everything but the queue. -/
def exec (i : Instr) (s : State) : Host.Outcome State Fault Refusal :=
  match i with
  | .tick => Sys2Proof.Machine.execTick s
  | .pairWaitmaxExpiry p => Sys2Proof.Machine.execPairWaitmaxExpiry p s
  | .preemptionPoint c cc => Sys2Proof.Machine.execPreemptionPoint c cc s
  | .contextSwitch c => Sys2Proof.Machine.execContextSwitch c s
  | .contextPrefetch c => Sys2Proof.Machine.execContextPrefetch c s
  | .lockedLineReread c line => Sys2Proof.Machine.execLockedLineReread c line s
  | .slackViolation c => Sys2Proof.Machine.execSlackViolation c s
  | .preemptionLockup c => Sys2Proof.Machine.execPreemptionLockup c s
  | .tickAck n => Sys2Proof.Machine.execTickAck n s
  | .tickAckDeadline n => Sys2Proof.Machine.execTickAckDeadline n s
  | .inputCutoff => Sys2Proof.Machine.execInputCutoff s
  | .calibrationSlot ch => Sys2Proof.Machine.execCalibrationSlot ch s
  | .calibrationSlotEnd ch => Sys2Proof.Machine.execCalibrationSlotEnd ch s
  | .rotDataAccess w v => Sys2Proof.Machine.execRotDataAccess w v s
  | .slackClear w v => Sys2Proof.Machine.execSlackClear w v s
  | .registerWrite w vf off v bar size => Sys2Proof.Machine.execRegisterWrite w vf off v s bar size
  | .wadd c rd rs1 rs2 => Sys2Proof.Machine.execWadd c rd rs1 rs2 s
  | .wsub c rd rs1 rs2 => Sys2Proof.Machine.execWsub c rd rs1 rs2 s
  | .wmul c rd rs1 rs2 => Sys2Proof.Machine.execWmul c rd rs1 rs2 s
  | .wmulhu c rd rs1 rs2 => Sys2Proof.Machine.execWmulhu c rd rs1 rs2 s
  | .wmulhs c rd rs1 rs2 => Sys2Proof.Machine.execWmulhs c rd rs1 rs2 s
  | .divct c rd rs1 rs2 => Sys2Proof.Machine.execDivct c rd rs1 rs2 s
  | .remct c rd rs1 rs2 => Sys2Proof.Machine.execRemct c rd rs1 rs2 s
  | .div c rd rs1 rs2 => Sys2Proof.Machine.execDiv c rd rs1 rs2 s
  | .rem c rd rs1 rs2 => Sys2Proof.Machine.execRem c rd rs1 rs2 s
  | .and c rd rs1 rs2 => Sys2Proof.Machine.execAnd c rd rs1 rs2 s
  | .or c rd rs1 rs2 => Sys2Proof.Machine.execOr c rd rs1 rs2 s
  | .xor c rd rs1 rs2 => Sys2Proof.Machine.execXor c rd rs1 rs2 s
  | .andn c rd rs1 rs2 => Sys2Proof.Machine.execAndn c rd rs1 rs2 s
  | .shl c rd rs1 rs2 => Sys2Proof.Machine.execShl c rd rs1 rs2 s
  | .shr c rd rs1 rs2 => Sys2Proof.Machine.execShr c rd rs1 rs2 s
  | .sar c rd rs1 rs2 => Sys2Proof.Machine.execSar c rd rs1 rs2 s
  | .rol c rd rs1 rs2 => Sys2Proof.Machine.execRol c rd rs1 rs2 s
  | .ror c rd rs1 rs2 => Sys2Proof.Machine.execRor c rd rs1 rs2 s
  | .clz c rd rs1 => Sys2Proof.Machine.execClz c rd rs1 s
  | .ctz c rd rs1 => Sys2Proof.Machine.execCtz c rd rs1 s
  | .perm c rd rs1 rs2 => Sys2Proof.Machine.execPerm c rd rs1 rs2 s
  | .weq c rd rs1 rs2 => Sys2Proof.Machine.execWeq c rd rs1 rs2 s
  | .wltu c rd rs1 rs2 => Sys2Proof.Machine.execWltu c rd rs1 rs2 s
  | .wlts c rd rs1 rs2 => Sys2Proof.Machine.execWlts c rd rs1 rs2 s
  | .sel c rd rs1 rs2 => Sys2Proof.Machine.execSel c rd rs1 rs2 s
  | .mov c rd rs1 => Sys2Proof.Machine.execMov c rd rs1 s
  | .eq c rd rs1 rs2 => Sys2Proof.Machine.execEq c rd rs1 rs2 s
  | .waddi c rd rs1 imm => Sys2Proof.Machine.execWaddi c rd rs1 imm s
  | .andi c rd rs1 imm => Sys2Proof.Machine.execAndi c rd rs1 imm s
  | .ori c rd rs1 imm => Sys2Proof.Machine.execOri c rd rs1 imm s
  | .xori c rd rs1 imm => Sys2Proof.Machine.execXori c rd rs1 imm s
  | .shi c rd rs1 imm => Sys2Proof.Machine.execShi c rd rs1 imm s
  | .ldi c rd imm => Sys2Proof.Machine.execLdi c rd imm s
  | .ldsh c rd imm => Sys2Proof.Machine.execLdsh c rd imm s
  | .bfx c rd rs1 pos len1 => Sys2Proof.Machine.execBfx c rd rs1 pos len1 s
  | .bfxs c rd rs1 pos len1 => Sys2Proof.Machine.execBfxs c rd rs1 pos len1 s
  | .bfi c rd rs1 pos len1 => Sys2Proof.Machine.execBfi c rd rs1 pos len1 s
  | .tagof c rd rs1 => Sys2Proof.Machine.execTagof c rd rs1 s
  | .tchk c rs1 rs2 => Sys2Proof.Machine.execTchk c rs1 rs2 s
  | .ttst c rd rs1 rs2 => Sys2Proof.Machine.execTtst c rd rs1 rs2 s
  | .retag c rd rs1 rs2 => Sys2Proof.Machine.execRetag c rd rs1 rs2 s
  | .decl c rd rs1 => Sys2Proof.Machine.execDecl c rd rs1 s
  | .tchki c rs1 imm => Sys2Proof.Machine.execTchki c rs1 imm s
  | .ttsti c rd rs1 imm => Sys2Proof.Machine.execTtsti c rd rs1 imm s
  | .retagi c rd rs1 imm => Sys2Proof.Machine.execRetagi c rd rs1 imm s
  | .add c rd rs1 rs2 => Sys2Proof.Machine.execAdd c rd rs1 rs2 s
  | .sub c rd rs1 rs2 => Sys2Proof.Machine.execSub c rd rs1 rs2 s
  | .mul c rd rs1 rs2 => Sys2Proof.Machine.execMul c rd rs1 rs2 s
  | .cmp c rel rd rs1 rs2 => Sys2Proof.Machine.execCmp c rel rd rs1 rs2 s
  | .addi c rd rs1 imm => Sys2Proof.Machine.execAddi c rd rs1 imm s
  | .ld c rd rs1 imm => Sys2Proof.Machine.execLd c rd rs1 imm s
  | .st c rv rs1 imm => Sys2Proof.Machine.execSt c rv rs1 imm s
  | .ldr c rd rs1 imm => Sys2Proof.Machine.execLdr c rd rs1 imm s
  | .str c rv rs1 imm => Sys2Proof.Machine.execStr c rv rs1 imm s
  | .car c rd rs1 => Sys2Proof.Machine.execCar c rd rs1 s
  | .cdr c rd rs1 => Sys2Proof.Machine.execCdr c rd rs1 s
  | .setcar c rs1 rs2 => Sys2Proof.Machine.execSetcar c rs1 rs2 s
  | .setcdr c rs1 rs2 => Sys2Proof.Machine.execSetcdr c rs1 rs2 s
  | .cons c region rd rs1 rs2 => Sys2Proof.Machine.execCons c region rd rs1 rs2 s
  | .vref c rd rs1 rs2 => Sys2Proof.Machine.execVref c rd rs1 rs2 s
  | .vset c rv rs1 rs2 => Sys2Proof.Machine.execVset c rv rs1 rs2 s
  | .alloc c rd rs1 imm => Sys2Proof.Machine.execAlloc c rd rs1 imm s
  | .barrierRetry c => Sys2Proof.Machine.execBarrierRetry c s
  | .markBufferFlush c => Sys2Proof.Machine.execMarkBufferFlush c s
  | .br c disp => Sys2Proof.Machine.execBr c disp s
  | .call c disp => Sys2Proof.Machine.execCall c disp s
  | .beqz c rs1 disp => Sys2Proof.Machine.execBeqz c rs1 disp s
  | .bnez c rs1 disp => Sys2Proof.Machine.execBnez c rs1 disp s
  | .bltz c rs1 disp => Sys2Proof.Machine.execBltz c rs1 disp s
  | .bgez c rs1 disp => Sys2Proof.Machine.execBgez c rs1 disp s
  | .bgtz c rs1 disp => Sys2Proof.Machine.execBgtz c rs1 disp s
  | .blez c rs1 disp => Sys2Proof.Machine.execBlez c rs1 disp s
  | .bf c rs1 disp => Sys2Proof.Machine.execBf c rs1 disp s
  | .bt c rs1 disp => Sys2Proof.Machine.execBt c rs1 disp s
  | .btype c rs1 ty disp => Sys2Proof.Machine.execBtype c rs1 ty disp s
  | .jmpr c rs1 => Sys2Proof.Machine.execJmpr c rs1 s
  | .callr c rs1 => Sys2Proof.Machine.execCallr c rs1 s
  | .ret c => Sys2Proof.Machine.execRet c s
  | .loop c rs1 disp => Sys2Proof.Machine.execLoop c rs1 disp s
  | .blkcopy c rd rs1 rs2 => Sys2Proof.Machine.execBlkcopy c rd rs1 rs2 s
  | .blkcopyr c rd rs1 rs2 => Sys2Proof.Machine.execBlkcopyr c rd rs1 rs2 s
  | .scantag c rd rs1 rs2 => Sys2Proof.Machine.execScantag c rd rs1 rs2 s
  | .zrange c rs1 rs2 => Sys2Proof.Machine.execZrange c rs1 rs2 s
  | .zline c rs1 imm => Sys2Proof.Machine.execZline c rs1 imm s
  | .saveu c rs1 => Sys2Proof.Machine.execSaveu c rs1 s
  | .savel c rs1 => Sys2Proof.Machine.execSavel c rs1 s
  | .rstu c => Sys2Proof.Machine.execRstu c s
  | .rstl c => Sys2Proof.Machine.execRstl c s
  | .gate c n => Sys2Proof.Machine.execGate c n s
  | .gret c => Sys2Proof.Machine.execGret c s
  | .tret c => Sys2Proof.Machine.execTret c s
  | .fence c => Sys2Proof.Machine.execFence c s
  | .brk c => Sys2Proof.Machine.execBrk c s
  | .mfs c rd n => Sys2Proof.Machine.execMfs c rd n s
  | .mts c rs1 n => Sys2Proof.Machine.execMts c rs1 n s
  | .rqtake c rd => Sys2Proof.Machine.execRqtake c rd s
  | .rqpeek c rd => Sys2Proof.Machine.execRqpeek c rd s
  | .requestDeliveredWake c => Sys2Proof.Machine.execRequestDeliveredWake c s
  | .dirtyWrite c rs1 => Sys2Proof.Machine.execDirtyWrite c rs1 s
  | .iclr c rs1 => Sys2Proof.Machine.execIclr c rs1 s
  | .iset c rs1 => Sys2Proof.Machine.execIset c rs1 s
  | .tlbInvalidatePage c rs1 => Sys2Proof.Machine.execTlbInvalidatePage c rs1 s
  | .tlbInvalidateAsid c rs1 => Sys2Proof.Machine.execTlbInvalidateAsid c rs1 s
  | .tlbInvalidateAll c rs1 => Sys2Proof.Machine.execTlbInvalidateAll c rs1 s
  | .markFull c rs1 => Sys2Proof.Machine.execMarkFull c rs1 s
  | .markYoung c rs1 => Sys2Proof.Machine.execMarkYoung c rs1 s
  | .relocate c rs1 => Sys2Proof.Machine.execRelocate c rs1 s
  | .rkpin c rs1 => Sys2Proof.Machine.execRkpin c rs1 s
  | .rakeCounterClear c rs1 n => Sys2Proof.Machine.execRakeCounterClear c rs1 n s
  | .xput c n rs1 => Sys2Proof.Machine.execXput c n rs1 s
  | .xget c rd n => Sys2Proof.Machine.execXget c rd n s
  | .aesenc c => Sys2Proof.Machine.execAesenc c s
  | .aesdec c => Sys2Proof.Machine.execAesdec c s
  | .sha256c c => Sys2Proof.Machine.execSha256c c s
  | .gmul c => Sys2Proof.Machine.execGmul c s
  | .rng c => Sys2Proof.Machine.execRng c s
  | .xclr c => Sys2Proof.Machine.execXclr c s
  | .xjob c rd fn ecc => Sys2Proof.Machine.execXjob c rd fn s ecc
  | .sha2Job m j => Sys2Proof.Machine.execSha2Job m j s
  | .sha3Job m j => Sys2Proof.Machine.execSha3Job m j s
  | .hmacJob m j => Sys2Proof.Machine.execHmacJob m j s
  | .blake2bJob m j => Sys2Proof.Machine.execBlake2bJob m j s
  | .aesGcmSeal m j => Sys2Proof.Machine.execAesGcmSeal m j s
  | .aesGcmOpen m j => Sys2Proof.Machine.execAesGcmOpen m j s
  | .aesXts m j => Sys2Proof.Machine.execAesXts m j s
  | .keyWrapOut m j => Sys2Proof.Machine.execKeyWrapOut m j s
  | .keyUnwrapIn m j => Sys2Proof.Machine.execKeyUnwrapIn m j s
  | .objectWrap m j => Sys2Proof.Machine.execObjectWrap m j s
  | .objectUnwrap m j => Sys2Proof.Machine.execObjectUnwrap m j s
  | .ecdsaSign m j => Sys2Proof.Machine.execEcdsaSign m j s
  | .ecdsaVerify m j => Sys2Proof.Machine.execEcdsaVerify m j s
  | .ed25519Sign m j => Sys2Proof.Machine.execEd25519Sign m j s
  | .ed25519Verify m j => Sys2Proof.Machine.execEd25519Verify m j s
  | .ecdh m j => Sys2Proof.Machine.execEcdh m j s
  | .publicKeyDerivation m j => Sys2Proof.Machine.execPublicKeyDerivation m j s
  | .mlDsaSign m j => Sys2Proof.Machine.execMlDsaSign m j s
  | .mlDsaVerify m j => Sys2Proof.Machine.execMlDsaVerify m j s
  | .mlDsaKeyGeneration m j => Sys2Proof.Machine.execMlDsaKeyGeneration m j s
  | .mlKemEncapsulation m j => Sys2Proof.Machine.execMlKemEncapsulation m j s
  | .mlKemDecapsulation m j => Sys2Proof.Machine.execMlKemDecapsulation m j s
  | .mlKemKeyGeneration m j => Sys2Proof.Machine.execMlKemKeyGeneration m j s
  | .modularExponentiation m j => Sys2Proof.Machine.execModularExponentiation m j s
  | .argon2id m j => Sys2Proof.Machine.execArgon2id m j s
  | .drbgFill m j => Sys2Proof.Machine.execDrbgFill m j s
  | .jobStart m u => Sys2Proof.Machine.execJobStart m u s
  | .jobCompletion m j fc => Sys2Proof.Machine.execJobCompletion m j fc s
  | .mhfSlot n region real line => Sys2Proof.Machine.execMhfSlot n region real s line
  | .xwait c rd rs1 => Sys2Proof.Machine.execXwait c rd rs1 s
  | .kopen c rd rs1 => Sys2Proof.Machine.execKopen c rd rs1 s
  | .katt c rd rs1 rs2 => Sys2Proof.Machine.execKatt c rd rs1 rs2 s
  | .kinfo c rd rs1 => Sys2Proof.Machine.execKinfo c rd rs1 s
  | .kgen c rd rs1 => Sys2Proof.Machine.execKgen c rd rs1 s
  | .kdel c rs1 => Sys2Proof.Machine.execKdel c rs1 s
  | .krd c rs1 ecc => Sys2Proof.Machine.execKrd c rs1 s ecc
  | .twinKeyWaitApply p => Sys2Proof.Machine.execTwinKeyWaitApply p s
  | .trapEntry c cause info => Sys2Proof.Machine.execTrapEntry c cause info s
  | .interrupt c => Sys2Proof.Machine.execInterrupt c s
  | .timerExpiry c => Sys2Proof.Machine.execTimerExpiry c s
  | .backgroundSpill c => Sys2Proof.Machine.execBackgroundSpill c s
  | .walk c va acc => Sys2Proof.Machine.execWalk c va acc s
  | .walkReadReturn c => Sys2Proof.Machine.execWalkReadReturn c s
  | .deviceAccess c va wr => Sys2Proof.Machine.execDeviceAccess c va wr s
  | .microcodePreempt c fn addr rs1 rs2 imm => Sys2Proof.Machine.execMicrocodePreempt c fn addr s rs1 rs2 imm
  | .microcodePpViolation c cc => Sys2Proof.Machine.execMicrocodePpViolation c cc s
  | .controlStoreUe c addr single => Sys2Proof.Machine.execControlStoreUe c addr s single
  | .csdata2Write w m v => Sys2Proof.Machine.execCsdata2Write w m v s
  | .csLock w m v => Sys2Proof.Machine.execCsLock w m v s
  | .csMeasurementComplete m => Sys2Proof.Machine.execCsMeasurementComplete m s
  | .csfix w m v => Sys2Proof.Machine.execCsfix w m v s
  | .csppClear w m v => Sys2Proof.Machine.execCsppClear w m v s
  | .rakeLine m => Sys2Proof.Machine.execRakeLine m s
  | .markCompletion p side => Sys2Proof.Machine.execMarkCompletion p side s
  | .relocationCompletion p side => Sys2Proof.Machine.execRelocationCompletion p side s
  | .regionClearingComplete p side => Sys2Proof.Machine.execRegionClearingComplete p side s
  | .deferredRelocateFlip p side => Sys2Proof.Machine.execDeferredRelocateFlip p side s
  | .storePerform c => Sys2Proof.Machine.execStorePerform c s
  | .l1dFill c va acc parity => Sys2Proof.Machine.execL1dFill c va s acc parity
  | .prefetch c => Sys2Proof.Machine.execPrefetch c s
  | .l2Eviction m line => Sys2Proof.Machine.execL2Eviction m line s
  | .rds m line => Sys2Proof.Machine.execRds m line s
  | .rdx m line => Sys2Proof.Machine.execRdx m line s
  | .upg m line => Sys2Proof.Machine.execUpg m line s
  | .zown m line => Sys2Proof.Machine.execZown m line s
  | .wbd m line data => Sys2Proof.Machine.execWbd m line s data
  | .evc m line => Sys2Proof.Machine.execEvc m line s
  | .snps m line => Sys2Proof.Machine.execSnps m line s
  | .snpi m line => Sys2Proof.Machine.execSnpi m line s
  | .snpd m line => Sys2Proof.Machine.execSnpd m line s
  | .ack m line => Sys2Proof.Machine.execAck m line s
  | .ackd m line => Sys2Proof.Machine.execAckd m line s
  | .eif m line => Sys2Proof.Machine.execEif m line s
  | .lost m line => Sys2Proof.Machine.execLost m line s
  | .ncrd agent line => Sys2Proof.Machine.execNcrd agent line s
  | .ncwr agent line data => Sys2Proof.Machine.execNcwr agent line data s
  | .ncwrp agent line mask data => Sys2Proof.Machine.execNcwrp agent line mask data s
  | .cas c => Sys2Proof.Machine.execCas c s
  | .aor c => Sys2Proof.Machine.execAor c s
  | .grant q line => Sys2Proof.Machine.execGrant q line s
  | .wback m line => Sys2Proof.Machine.execWback m line s
  | .retry q line => Sys2Proof.Machine.execRetry q line s
  | .retryBackoffExpiry q line => Sys2Proof.Machine.execRetryBackoffExpiry q line s
  | .homeResponseTimeout line => Sys2Proof.Machine.execHomeResponseTimeout line s
  | .l2DataUe m pa symbols => Sys2Proof.Machine.execL2DataUe m pa s symbols
  | .l2TagParity m way set => Sys2Proof.Machine.execL2TagParity m way set s
  | .maintL2Clean n => Sys2Proof.Machine.execMaintL2Clean n s
  | .maintScratchClear n => Sys2Proof.Machine.execMaintScratchClear n s
  | .maintDirectoryInit n => Sys2Proof.Machine.execMaintDirectoryInit n s
  | .maintBankExclusion n => Sys2Proof.Machine.execMaintBankExclusion n s
  | .maintDdrRetraining n => Sys2Proof.Machine.execMaintDdrRetraining n s
  | .maintSelftest n found => Sys2Proof.Machine.execMaintSelftest n found s
  | .maintOpComplete n => Sys2Proof.Machine.execMaintOpComplete n s
  | .dramReadReturn line err => Sys2Proof.Machine.execDramReadReturn line err s
  | .dramReread line err => Sys2Proof.Machine.execDramReread line err s
  | .channelTimeout ch => Sys2Proof.Machine.execChannelTimeout ch s
  | .refresh ch rank => Sys2Proof.Machine.execRefresh ch rank s
  | .flipMaskWrite line => Sys2Proof.Machine.execFlipMaskWrite line s
  | .regionFillStart n => Sys2Proof.Machine.execRegionFillStart n s
  | .regionFillComplete n => Sys2Proof.Machine.execRegionFillComplete n s
  | .fillRequest w n v => Sys2Proof.Machine.execFillRequest w n v s
  | .hoeRead n err err2 => Sys2Proof.Machine.execHoeRead n err err2 s
  | .hoeLapComplete n => Sys2Proof.Machine.execHoeLapComplete n s
  | .drbgReseed => Sys2Proof.Machine.execDrbgReseed s
  | .trngHealthFailure => Sys2Proof.Machine.execTrngHealthFailure s
  | .trngStartupPass => Sys2Proof.Machine.execTrngStartupPass s
  | .coprocessorInternalError m u => Sys2Proof.Machine.execCoprocessorInternalError m u s
  | .sqTailDoorbell vf q v => Sys2Proof.Machine.execSqTailDoorbell vf q v s
  | .cqHeadDoorbell vf q v => Sys2Proof.Machine.execCqHeadDoorbell vf q v s
  | .qpEnable w vf q v => Sys2Proof.Machine.execQpEnable w vf q v s
  | .qpDisable w vf q v => Sys2Proof.Machine.execQpDisable w vf q v s
  | .commandFetch vf q cmd input dma => Sys2Proof.Machine.execCommandFetch vf q cmd input dma s
  | .arenaWaitFetch vf q => Sys2Proof.Machine.execArenaWaitFetch vf q s
  | .invoke vf q => Sys2Proof.Machine.execInvoke vf q s
  | .cancel vf q => Sys2Proof.Machine.execCancel vf q s
  | .keyImportWrapped vf q => Sys2Proof.Machine.execKeyImportWrapped vf q s
  | .keyExportWrapped vf q ecc => Sys2Proof.Machine.execKeyExportWrapped vf q s ecc
  | .keyDestroy vf q => Sys2Proof.Machine.execKeyDestroy vf q s
  | .random vf q => Sys2Proof.Machine.execRandom vf q s
  | .ping vf q => Sys2Proof.Machine.execPing vf q s
  | .rqdone w m v => Sys2Proof.Machine.execRqdone w m v s
  | .flr vf => Sys2Proof.Machine.execFlr vf s
  | .linkDown => Sys2Proof.Machine.execLinkDown s
  | .perstN => Sys2Proof.Machine.execPerstN s
  | .identify => Sys2Proof.Machine.execIdentify s
  | .getLog => Sys2Proof.Machine.execGetLog s
  | .setFeature => Sys2Proof.Machine.execSetFeature s
  | .getFeature => Sys2Proof.Machine.execGetFeature s
  | .fwStage flashOk => Sys2Proof.Machine.execFwStage flashOk s
  | .fwCommit => Sys2Proof.Machine.execFwCommit s
  | .partCreate => Sys2Proof.Machine.execPartCreate s
  | .partDestroy => Sys2Proof.Machine.execPartDestroy s
  | .partStop => Sys2Proof.Machine.execPartStop s
  | .partStopComplete p => Sys2Proof.Machine.execPartStopComplete p s
  | .partStart => Sys2Proof.Machine.execPartStart s
  | .partConfig => Sys2Proof.Machine.execPartConfig s
  | .imageLoad => Sys2Proof.Machine.execImageLoad s
  | .partRepair => Sys2Proof.Machine.execPartRepair s
  | .planWrite => Sys2Proof.Machine.execPlanWrite s
  | .cellStop => Sys2Proof.Machine.execCellStop s
  | .cellRestartTimeout n => Sys2Proof.Machine.execCellRestartTimeout n s
  | .cellStart => Sys2Proof.Machine.execCellStart s
  | .monRead => Sys2Proof.Machine.execMonRead s
  | .monClear => Sys2Proof.Machine.execMonClear s
  | .setPolicy => Sys2Proof.Machine.execSetPolicy s
  | .liftFreeze => Sys2Proof.Machine.execLiftFreeze s
  | .alarmClear => Sys2Proof.Machine.execAlarmClear s
  | .tokenReprovision => Sys2Proof.Machine.execTokenReprovision s
  | .tokenDebugUnlock => Sys2Proof.Machine.execTokenDebugUnlock s
  | .programGroup => Sys2Proof.Machine.execProgramGroup s
  | .sleep => Sys2Proof.Machine.execSleep s
  | .zeroize => Sys2Proof.Machine.execZeroize s
  | .adminCompletionPost => Sys2Proof.Machine.execAdminCompletionPost s
  | .tmuStart w v => Sys2Proof.Machine.execTmuStart w v s
  | .tmuIncrement ch => Sys2Proof.Machine.execTmuIncrement ch s
  | .tmuPinSample k level => Sys2Proof.Machine.execTmuPinSample k level s
  | .captureEdge ch leading => Sys2Proof.Machine.execCaptureEdge ch leading s
  | .cntLoRead w ch cmp => Sys2Proof.Machine.execCntLoRead w ch cmp s
  | .cntHiRead w ch cmp => Sys2Proof.Machine.execCntHiRead w ch cmp s
  | .captureLockRead w ch => Sys2Proof.Machine.execCaptureLockRead w ch s
  | .captureUnlockRead w ch => Sys2Proof.Machine.execCaptureUnlockRead w ch s
  | .cmploWrite w ch v => Sys2Proof.Machine.execCmploWrite w ch v s
  | .cmphiWrite w ch v => Sys2Proof.Machine.execCmphiWrite w ch v s
  | .mailboxSend w k v => Sys2Proof.Machine.execMailboxSend w k v s
  | .mailboxAck w k v => Sys2Proof.Machine.execMailboxAck w k v s
  | .mailboxOutPlace k => Sys2Proof.Machine.execMailboxOutPlace k s
  | .echo => Sys2Proof.Machine.execEcho s
  | .noteLevel => Sys2Proof.Machine.execNoteLevel s
  | .hello n => Sys2Proof.Machine.execHello n s
  | .wardenAck n => Sys2Proof.Machine.execWardenAck n s
  | .wardenLog n => Sys2Proof.Machine.execWardenLog n s
  | .thrClear n => Sys2Proof.Machine.execThrClear n s
  | .wardenTimeout n => Sys2Proof.Machine.execWardenTimeout n s
  | .sensorConversion temps volts clks => Sys2Proof.Machine.execSensorConversion temps volts clks s
  | .eventLogTake => Sys2Proof.Machine.execEventLogTake s
  | .logFlashProgram ok => Sys2Proof.Machine.execLogFlashProgram ok s
  | .monSnapshot w v => Sys2Proof.Machine.execMonSnapshot w v s
  | .monClr w hi v => Sys2Proof.Machine.execMonClr w hi v s
  | .monCfgWrite w m v => Sys2Proof.Machine.execMonCfgWrite w m v s
  | .monitorSample m v => Sys2Proof.Machine.execMonitorSample m v s
  | .getSensors => Sys2Proof.Machine.execGetSensors s
  | .bmcGetLog first count => Sys2Proof.Machine.execBmcGetLog first count s
  | .getMon m => Sys2Proof.Machine.execGetMon m s
  | .getStatus => Sys2Proof.Machine.execGetStatus s
  | .mctpControl op arg => Sys2Proof.Machine.execMctpControl op arg s
  | .uartInput b => Sys2Proof.Machine.execUartInput b s
  | .shedLockup => Sys2Proof.Machine.execShedLockup s
  | .alarmDecision src also => Sys2Proof.Machine.execAlarmDecision src s also
  | .tamperSample k low => Sys2Proof.Machine.execTamperSample k low s
  | .zeroizationComplete => Sys2Proof.Machine.execZeroizationComplete s
  | .locksBurn => Sys2Proof.Machine.execLocksBurn s
  | .locksBurnComplete bad => Sys2Proof.Machine.execLocksBurnComplete s bad
  | .latchClear w v => Sys2Proof.Machine.execLatchClear w v s
  | .dbgreq w v => Sys2Proof.Machine.execDbgreq w v s
  | .almCtlClear w v => Sys2Proof.Machine.execAlmCtlClear w v s
  | .lift w v => Sys2Proof.Machine.execLift w v s
  | .window w v => Sys2Proof.Machine.execWindow w v s
  | .program w v => Sys2Proof.Machine.execProgram w v s
  | .burnSvn w v => Sys2Proof.Machine.execBurnSvn w v s
  | .burnProv w v => Sys2Proof.Machine.execBurnProv w v s
  | .reload w v => Sys2Proof.Machine.execReload w v s
  | .sbkOpComplete badBits verifyOk => Sys2Proof.Machine.execSbkOpComplete badBits verifyOk s
  | .fstop w m v => Sys2Proof.Machine.execFstop w m v s
  | .elogrdWrite w n v => Sys2Proof.Machine.execElogrdWrite w n v s
  | .voterDisagreement unit => Sys2Proof.Machine.execVoterDisagreement unit s
  | .vddAonRise => Sys2Proof.Machine.execVddAonRise s
  | .wakeNFall ms => Sys2Proof.Machine.execWakeNFall ms s
  | .pwrgdRise test0 test1 => Sys2Proof.Machine.execPwrgdRise s test0 test1
  | .pwrgdFall ioInRange => Sys2Proof.Machine.execPwrgdFall ioInRange s
  | .pwrgdTimeout => Sys2Proof.Machine.execPwrgdTimeout s
  | .resetN => Sys2Proof.Machine.execResetN s
  | .pwrReset w v => Sys2Proof.Machine.execPwrReset w v s
  | .trstN => Sys2Proof.Machine.execTrstN s
  | .bootStageComplete r => Sys2Proof.Machine.execBootStageComplete r s
  | .helloWaitTimeout n => Sys2Proof.Machine.execHelloWaitTimeout n s
  | .ready numVf => Sys2Proof.Machine.execReady s numVf
  | .pmicDrop => Sys2Proof.Machine.execPmicDrop s
  | .pllLossOfLock pll => Sys2Proof.Machine.execPllLossOfLock pll s
  | .inlineOperationComplete c => Sys2Proof.Machine.execInlineOperationComplete c s
  | .repairCopyComplete p => Sys2Proof.Machine.execRepairCopyComplete p s
  | .alarmSourceInactive src => Sys2Proof.Machine.execAlarmSourceInactive src s
  | .perstNRelease => Sys2Proof.Machine.execPerstNRelease s
  | .linkUp numVf noBm => Sys2Proof.Machine.execLinkUp s numVf noBm
  | .mainPllLockTimeout => Sys2Proof.Machine.execMainPllLockTimeout s

end Sys2Proof.Machine
end

