-- ==== Sys2Proof/WellFormed.lean ====
section
/-!
DEFINITION. Well-formed commands: a command names a unit that the build has (R4, R10).
-/
namespace Sys2Proof

/-- What a command acts on. -/
inductive Target where
  /-- The block itself, or what the command's own checks bound. -/
  | block
  | core (c : Nat)
  | clu (m : Nat)
  | cell (n : Nat)
  | chan (ch : Nat)
  /-- A DDR rank of a channel. -/
  | rank (ch rank : Nat)
  | part (p : Nat)
  /-- A function of the endpoint: 0 the PF. -/
  | func (vf : Nat)
  /-- A queue pair of a function. -/
  | queue (vf q : Nat)
  /-- A queue pair of a VF. -/
  | vfq (vf q : Nat)
  | mailbox (k : Nat)
  /-- A channel, or a pin, of the timer unit. -/
  | tch (ch : Nat)
  | tpin (k : Nat)
  | tamper (k : Nat)
  | mon (m : Nat)
  /-- A physical line. -/
  | line (line : Nat)
  /-- A non-caching agent (R259) and the line it asks for. -/
  | agent (agent : BitVec 4) (line : Nat)
  /-- The unit of a voter. -/
  | voter (unit : BitVec 2)
  /-- A PLL or reference clock. -/
  | pll (pll : BitVec 4)
  deriving DecidableEq, Repr

/-- What a requester of a home names. -/
def Asker.target (q : Asker) (line : Nat) : Target :=
  match q with
  | .clu m => .clu m
  | .agent a => .agent a line
  | .core c => .core c

/-- The build has the target. -/
def Target.present (b : Build) : Target → Bool
  | .block => true
  | .core c => c < b.cores
  | .clu m => m < b.clusters
  | .cell n => n < b.cells
  | .chan ch => ch < b.channels
  | .rank ch r => ch < b.channels && r < 4
  | .part p => p < b.parts
  | .func vf => vf ≤ b.parts
  | .queue vf q => vf ≤ b.parts && q < 16
  | .vfq vf q => vf != 0 && vf ≤ b.parts && q < 16
  | .mailbox k => k < b.cells + 1
  | .tch ch => ch < 24
  | .tpin k => k < 8
  | .tamper k => k < 4
  | .mon m => m < 48
  | .line l => l / 2 ^ 34 < b.cells
  | .agent a l => 4 ≤ a.toNat && a.toNat ≤ 13 && l / 2 ^ 34 < b.cells
  | .voter u => u != 3
  | .pll p => p.toNat < 10

/-- What each command acts on. -/
def Instr.target : Instr → Target
  | .tick => .block
  | .pairWaitmaxExpiry p => .part p
  | .preemptionPoint c _ => .core c
  | .contextSwitch c => .core c
  | .contextPrefetch c => .core c
  | .lockedLineReread c _ => .core c
  | .slackViolation c => .core c
  | .preemptionLockup c => .core c
  | .tickAck n => .cell n
  | .tickAckDeadline n => .cell n
  | .inputCutoff => .block
  | .calibrationSlot ch => .chan ch
  | .calibrationSlotEnd ch => .chan ch
  | .rotDataAccess _ _ => .block
  | .slackClear _ _ => .block
  | .registerWrite _ vf _ _ _ _ => .func vf
  | .wadd c _ _ _ => .core c
  | .wsub c _ _ _ => .core c
  | .wmul c _ _ _ => .core c
  | .wmulhu c _ _ _ => .core c
  | .wmulhs c _ _ _ => .core c
  | .divct c _ _ _ => .core c
  | .remct c _ _ _ => .core c
  | .div c _ _ _ => .core c
  | .rem c _ _ _ => .core c
  | .and c _ _ _ => .core c
  | .or c _ _ _ => .core c
  | .xor c _ _ _ => .core c
  | .andn c _ _ _ => .core c
  | .shl c _ _ _ => .core c
  | .shr c _ _ _ => .core c
  | .sar c _ _ _ => .core c
  | .rol c _ _ _ => .core c
  | .ror c _ _ _ => .core c
  | .clz c _ _ => .core c
  | .ctz c _ _ => .core c
  | .perm c _ _ _ => .core c
  | .weq c _ _ _ => .core c
  | .wltu c _ _ _ => .core c
  | .wlts c _ _ _ => .core c
  | .sel c _ _ _ => .core c
  | .mov c _ _ => .core c
  | .eq c _ _ _ => .core c
  | .waddi c _ _ _ => .core c
  | .andi c _ _ _ => .core c
  | .ori c _ _ _ => .core c
  | .xori c _ _ _ => .core c
  | .shi c _ _ _ => .core c
  | .ldi c _ _ => .core c
  | .ldsh c _ _ => .core c
  | .bfx c _ _ _ _ => .core c
  | .bfxs c _ _ _ _ => .core c
  | .bfi c _ _ _ _ => .core c
  | .tagof c _ _ => .core c
  | .tchk c _ _ => .core c
  | .ttst c _ _ _ => .core c
  | .retag c _ _ _ => .core c
  | .decl c _ _ => .core c
  | .tchki c _ _ => .core c
  | .ttsti c _ _ _ => .core c
  | .retagi c _ _ _ => .core c
  | .add c _ _ _ => .core c
  | .sub c _ _ _ => .core c
  | .mul c _ _ _ => .core c
  | .cmp c _ _ _ _ => .core c
  | .addi c _ _ _ => .core c
  | .ld c _ _ _ => .core c
  | .st c _ _ _ => .core c
  | .ldr c _ _ _ => .core c
  | .str c _ _ _ => .core c
  | .car c _ _ => .core c
  | .cdr c _ _ => .core c
  | .setcar c _ _ => .core c
  | .setcdr c _ _ => .core c
  | .cons c _ _ _ _ => .core c
  | .vref c _ _ _ => .core c
  | .vset c _ _ _ => .core c
  | .alloc c _ _ _ => .core c
  | .barrierRetry c => .core c
  | .markBufferFlush c => .core c
  | .br c _ => .core c
  | .call c _ => .core c
  | .beqz c _ _ => .core c
  | .bnez c _ _ => .core c
  | .bltz c _ _ => .core c
  | .bgez c _ _ => .core c
  | .bgtz c _ _ => .core c
  | .blez c _ _ => .core c
  | .bf c _ _ => .core c
  | .bt c _ _ => .core c
  | .btype c _ _ _ => .core c
  | .jmpr c _ => .core c
  | .callr c _ => .core c
  | .ret c => .core c
  | .loop c _ _ => .core c
  | .blkcopy c _ _ _ => .core c
  | .blkcopyr c _ _ _ => .core c
  | .scantag c _ _ _ => .core c
  | .zrange c _ _ => .core c
  | .zline c _ _ => .core c
  | .saveu c _ => .core c
  | .savel c _ => .core c
  | .rstu c => .core c
  | .rstl c => .core c
  | .gate c _ => .core c
  | .gret c => .core c
  | .tret c => .core c
  | .fence c => .core c
  | .brk c => .core c
  | .mfs c _ _ => .core c
  | .mts c _ _ => .core c
  | .rqtake c _ => .core c
  | .rqpeek c _ => .core c
  | .requestDeliveredWake c => .core c
  | .dirtyWrite c _ => .core c
  | .iclr c _ => .core c
  | .iset c _ => .core c
  | .tlbInvalidatePage c _ => .core c
  | .tlbInvalidateAsid c _ => .core c
  | .tlbInvalidateAll c _ => .core c
  | .markFull c _ => .core c
  | .markYoung c _ => .core c
  | .relocate c _ => .core c
  | .rkpin c _ => .core c
  | .rakeCounterClear c _ _ => .core c
  | .xput c _ _ => .core c
  | .xget c _ _ => .core c
  | .aesenc c => .core c
  | .aesdec c => .core c
  | .sha256c c => .core c
  | .gmul c => .core c
  | .rng c => .core c
  | .xclr c => .core c
  | .xjob c _ _ _ => .core c
  | .sha2Job m _ => .clu m
  | .sha3Job m _ => .clu m
  | .hmacJob m _ => .clu m
  | .blake2bJob m _ => .clu m
  | .aesGcmSeal m _ => .clu m
  | .aesGcmOpen m _ => .clu m
  | .aesXts m _ => .clu m
  | .keyWrapOut m _ => .clu m
  | .keyUnwrapIn m _ => .clu m
  | .objectWrap m _ => .clu m
  | .objectUnwrap m _ => .clu m
  | .ecdsaSign m _ => .clu m
  | .ecdsaVerify m _ => .clu m
  | .ed25519Sign m _ => .clu m
  | .ed25519Verify m _ => .clu m
  | .ecdh m _ => .clu m
  | .publicKeyDerivation m _ => .clu m
  | .mlDsaSign m _ => .clu m
  | .mlDsaVerify m _ => .clu m
  | .mlDsaKeyGeneration m _ => .clu m
  | .mlKemEncapsulation m _ => .clu m
  | .mlKemDecapsulation m _ => .clu m
  | .mlKemKeyGeneration m _ => .clu m
  | .modularExponentiation m _ => .clu m
  | .argon2id m _ => .clu m
  | .drbgFill m _ => .clu m
  | .jobStart m _ => .clu m
  | .jobCompletion m _ _ => .clu m
  | .mhfSlot n _ _ _ => .cell n
  | .xwait c _ _ => .core c
  | .kopen c _ _ => .core c
  | .katt c _ _ _ => .core c
  | .kinfo c _ _ => .core c
  | .kgen c _ _ => .core c
  | .kdel c _ => .core c
  | .krd c _ _ => .core c
  | .twinKeyWaitApply p => .part p
  | .trapEntry c _ _ => .core c
  | .interrupt c => .core c
  | .timerExpiry c => .core c
  | .backgroundSpill c => .core c
  | .walk c _ _ => .core c
  | .walkReadReturn c => .core c
  | .deviceAccess c _ _ => .core c
  | .microcodePreempt c _ _ _ _ _ => .core c
  | .microcodePpViolation c _ => .core c
  | .controlStoreUe c _ _ => .core c
  | .csdata2Write _ m _ => .clu m
  | .csLock _ m _ => .clu m
  | .csMeasurementComplete m => .clu m
  | .csfix _ m _ => .clu m
  | .csppClear _ m _ => .clu m
  | .rakeLine m => .clu m
  | .markCompletion p _ => .part p
  | .relocationCompletion p _ => .part p
  | .regionClearingComplete p _ => .part p
  | .deferredRelocateFlip p _ => .part p
  | .storePerform c => .core c
  | .l1dFill c _ _ _ => .core c
  | .prefetch c => .core c
  | .l2Eviction m _ => .clu m
  | .rds m _ => .clu m
  | .rdx m _ => .clu m
  | .upg m _ => .clu m
  | .zown m _ => .clu m
  | .wbd m _ _ => .clu m
  | .evc m _ => .clu m
  | .snps m _ => .clu m
  | .snpi m _ => .clu m
  | .snpd m _ => .clu m
  | .ack m _ => .clu m
  | .ackd m _ => .clu m
  | .eif m _ => .clu m
  | .lost m _ => .clu m
  | .ncrd agent line => .agent agent line
  | .ncwr agent line _ => .agent agent line
  | .ncwrp agent line _ _ => .agent agent line
  | .cas c => .core c
  | .aor c => .core c
  | .grant q line => q.target line
  | .wback m _ => .clu m
  | .retry q line => q.target line
  | .retryBackoffExpiry q line => q.target line
  | .homeResponseTimeout line => .line line
  | .l2DataUe m _ _ => .clu m
  | .l2TagParity m _ _ => .clu m
  | .maintL2Clean n => .cell n
  | .maintScratchClear n => .cell n
  | .maintDirectoryInit n => .cell n
  | .maintBankExclusion n => .cell n
  | .maintDdrRetraining n => .cell n
  | .maintSelftest n _ => .cell n
  | .maintOpComplete n => .cell n
  | .dramReadReturn line _ => .line line
  | .dramReread line _ => .line line
  | .channelTimeout ch => .chan ch
  | .refresh ch rank => .rank ch rank
  | .flipMaskWrite _ => .block
  | .regionFillStart n => .cell n
  | .regionFillComplete n => .cell n
  | .fillRequest _ n _ => .cell n
  | .hoeRead n _ _ => .cell n
  | .hoeLapComplete n => .cell n
  | .drbgReseed => .block
  | .trngHealthFailure => .block
  | .trngStartupPass => .block
  | .coprocessorInternalError m _ => .clu m
  | .sqTailDoorbell vf q _ => .queue vf q
  | .cqHeadDoorbell vf q _ => .queue vf q
  | .qpEnable _ vf q _ => .queue vf q
  | .qpDisable _ vf q _ => .queue vf q
  | .commandFetch vf q _ _ _ => .queue vf q
  | .arenaWaitFetch vf q => .queue vf q
  | .invoke vf q => .vfq vf q
  | .cancel vf q => .vfq vf q
  | .keyImportWrapped vf q => .vfq vf q
  | .keyExportWrapped vf q _ => .vfq vf q
  | .keyDestroy vf q => .vfq vf q
  | .random vf q => .vfq vf q
  | .ping vf q => .vfq vf q
  | .rqdone _ m _ => .clu m
  | .flr vf => .func vf
  | .linkDown => .block
  | .perstN => .block
  | .identify => .block
  | .getLog => .block
  | .setFeature => .block
  | .getFeature => .block
  | .fwStage _ => .block
  | .fwCommit => .block
  | .partCreate => .block
  | .partDestroy => .block
  | .partStop => .block
  | .partStopComplete p => .part p
  | .partStart => .block
  | .partConfig => .block
  | .imageLoad => .block
  | .partRepair => .block
  | .planWrite => .block
  | .cellStop => .block
  | .cellRestartTimeout n => .cell n
  | .cellStart => .block
  | .monRead => .block
  | .monClear => .block
  | .setPolicy => .block
  | .liftFreeze => .block
  | .alarmClear => .block
  | .tokenReprovision => .block
  | .tokenDebugUnlock => .block
  | .programGroup => .block
  | .sleep => .block
  | .zeroize => .block
  | .adminCompletionPost => .block
  | .tmuStart _ _ => .block
  | .tmuIncrement ch => .tch ch
  | .tmuPinSample k _ => .tpin k
  | .captureEdge ch _ => .tch ch
  | .cntLoRead _ ch _ => .tch ch
  | .cntHiRead _ ch _ => .tch ch
  | .captureLockRead _ ch => .tch ch
  | .captureUnlockRead _ ch => .tch ch
  | .cmploWrite _ ch _ => .tch ch
  | .cmphiWrite _ ch _ => .tch ch
  | .mailboxSend _ k _ => .mailbox k
  | .mailboxAck _ k _ => .mailbox k
  | .mailboxOutPlace k => .mailbox k
  | .echo => .block
  | .noteLevel => .block
  | .hello n => .cell n
  | .wardenAck n => .cell n
  | .wardenLog n => .cell n
  | .thrClear n => .cell n
  | .wardenTimeout n => .cell n
  | .sensorConversion _ _ _ => .block
  | .eventLogTake => .block
  | .logFlashProgram _ => .block
  | .monSnapshot _ _ => .block
  | .monClr _ _ _ => .block
  | .monCfgWrite _ m _ => .mon m
  | .monitorSample m _ => .mon m
  | .getSensors => .block
  | .bmcGetLog _ _ => .block
  | .getMon _ => .block
  | .getStatus => .block
  | .mctpControl _ _ => .block
  | .uartInput _ => .block
  | .shedLockup => .block
  | .alarmDecision _ _ => .block
  | .tamperSample k _ => .tamper k
  | .zeroizationComplete => .block
  | .locksBurn => .block
  | .locksBurnComplete _ => .block
  | .latchClear _ _ => .block
  | .dbgreq _ _ => .block
  | .almCtlClear _ _ => .block
  | .lift _ _ => .block
  | .window _ _ => .block
  | .program _ _ => .block
  | .burnSvn _ _ => .block
  | .burnProv _ _ => .block
  | .reload _ _ => .block
  | .sbkOpComplete _ _ => .block
  | .fstop _ m _ => .clu m
  | .elogrdWrite _ n _ => .cell n
  | .voterDisagreement unit => .voter unit
  | .vddAonRise => .block
  | .wakeNFall _ => .block
  | .pwrgdRise _ _ => .block
  | .pwrgdFall _ => .block
  | .pwrgdTimeout => .block
  | .resetN => .block
  | .pwrReset _ _ => .block
  | .trstN => .block
  | .bootStageComplete _ => .block
  | .helloWaitTimeout n => .cell n
  | .ready _ => .block
  | .pmicDrop => .block
  | .pllLossOfLock pll => .pll pll
  | .inlineOperationComplete c => .core c
  | .repairCopyComplete p => .part p
  | .alarmSourceInactive _ => .block
  | .perstNRelease => .block
  | .linkUp _ _ => .block
  | .mainPllLockTimeout => .block

/-- A command is well formed for a build: what it acts on is there. -/
def Instr.wf (b : Build) (i : Instr) : Bool := i.target.present b

end Sys2Proof
end

