-- ==== Sys2Proof/Safety.lean ====
section
/-!
DEFINITION. What a safe run of the block is: every command that waits names a unit of the build, and no step stops. And the
terms in which claims speak of an instruction that completes: when a core executes its next instruction, and the state in which
it ends.
-/
namespace Sys2Proof.Machine

/-- Every waiting command is well formed. -/
def State.queueWf (s : State) : Prop := ∀ c ∈ s.pending, c.wf s.build = true

/-- An outcome is a next state. -/
def goesOn (o : Out) : Prop := ∃ t, o = .next t

/-- A step of the block that does not stop. -/
def State.stepsOn (s : State) : Prop := goesOn (step s)

/-- Memory is in canonical form: rising addresses, and no entry that reads as an address that is not listed. -/
def State.memWf (s : State) : Bool := Tab.wf (fun _ => Word.empty) s.mem

/-! ### Instructions that complete -/

/-- The core without what an instruction of the plain kind changes: general and special registers, the PC, what it waits for,
whether a trap entry is pending, and where a stopped sequence resumes. -/
def Core.rest (k : Core) : Core := { k with regs := [], spr := [], pc := 0, wait := .none, entering := false, ucResume := 0 }

/-- A core that executes its next instruction: it can issue, no flush of its mark buffer (R155) and no single-step trap (R179)
waits, and no instruction breakpoint stops it first. -/
def State.runs (s : State) (c : Nat) : Prop :=
  c < s.build.cores ∧ s.canIssue c = true ∧ (s.core c).flushDue = false ∧ (s.core c).stepPend = false ∧ s.ibpHit c = none

/-- R117, R121, R124: the microcode of core `c` that begins at the entry `a` reaches its path's own effect: no word before it is
latched as bad, locks the core up (SEQ 7) or traps (SEQ 4). -/
def State.microAt (s : State) (c a : Nat) : Prop := (s.clu (c / 4)).ucEntry a = none

/-- R119, R121: the slow path of a generic operation enters its microcode, at `a` or where a stopped sequence resumes. -/
def State.slowAt (s : State) (c a : Nat) : Prop := s.microAt c (if (s.core c).ucStopped = true then 0x00C0 else a)

/-- The state in which an instruction's body runs. -/
def State.begun (s : State) (c : Nat) : State := s.modCore c fun k => { k with entering := false }

/-- The visible register `r` of core `c`. -/
def State.reg (s : State) (c : Nat) (r : Reg) : Word := (s.core c).get r
/-- The end of an instruction that changed its core by `f` and goes where `fl` says. -/
def State.ends (s : State) (c : Nat) (f : Core → Core) (fl : Flow) : State :=
  ((s.begun c).modCore c f).retire c (s.core c) fl
/-- The end of an instruction that wrote `w` to `rd`. -/
def State.wrote (s : State) (c : Nat) (rd : Reg) (w : Word) : State := s.ends c (fun k => k.put rd w) .seq
/-- The end, begun in `s`, of an instruction that wrote `w` to `rd` in the state `t` that its accesses left. -/
def State.wroteIn (s t : State) (c : Nat) (rd : Reg) (w : Word) : State :=
  (t.modCore c fun k => k.put rd w).retire c (s.core c) .seq

/-! ### Accesses to memory -/

/-- An access of core `c` with the rights of level `lvl` reaches the physical word `pa` under the leaf `e` and leaves `t`; the
page is no device page. -/
def State.maps (s : State) (c lvl : Nat) (a : Access) (va : Nat) (e : TlbEnt) (pa : Nat) (t : State) : Prop :=
  s.translate c lvl a va = (.ok e pa, t) ∧ e.dev = false ∧ t.dataReach (t.build.cellOfCore c) pa = true
/-- A load with the rights of level `lvl` finds the word `w`. -/
def State.findsAt (s : State) (c lvl va : Nat) (e : TlbEnt) (pa : Nat) (w : Word) (t : State) : Prop :=
  ∃ u, s.maps c lvl .load va e pa u ∧ u.coreRead c pa = some (w, t)
/-- A load of core `c` at `va` at its level finds the word `w`. -/
def State.finds (s : State) (c va : Nat) (e : TlbEnt) (pa : Nat) (w : Word) (t : State) : Prop :=
  s.findsAt c (s.core c).level va e pa w t

/-- R82, R154: nothing stops or changes the loaded word `w`: it is well formed, it comes from no X page, it is no `WEAK` of a
pair and no `FWD` below level T, a pointer has the good colour, and no data watch matches. -/
def State.takes (s : State) (c va : Nat) (e : TlbEnt) (w : Word) : Prop :=
  w.isPoison = false ∧ w.malformed = false ∧ e.x = false ∧ (w.ty = tyWEAK → s.pairedOn c = false) ∧
    (w.isFwd = true → 2 ≤ (s.core c).level) ∧ (∀ r, s.rkOn c = some r → w.isPtr = true → w.sub = r.2.2.col) ∧
    s.watchHit c va false = none

/-- R114 steps 4 and 6: a header that the pointer type `ty` reaches stands at `a`. -/
def State.headerAt (s : State) (c ty a : Nat) (h : Word) (t : State) : Prop :=
  ∃ e pa, s.finds c a e pa h t ∧ h.isHdr = true ∧ h.malformed = false ∧ e.x = false ∧ kindPtr (hdrKind h.pay) = some ty

/-- R114, R115: the headered pointer `b` reaches the object at `a` with header `h`, after at most one `FWD`. -/
def State.reachesObj (s : State) (c : Nat) (b : Word) (a : Nat) (h : Word) (t : State) : Prop :=
  b.isHeadered = true ∧ ptrPayOk b.pay = true ∧
    ((a = b.pay.toNat ∧ s.headerAt c b.ty a h t) ∨
     ∃ e pa f u, s.finds c b.pay.toNat e pa f u ∧ f.isFwd = true ∧ f.malformed = false ∧ e.x = false ∧
       a = f.pay.toNat % 2 ^ 54 ∧ u.microAt c 0x0088 ∧ u.headerAt c b.ty a h t)

/-- R115: word `j` of the cons cell that `b` names stands at `va`, after at most one `FWD`. -/
def State.reachesCell (s : State) (c : Nat) (b : Word) (j va : Nat) (t : State) : Prop :=
  b.isCons = true ∧ ptrPayOk b.pay = true ∧
    ((∃ e pa w, s.finds c (b.pay.toNat + j) e pa w t ∧ (w.isFwd = false ∨ e.x = true) ∧ va = b.pay.toNat + j) ∨
     ∃ e pa f u e' pa' w, s.finds c (b.pay.toNat + j) e pa f u ∧ f.isFwd = true ∧ f.malformed = false ∧ e.x = false ∧
       u.microAt c 0x0090 ∧ va = f.pay.toNat % 2 ^ 54 + j ∧ u.finds c va e' pa' w t ∧ w.isFwd = false)

/-- R51, R52, R57: the checks of a store that need registers alone: `car` for a car, `bare` for a word that is no body word. -/
def State.mayStore (s : State) (c : Nat) (w : Word) (car bare : Bool) : Prop :=
  (car = true → w.isHdr = false ∧ w.isEmpty = false) ∧ (2 ≤ (s.core c).level ∨ privWord w = false) ∧
    (bare = true → w.isRaw = false)

/-- R159: the card of a store of `w` at `va`: none where none is needed or it is among the last four; else its number and the
physical word of its bit. -/
def State.cardOf (s : State) (c va : Nat) (w : Word) (f : Option (Nat × Nat)) (t : State) : Prop :=
  match s.rkOn c with
  | none => f = none ∧ t = s
  | some (_, _, r) =>
    if w.isPtr && r.youngAddr w.pay.toNat && r.oldAddr va && !(s.core c).cards.contains (r.card va) then
      let l := (s.core c).level
      ∃ e pa, s.maps c (if l == 3 then 3 else min l 1) .load (r.spv 0x305 + r.card va / 64) e pa t ∧ f = some (r.card va, pa)
    else f = none ∧ t = s
/-- R159: the atomic OR of a card is posted. -/
def State.carded (s : State) (c : Nat) (f : Option (Nat × Nat)) : State :=
  match f with
  | none => s
  | some (n, pa) => s.modCore c fun k =>
    { k with cards := if k.cards.contains n then k.cards else (n :: k.cards).take 4,
             atomics := k.atomics ++ [.aor pa (BitVec.ofNat 64 (2 ^ (n % 64)))] }

/-- R246: the store buffer of core `c` has room for `n` more words, after its oldest stores are performed where it has not. -/
def State.sbRoomFor (s : State) (c n : Nat) (t : State) : Prop :=
  ((s.core c).sb.length + n ≤ 8 ∧ t = s) ∨
  (8 < (s.core c).sb.length + n ∧ s.performOldest c = (t, true) ∧ (t.core c).sb.length + n ≤ 8)
/-- R246: the words `l` go to the end of the store buffer of core `c`. -/
def State.bufferEnd (s : State) (c : Nat) (l : List SbEnt) : State := s.modCore c fun k => { k with sb := k.sb ++ l }
/-- R246: the word `w` for the physical word `pa` goes to the end of the store buffer of core `c`, which has or gets room. -/
def State.buffered (s : State) (c pa : Nat) (w : Word) (t : State) : Prop :=
  ∃ u, s.sbRoomFor c 1 u ∧ t = u.bufferEnd c [⟨pa, w, false⟩]

/-- R51, R57, R60, R130, R55: the destination `pa` under the leaf `e` admits the word `w`, for a body word of an object with
header payload `hd` or for another place; the checks leave `t`. -/
def State.admits (s : State) (c pa : Nat) (e : TlbEnt) (w : Word) (hd : Option B64) (t : State) : Prop :=
  e.x = false ∧
    (match hd with
     | some h => (w.isRaw = true → rawKind (hdrKind h) = true ∨ (recKind (hdrKind h) = true ∧ hdrSealed h = true)) ∧
         (rawKind (hdrKind h) = true → w.isRaw = true ∨ w.isEmpty = true)
     | none => w.isRaw = false) ∧
    (w.sec = true → e.sl = true ∨ ∃ h, hd = some h ∧ hdrSealed h = true) ∧
    ((¬ (w.isHdr = true ∧ (s.core c).level < 3) ∧ t = s) ∨
     (w.isHdr = true ∧ (s.core c).level < 3 ∧ ∃ o, s.coreRead c pa = some (o, t) ∧
       (o.isHdr = true → hdrSealed o.pay = hdrSealed w.pay)))
/-- R82: a checked store of `w` at `va` of core `c`, to a body word of an object with header payload `hd` or elsewhere, goes
to the store buffer and leaves `t`: the page takes it, the destination's rules admit it, and no data watch matches. -/
def State.stores (s : State) (c va : Nat) (w : Word) (hd : Option B64) (t : State) : Prop :=
  ∃ e pa u v x y f, s.maps c (s.core c).level .store va e pa u ∧ u.admits c pa e w hd v ∧ v.cardOf c va w f x ∧
    x.watchHit c va true = none ∧ x.sbRoomFor c 1 y ∧ t = (y.carded c f).bufferEnd c [⟨pa, w, false⟩]

/-! ### Control transfers and ranges -/

/-- A core that executes its next instruction, a control transfer: it does not stand at the end of its active loop (R89). -/
def State.transfers (s : State) (c : Nat) : Prop :=
  s.runs c ∧ ((s.core c).loopHere && (s.core c).atLend) = false

/-- R74, R193: the two windows after CWP hold no frame, so that a new one is entered at once. -/
def Core.hasRoom (k : Core) : Prop := (k.window (k.cwp + 1)).res = false ∧ (k.window (k.cwp + 2)).res = false

/-- R87: the entry of the word `w` for an indirect transfer is `p`: a `LINK` of the level, or the one in body word 0 of a
`CODE`, or that of the `CODE` in body word 0 of a `CLO`. -/
def State.entry (s : State) (c : Nat) (w : Word) (p : BitVec 55) (t : State) : Prop :=
  let link := fun (l : Word) => l.isLink = true ∧ l.sub = (s.core c).level ∧ p = l.pay.setWidth 55
  let body := fun (s : State) (w l : Word) (t : State) => ∃ a h u e pa, s.reachesObj c w a h u ∧ 1 ≤ hdrLen h.pay ∧
    u.finds c (a + 1) e pa l t ∧ t.takes c (a + 1) e l
  w.sec = false ∧ ((link w ∧ t = s) ∨ (w.ty = tyCODE ∧ ∃ l, body s w l t ∧ link l) ∨
    (w.ty = tyCLO ∧ ∃ k u l, body s w k u ∧ k.ty = tyCODE ∧ body u k l t ∧ link l))

/-- R91: the base `b` of a range is dereferenced; `obj` is the object of a headered base. -/
def State.spanObj (s : State) (c : Nat) (b : Word) (obj : Option (Nat × B64)) (t : State) : Prop :=
  (b.isFix = true ∧ obj = none ∧ t = s) ∨
  (b.isCons = true ∧ ptrPayOk b.pay = true ∧ obj = none ∧ t = s) ∨
  ∃ a h, s.reachesObj c b a h t ∧ obj = some (a, h.pay)
/-- R91: the index lies in the object or the cell. -/
def spanFits (b : Word) (obj : Option (Nat × B64)) (i n : Int) : Prop :=
  b.isFix = true ∨ n = 0 ∨ (0 ≤ i ∧ i + n ≤ match obj with | some x => hdrLen x.2 | none => 2)
/-- R91: the word at index `i` of a range stands at `va`. -/
def State.spanAt (s : State) (c : Nat) (b : Word) (obj : Option (Nat × B64)) (i : Int) (va : Nat) (t : State) : Prop :=
  match obj with
  | some x => va = x.1 + 1 + i.toNat ∧ t = s
  | none => (b.isFix = true ∧ va = (b.pay + BitVec.ofInt 64 i).toNat ∧ t = s) ∨ s.reachesCell c b i.toNat va t

end Sys2Proof.Machine
end

