-- ==== Sys2Proof/Certificates/Slice0/Obligations.lean ====
section
/-!
DEFINITION. What is claimed of the block: statements for the provers, each from the numbered rules of spec/.
-/
open Sys2Proof Sys2Proof.Machine

/-- (R76) For every core that executes its next instruction and every two word operands a and b, WADD, WSUB, WMUL, WMULHU,
WMULHS, DIVCT, REMCT, AND, OR, XOR, ANDN, PERM, CLZ, CTZ, WEQ, WLTU and WLTS end with rd holding the result of R76, in
the type and label of R75 (always FIX where the row says so). Shifts and DIV/REM do the same when their steering
operands are public and, for DIV and REM, b is not 0; and SEL, MOV and EQ are stated apart. -/
def Obligations.MachineOperationsGiveTheTableResult : Prop :=
  ∀ (s : State) (c : Nat) (rd rs1 rs2 : Reg), s.runs c →
    (s.reg c rs1).isWordOp = true → (s.reg c rs2).isWordOp = true →
    let x := s.reg c rs1
    let y := s.reg c rs2
    let a := x.pay
    let b := y.pay
    let word := fun (v : B64) => (Host.Outcome.next (s.wrote c rd (wordRes [x, y] v)) : Out)
    let fixed := fun (ws : List Word) (v : B64) => (Host.Outcome.next (s.wrote c rd (fixRes ws v)) : Out)
    exec (.wadd c rd rs1 rs2) s = word (a + b) ∧
    exec (.wsub c rd rs1 rs2) s = word (a - b) ∧
    exec (.wmul c rd rs1 rs2) s = word (BitVec.ofNat 64 (a.toNat * b.toNat)) ∧
    exec (.wmulhu c rd rs1 rs2) s = word (BitVec.ofNat 64 (a.toNat * b.toNat / 2 ^ 64)) ∧
    exec (.wmulhs c rd rs1 rs2) s = word (BitVec.ofInt 64 (a.toInt * b.toInt / 2 ^ 64)) ∧
    exec (.divct c rd rs1 rs2) s = word (if b = 0 then 0xFFFFFFFFFFFFFFFF else BitVec.ofNat 64 (a.toNat / b.toNat)) ∧
    exec (.remct c rd rs1 rs2) s = word (if b = 0 then a else BitVec.ofNat 64 (a.toNat % b.toNat)) ∧
    exec (.and c rd rs1 rs2) s = word (a &&& b) ∧
    exec (.or c rd rs1 rs2) s = word (a ||| b) ∧
    exec (.xor c rd rs1 rs2) s = word (a ^^^ b) ∧
    exec (.andn c rd rs1 rs2) s = word (a &&& ~~~b) ∧
    (∃ v, exec (.perm c rd rs1 rs2) s = word v ∧
      ∀ k < 8, (v >>> (8 * k)).setWidth 8 = ((a >>> (8 * ((b >>> (3 * k)).setWidth 3).toNat)).setWidth 8 : BitVec 8)) ∧
    (∃ n ≤ 64, exec (.clz c rd rs1) s = fixed [x] (BitVec.ofNat 64 n) ∧ (∀ i, 64 - n ≤ i → i < 64 → a.getLsbD i = false) ∧
      (n < 64 → a.getLsbD (63 - n) = true)) ∧
    (∃ n ≤ 64, exec (.ctz c rd rs1) s = fixed [x] (BitVec.ofNat 64 n) ∧ (∀ i, i < n → a.getLsbD i = false) ∧
      (n < 64 → a.getLsbD n = true)) ∧
    exec (.weq c rd rs1 rs2) s = fixed [x, y] (if a = b then 1 else 0) ∧
    exec (.wltu c rd rs1 rs2) s = fixed [x, y] (if a.toNat < b.toNat then 1 else 0) ∧
    exec (.wlts c rd rs1 rs2) s = fixed [x, y] (if a.toInt < b.toInt then 1 else 0) ∧
    (y.sec = false →
      exec (.shl c rd rs1 rs2) s = word (if 64 ≤ b.toNat then 0 else a <<< b.toNat) ∧
      exec (.shr c rd rs1 rs2) s = word (if 64 ≤ b.toNat then 0 else a >>> b.toNat) ∧
      exec (.sar c rd rs1 rs2) s = word (if 64 ≤ b.toNat then BitVec.ofInt 64 (if a.getLsbD 63 then -1 else 0)
        else a.sshiftRight b.toNat) ∧
      exec (.rol c rd rs1 rs2) s = word (a.rotateLeft (b.toNat % 64)) ∧
      exec (.ror c rd rs1 rs2) s = word (a.rotateRight (b.toNat % 64))) ∧
    (x.sec = false → y.sec = false → b ≠ 0 →
      exec (.div c rd rs1 rs2) s = word (BitVec.ofInt 64 (Int.tdiv a.toInt b.toInt)) ∧
      exec (.rem c rd rs1 rs2) s = word (BitVec.ofInt 64 (Int.tmod a.toInt b.toInt)))

/-- (R54, R77) SEL with a FIX condition and candidates of equal TYPE and SUB, whose result may carry its label, writes rs2
where the condition is not 0 and rd as it was otherwise, S being the OR of the three labels; a condition of another type
raises trap 0x03, candidates that differ raise trap 0x03 naming operand 1 with the tag byte of rs2, and a label the type
may not carry raises trap 0x05 with ROLE 0x09 and operand 2. MOV copies any word. EQ writes FIX 1 exactly where TYPE and
payload are equal, and SUB too but for pointers, the label never counting; its own label is the OR. -/
def Obligations.SelMovAndEqCompleteAsStated : Prop :=
  ∀ (s : State) (c : Nat) (rd rs1 rs2 : Reg), s.runs c →
    let x := s.reg c rs1
    let y := s.reg c rs2
    let z := s.reg c rd
    let sc := x.sec || y.sec || z.sec
    let same := x.ty = y.ty ∧ x.pay = y.pay ∧ (x.isPtr = true ∨ x.sub = y.sub)
    let trap := fun (cause info : Nat) => (Host.Outcome.next ((s.begun c).trapHere c cause (BitVec.ofNat 64 info) 2) : Out)
    exec (.mov c rd rs1) s = .next (s.wrote c rd x) ∧
    (same → exec (.eq c rd rs1 rs2) s = .next (s.wrote c rd (Word.fix 1 (x.sec || y.sec)))) ∧
    (¬ same → exec (.eq c rd rs1 rs2) s = .next (s.wrote c rd (Word.fix 0 (x.sec || y.sec)))) ∧
    (x.isFix = false → exec (.sel c rd rs1 rs2) s = trap 0x03 x.tag.toNat) ∧
    (x.isFix = true → ¬ (y.ty = z.ty ∧ y.sub = z.sub) → exec (.sel c rd rs1 rs2) s = trap 0x03 (256 + y.tag.toNat)) ∧
    (x.isFix = true → y.ty = z.ty → y.sub = z.sub →
      (sc = true → secAllowed y.ty = false → exec (.sel c rd rs1 rs2) s = trap 0x05 (9 * 256 + 2)) ∧
      ((sc = true → secAllowed y.ty = true) → exec (.sel c rd rs1 rs2) s =
        .next (s.wrote c rd (mkWord y.ty sc y.sub (if x.pay ≠ 0 then y.pay else z.pay)))))

/-- (R78, R79) On a word operand, WADDI adds the sign-extended immediate, ANDI, ORI and XORI combine the zero-extended one,
SHI applies the shift its bits 12 to 10 select (0 to 4, with bits 9 to 6 zero) by bits 5 to 0, LDI writes the
sign-extended immediate as a public FIX, LDSH shifts the payload of rd left by 18 and inserts the immediate, keeping
type and label; BFX, BFXS and BFI with p + n at most 64 extract and insert the field. -/
def Obligations.ImmediateFormsAndBitFieldsComplete : Prop :=
  ∀ (s : State) (c : Nat) (rd rs1 : Reg) (i : BitVec 13) (j : BitVec 18) (p l : BitVec 6), s.runs c →
    let x := s.reg c rs1
    let z := s.reg c rd
    let word := fun (ws : List Word) (v : B64) => (Host.Outcome.next (s.wrote c rd (wordRes ws v)) : Out)
    exec (.ldi c rd j) s = .next (s.wrote c rd (Word.fix (BitVec.ofInt 64 j.toInt))) ∧
    (z.isWordOp = true → exec (.ldsh c rd j) s = word [z] ((z.pay <<< 18) ||| BitVec.ofNat 64 j.toNat)) ∧
    (x.isWordOp = true →
      exec (.waddi c rd rs1 i) s = word [x] (x.pay + BitVec.ofInt 64 i.toInt) ∧
      exec (.andi c rd rs1 i) s = word [x] (x.pay &&& BitVec.ofNat 64 i.toNat) ∧
      exec (.ori c rd rs1 i) s = word [x] (x.pay ||| BitVec.ofNat 64 i.toNat) ∧
      exec (.xori c rd rs1 i) s = word [x] (x.pay ^^^ BitVec.ofNat 64 i.toNat) ∧
      (fld i 12 10 ≤ 4 → fld i 9 6 = 0 →
        let n := fld i 5 0
        exec (.shi c rd rs1 i) s = word [x] (
          if fld i 12 10 = 0 then x.pay <<< n else if fld i 12 10 = 1 then x.pay >>> n
          else if fld i 12 10 = 2 then x.pay.sshiftRight n else if fld i 12 10 = 3 then x.pay.rotateLeft n
          else x.pay.rotateRight n)) ∧
      (p.toNat + l.toNat + 1 ≤ 64 →
        (∃ v, exec (.bfx c rd rs1 p l) s = word [x] v ∧
          ∀ b, v.getLsbD b = (decide (b ≤ l.toNat) && x.pay.getLsbD (p.toNat + b))) ∧
        (∃ v, exec (.bfxs c rd rs1 p l) s = word [x] v ∧
          ∀ b < 64, v.getLsbD b = x.pay.getLsbD (p.toNat + min b l.toNat)) ∧
        (z.isWordOp = true → ∃ v, exec (.bfi c rd rs1 p l) s = word [x, z] v ∧
          ∀ b < 64, v.getLsbD b =
            if p.toNat ≤ b ∧ b ≤ p.toNat + l.toNat then x.pay.getLsbD (b - p.toNat) else z.pay.getLsbD b)))

/-- (R80) TAGOF writes the tag byte of rs1 as a public FIX (below level T of a paired partition a pointer reads with SUB 0);
TCHK and TCHKI complete with no effect where the test passes; TTST and TTSTI write 1 or 0; RETAG, RETAGI at level T or M
write the payload with the new tag where tag and payload make a well-formed word that may carry its label (R49, and no
WEAK in a paired partition); DECL clears S at level T or M, or with PSTAT.DCL. -/
def Obligations.TagInstructionsComplete : Prop :=
  ∀ (s : State) (c : Nat) (rd rs1 rs2 : Reg) (j : BitVec 18) (i : BitVec 13), s.runs c →
    let w := s.reg c rs1
    let m := s.reg c rs2
    let passes := m.pay.getLsbD w.ty && !(m.pay.getLsbD 32 && w.sec)
    let passesI := (if j.getLsbD 17 then 16 ≤ w.ty && j.getLsbD (w.ty - 16) else w.ty < 16 && j.getLsbD w.ty)
      && !(j.getLsbD 16 && w.sec)
    let bool := fun (b : Bool) => Word.fix (if b = true then 1 else 0)
    let may := fun (t : BitVec 8) => Word.malformed (Word.withSec ⟨t, w.pay⟩ false) = false ∧
      Word.payOk ⟨t, w.pay⟩ = true ∧ (t.getLsbD 2 = true → secAllowed (Word.ty ⟨t, w.pay⟩) = true) ∧
      (Word.ty ⟨t, w.pay⟩ = tyWEAK → s.pairedOn c = false)
    exec (.tagof c rd rs1) s = .next (s.wrote c rd (Word.nat
      (if s.pairedOn c = true ∧ (s.core c).level ≤ 1 ∧ w.isPtr = true then w.tag.toNat / 4 * 4 else w.tag.toNat))) ∧
    (m.isFix = true → m.sec = false → passes = true → exec (.tchk c rs1 rs2) s = .next (s.ends c id .seq)) ∧
    (m.isFix = true → m.sec = false → exec (.ttst c rd rs1 rs2) s = .next (s.wrote c rd (bool passes))) ∧
    (passesI = true → exec (.tchki c rs1 j) s = .next (s.ends c id .seq)) ∧
    exec (.ttsti c rd rs1 j) s = .next (s.wrote c rd (bool passesI)) ∧
    (2 ≤ (s.core c).level → m.isFix = true → m.sec = false → may (m.pay.setWidth 8) →
      exec (.retag c rd rs1 rs2) s = .next (s.wrote c rd ⟨m.pay.setWidth 8, w.pay⟩)) ∧
    (2 ≤ (s.core c).level → fld i 12 8 = 0 → may (i.setWidth 8) →
      exec (.retagi c rd rs1 i) s = .next (s.wrote c rd ⟨i.setWidth 8, w.pay⟩)) ∧
    (2 ≤ (s.core c).level ∨ (s.core c).pbit 7 = true →
      exec (.decl c rd rs1) s = .next (s.wrote c rd (w.withSec false)))

/-- (R75, R76, R78, R79, R80, R93) A word operand of any other type raises trap 0x03 naming the operand; a secret shift
count, dividend or divisor raises trap 0x05 with its role; DIV and REM by 0 raise trap 0x04; a field past bit 63 and a
reserved SHI selector or a set bit 9 to 6 raise trap 0x01; RETAG, RETAGI and DECL below their levels raise trap 0x0B.
SINFO follows R177. -/
def Obligations.MachineOperationTraps : Prop :=
  ∀ (s : State) (c : Nat) (rd rs1 rs2 : Reg) (i : BitVec 13) (p l : BitVec 6), s.runs c →
    let x := s.reg c rs1
    let y := s.reg c rs2
    let trap := fun (cause info : Nat) => (Host.Outcome.next ((s.begun c).trapHere c cause (BitVec.ofNat 64 info) 2) : Out)
    (∀ f ∈ [Instr.wadd, .wsub, .wmul, .wmulhu, .wmulhs, .divct, .remct, .div, .rem, .and, .or, .xor, .andn, .shl, .shr, .sar,
        .rol, .ror, .perm, .weq, .wltu, .wlts],
      (x.isWordOp = false → exec (f c rd rs1 rs2) s = trap 0x03 x.tag.toNat) ∧
      (x.isWordOp = true → y.isWordOp = false → exec (f c rd rs1 rs2) s = trap 0x03 (256 + y.tag.toNat))) ∧
    (x.isWordOp = true → y.isWordOp = true → y.sec = true → ∀ f ∈ [Instr.shl, .shr, .sar, .rol, .ror],
      exec (f c rd rs1 rs2) s = trap 0x05 (5 * 256 + 1)) ∧
    (x.isWordOp = true → y.isWordOp = true → ∀ f ∈ [Instr.div, .rem],
      (x.sec = true → exec (f c rd rs1 rs2) s = trap 0x05 (6 * 256)) ∧
      (x.sec = false → y.sec = true → exec (f c rd rs1 rs2) s = trap 0x05 (6 * 256 + 1)) ∧
      (x.sec = false → y.sec = false → y.pay = 0 → exec (f c rd rs1 rs2) s = trap 0x04 256)) ∧
    (64 < p.toNat + l.toNat + 1 → ∀ f ∈ [Instr.bfx, .bfxs, .bfi], exec (f c rd rs1 p l) s = trap 0x01 0) ∧
    (4 < fld i 12 10 ∨ fld i 9 6 ≠ 0 → exec (.shi c rd rs1 i) s = trap 0x01 0) ∧
    ((s.core c).level < 2 → exec (.retag c rd rs1 rs2) s = trap 0x0B 0 ∧
      (fld i 12 8 = 0 → exec (.retagi c rd rs1 i) s = trap 0x0B 0) ∧
      ((s.core c).pbit 7 = false → exec (.decl c rd rs1) s = trap 0x0B 0))

/-- (R105) On two FIX operands with well-formed tags, ADD, SUB, MUL and ADDI write the FIX of the exact sum, difference or
product when it fits in 64 bits or when an operand is secret (then modulo 2^64, S = 1, whatever NOPROM holds); a public
overflow with NOPROM raises trap 0x08 with the function value, and without NOPROM, once region 0 has given room and
taken the words, it writes a BIG object of the two digits of the exact value and returns its pointer, AR0PTR and IDSEQ
advanced. On two public FLO operands, or one beside a public FIX, they write the FLO result of the floating-point unit.
With a BIG operand that is read, the exact integer of the two operands is returned from an object of the digits that
R107 allocates. Where a path runs microcode, the microcode of its entry must be good. -/
def Obligations.GenericArithmeticOnFixnumsAndFlonums : Prop :=
  ∀ (s : State) (c : Nat) (rd rs1 rs2 : Reg) (i : BitVec 13), s.runs c →
    let x := s.reg c rs1
    ∀ (y : Word) (ins : Instr) (g : GenOp),
      ((y = s.reg c rs2 ∧ ((ins = .add c rd rs1 rs2 ∧ g = ⟨(· + ·), floAdd, 0x00, false, 0x0000⟩) ∨
          (ins = .sub c rd rs1 rs2 ∧ g = ⟨(· - ·), floSub, 0x01, false, 0x0000⟩) ∨
          (ins = .mul c rd rs1 rs2 ∧ g = ⟨(· * ·), floMul, 0x02, true, 0x0040⟩))) ∨
        (y = Word.fix (BitVec.ofInt 64 i.toInt) ∧ ins = .addi c rd rs1 i ∧ g = ⟨(· + ·), floAdd, 0x3F, false, 0x0000⟩)) →
      x.malformed = false → y.malformed = false →
      (x.isFix = true → y.isFix = true →
        let v := g.ints x.pay.toInt y.pay.toInt
        ((x.sec = true ∨ y.sec = true ∨ (-(2 ^ 63) ≤ v ∧ v < 2 ^ 63)) →
          exec ins s = .next (s.wrote c rd (Word.fix (BitVec.ofInt 64 v) (x.sec || y.sec)))) ∧
        (x.sec = false → y.sec = false → ¬ (-(2 ^ 63) ≤ v ∧ v < 2 ^ 63) → (s.core c).pbit 5 = true →
          exec ins s = .next ((s.begun c).trapHere c 0x08 (BitVec.ofNat 64 g.fn) 2)) ∧
        (x.sec = false → y.sec = false → ¬ (-(2 ^ 63) ≤ v ∧ v < 2 ^ 63) → (s.core c).pbit 5 = false → (s.core c).ucStopped = false →
          s.microAt c 0x0080 → let q := (s.core c).spv 0x004 + 1
          let h := mkWord 8 false 0 (mkHdr 2 (q.toNat * 0x9E3779B9 % 2 ^ 32 / 2 ^ 12) 5 false 0 false)
          ∀ a sl u t, (allocOp c 0 4 h).run.run (s.begun c) = (.ok (a, sl), u) →
            (putWhole c a ([h, Word.raw (BitVec.ofInt 64 v), Word.raw (BitVec.ofInt 64 (v / 2 ^ 64))] ++
              if ((u.core c).spv 0x019).getLsbD 0 = true then [] else [Word.empty])).run.run u = (.ok ⟨⟩, t) →
            exec ins s = .next ((t.modCore c fun k => (((k.setSp 0x018 (Word.nat (a + 4))).dirty 1).setSp 0x004 (Word.fix q)).put rd
              (t.goodPtr c 0x13 a)).retire c (s.core c) .seq))) ∧
      (x.sec = false → y.sec = false → (x.isFlo = true ∧ (y.isFlo = true ∨ y.isFix = true)) ∨ (x.isFix = true ∧ y.isFlo = true) →
        (x.isFlo = true ∧ y.isFlo = true) ∨ s.slowAt c g.entry →
        let d := fun (w : Word) => if w.isFlo = true then w.pay else floOfInt w.pay.toInt
        exec ins s = .next (s.wrote c rd (mkWord 4 false 0 (g.flos (d x) (d y))))) ∧
      (isNumber x = true → isNumber y = true → x.isBig = true ∨ y.isBig = true → x.sec = false → y.sec = false →
        s.slowAt c g.entry → ∀ v w la lb u t,
        (genericArgs c x y g.mul).run.run (s.begun c) = (.ok ((.int v, la), .int w, lb), u) →
        (bigResult c rd (g.ints v w) (if g.mul = true then la + lb else max la lb + 1)).run.run u = (.ok ⟨⟩, t) →
        exec ins s = .next (t.retire c (s.core c) .seq))

/-- (R81, R108) On two FIX operands with well-formed tags CMP writes FIX 1 where the relation holds between the signed
payloads and 0 otherwise, S being the OR of the labels; on public operands of which one is a NaN only NE yields 1; two
FLO zeros of either sign are equal; two finite flonums, or a fixnum and a finite flonum, compare as the exact numbers
mantissa times two to the exponent, and integers of which one is a BIG compare as they are. The mixed forms and BIG run
microcode, whose entry must be good. -/
def Obligations.CmpComparesExactValues : Prop :=
  ∀ (s : State) (c : Nat) (rd rs1 rs2 : Reg) (r : Rel), s.runs c →
    let x := s.reg c rs1
    let y := s.reg c rs2
    let holds : Rel → Int → Int → Bool := fun r a b => match r with
      | .eq => decide (a = b) | .ne => decide (a ≠ b) | .lt => decide (a < b) | .le => decide (a ≤ b)
      | .gt => decide (b < a) | .ge => decide (b ≤ a)
    let one := fun (b : Bool) (sc : Bool) => (Host.Outcome.next (s.wrote c rd (Word.fix (if b = true then 1 else 0) sc)) : Out)
    let nan := fun (w : Word) => w.isFlo && fld w.pay 62 52 == 2047 && fld w.pay 51 0 != 0
    let fin := fun (w : Word) => w.isFix || (w.isFlo && fld w.pay 62 52 != 2047)
    let parts := fun (w : Word) => if w.isFix = true then (w.pay.toInt, (0 : Int)) else
      let m : Int := if fld w.pay 62 52 = 0 then fld w.pay 51 0 else 2 ^ 52 + fld w.pay 51 0
      (if w.pay.getLsbD 63 = true then -m else m, (max (fld w.pay 62 52) 1 : Nat) - 1075)
    x.malformed = false → y.malformed = false →
    (x.isFix = true → y.isFix = true →
      exec (.cmp c r rd rs1 rs2) s = one (holds r x.pay.toInt y.pay.toInt) (x.sec || y.sec)) ∧
    ((x.isFlo = true ∨ x.isFix = true) → (y.isFlo = true ∨ y.isFix = true) → x.sec = false → y.sec = false →
      nan x = true ∨ nan y = true → (x.isFlo = true ∧ y.isFlo = true) ∨ s.slowAt c 0x0060 → exec (.cmp c r rd rs1 rs2) s = one (r == .ne) false) ∧
    (fin x = true → fin y = true → x.sec = false → y.sec = false → x.ty = y.ty ∨ s.slowAt c 0x0060 →
      let e := min (parts x).2 (parts y).2
      exec (.cmp c r rd rs1 rs2) s =
        one (holds r ((parts x).1 * 2 ^ ((parts x).2 - e).toNat) ((parts y).1 * 2 ^ ((parts y).2 - e).toNat)) false) ∧
    (isNumber x = true → isNumber y = true → x.isBig = true ∨ y.isBig = true → x.sec = false → y.sec = false → s.slowAt c 0x0060 →
      ∀ (v w : Int) (la lb : Nat) (u : State), (genericArgs c x y false).run.run (s.begun c) = (.ok ((.int v, la), .int w, lb), u) →
        exec (.cmp c r rd rs1 rs2) s = .next (s.wroteIn u c rd (Word.fix (if holds r v w = true then 1 else 0))))

/-- (R82, R83, R84, R114, R115, R246) LD through a public FIX base at level S or above loads from payload plus offset;
through a CONS from the cell word 0 or 1; through a headered pointer from header address plus offset with offset at most
LENGTH; CAR and CDR load the car and the cdr; VREF loads body word i below LENGTH for a public FIX i; each after at most
one FWD, and each completes with rd holding the word as long as the page, the word and the collector let it pass. LDR at
level T or M copies any word unchecked. Translation and the caches may change on the way: the state they leave is named. -/
def Obligations.LoadsReturnTheWordTheyReach : Prop :=
  ∀ (s : State) (c : Nat) (rd rs1 rs2 : Reg) (i : BitVec 13) (va : Nat) (e : TlbEnt) (pa : Nat) (w : Word) (u t : State), s.runs c →
    let b := s.reg c rs1
    let k := s.reg c rs2
    let done := (Host.Outcome.next (s.wroteIn t c rd w) : Out)
    let sum := (b.pay + BitVec.ofInt 64 i.toInt).toNat
    (u.finds c va e pa w t → t.takes c va e w →
      (1 ≤ (s.core c).level → b.isFix = true → b.sec = false → va = sum → u = s.begun c → exec (.ld c rd rs1 i) s = done) ∧
      (∀ j, (s.begun c).reachesCell c b j va u →
        (j = 0 → i = 0 → exec (.ld c rd rs1 i) s = done) ∧ (j = 1 → i = 1 → exec (.ld c rd rs1 i) s = done) ∧
        (j = 0 → exec (.car c rd rs1) s = done) ∧ (j = 1 → exec (.cdr c rd rs1) s = done)) ∧
      (∀ a h, (s.begun c).reachesObj c b a h u →
        (0 ≤ i.toInt → i.toInt ≤ hdrLen h.pay → va = a + i.toInt.toNat → exec (.ld c rd rs1 i) s = done) ∧
        (k.isFix = true → k.sec = false → k.pay.toNat < hdrLen h.pay → va = a + 1 + k.pay.toNat →
          exec (.vref c rd rs1 rs2) s = done))) ∧
    (2 ≤ (s.core c).level → b.isFix = true → b.sec = false → va = sum → (s.begun c).finds c va e pa w t →
      t.watchHit c va false = none → exec (.ldr c rd rs1 i) s = done)

/-- (R82, R83, R84, R246, R159) A store whose register checks and destination checks pass completes with the word, paired
with the physical word of the address its base gives, at the end of the store buffer (and a card mark posted where R159
wants one); STR at level T or M stores any word unchecked and marks no card. The address is computed as for the loads. -/
def Obligations.StoresGoToTheStoreBuffer : Prop :=
  ∀ (s : State) (c : Nat) (rv rs1 rs2 : Reg) (i : BitVec 13) (va : Nat) (u t : State), s.runs c →
    let b := s.reg c rs1
    let k := s.reg c rs2
    let w := s.reg c rv
    let done := (Host.Outcome.next (t.retire c (s.core c) .seq) : Out)
    let sum := (b.pay + BitVec.ofInt 64 i.toInt).toNat
    let x := s.begun c
    (1 ≤ (s.core c).level → b.isFix = true → b.sec = false → va = sum → s.mayStore c w false true →
      x.stores c va w none t → exec (.st c rv rs1 i) s = done) ∧
    (∀ j, x.reachesCell c b j va u →
      (i.toNat = j → j ≤ 1 → s.mayStore c w (j == 0) true → u.stores c va w none t → exec (.st c rv rs1 i) s = done) ∧
      (j = 0 → s.mayStore c k true true → u.stores c va k none t → exec (.setcar c rs1 rs2) s = done) ∧
      (j = 1 → s.mayStore c k false true → u.stores c va k none t → exec (.setcdr c rs1 rs2) s = done)) ∧
    (∀ a h, x.reachesObj c b a h u →
      (1 ≤ i.toInt → i.toInt ≤ hdrLen h.pay → va = a + i.toInt.toNat → s.mayStore c w false false →
        u.stores c va w (some h.pay) t → exec (.st c rv rs1 i) s = done) ∧
      (i = 0 → 2 ≤ (s.core c).level → va = a → s.mayStore c w false false → u.stores c va w none t →
        exec (.st c rv rs1 i) s = done) ∧
      (k.isFix = true → k.sec = false → k.pay.toNat < hdrLen h.pay → va = a + 1 + k.pay.toNat →
        s.mayStore c w false false → u.stores c va w (some h.pay) t → exec (.vset c rv rs1 rs2) s = done)) ∧
    (∀ e pa v, 2 ≤ (s.core c).level → b.isFix = true → b.sec = false → va = sum →
      x.maps c (x.core c).level .store va e pa v → v.watchHit c va true = none → v.buffered c pa w t →
      exec (.str c rv rs1 i) s = done)

/-- (R84, R85, R110, R62) In bare mode, with room below ARnLIM and in the store buffer, and with no partition and no watch:
CONS stores car and cdr at a = ARnPTR and a + 1, sets ARnPTR to a + 2 and returns a CONS to a; ALLOC, its microcode
good, stores the header (and, from a region with CLR = 0, EMPTY in every other word, all seen at once) with LENGTH,
KIND, SEALED and the IDHASH of the next count, advances ARnPTR by the size rounded up to even and IDSEQ by one, and
returns a pointer of the type that reaches the kind. Without room both raise trap 0x07. -/
def Obligations.AllocationBumpsItsRegion : Prop :=
  ∀ (s : State) (c : Nat) (n : BitVec 2) (rd rs1 rs2 : Reg) (i : BitVec 13), s.runs c →
    let x := s.reg c rs1
    let y := s.reg c rs2
    let k := s.core c
    let pa := fun (a : Nat) => s.build.cellOfCore c * 2 ^ 37 + a
    let ptr := fun (m : Nat) => (k.spv (0x018 + 2 * m)).toNat % 2 ^ 54
    let lim := fun (m : Nat) => (k.spv (0x019 + 2 * m)).toNat % 2 ^ 54 / 2 * 2
    let room := fun (m size : Nat) => ptr m + size ≤ lim m ∧ ptr m + size ≤ 2 ^ 37
    let open' := fun (a size : Nat) => ∀ b, a ≤ b → b < a + size → s.dataReach (s.build.cellOfCore c) (pa b) = true
    (2 ≤ k.level → k.bare k.level = true → k.part = none → s.alm.dbg = false →
      (k.sb.length + 2 ≤ 8 → ptr n.toNat % 2 = 0 → room n.toNat 2 → open' (ptr n.toNat) 2 →
        s.mayStore c x true true → s.mayStore c y false true → (y.isHdr = true → k.level = 3) →
        exec (.cons c n rd rs1 rs2) s = .next (s.ends c (fun k =>
          ((({ k with sb := k.sb ++ [⟨pa (ptr n.toNat), x, true⟩, ⟨pa (ptr n.toNat + 1), y, false⟩] } : Core).setSp (0x018 + 2 * n.toNat)
            (Word.nat (ptr n.toNat + 2))).dirty 1).put rd (mkWord 0x10 false 0 (BitVec.ofNat 64 (ptr n.toNat)))) .seq)) ∧
      (∀ ty, let kind := fld i 5 0
        let m := fld i 8 7
        let len := x.pay.toNat
        let q := k.spv 0x004 + 1
        let size := (len + 2) / 2 * 2
        let h := mkWord 8 false 0 (mkHdr len (q.toNat * 0x9E3779B9 % 2 ^ 32 / 2 ^ 12) kind (i.getLsbD 6) 0 false)
        s.microAt c 0x00A0 → fld i 12 9 = 0 → kindPtr kind = some ty → (i.getLsbD 6 = true → sealableKind kind = true) →
        x.isFix = true → x.sec = false → kindMinLen kind ≤ len → len < 2 ^ 32 → (kind = 0x07 → len = 1) →
        ptr m % 2 = 0 → room m size → open' (ptr m) size →
        let done := fun (k : Core) => (((k.setSp (0x018 + 2 * m) (Word.nat (ptr m + size))).dirty 1).setSp
          0x004 (Word.fix q)).put rd (mkWord ty false 0 (BitVec.ofNat 64 (ptr m)))
        ((k.spv (0x019 + 2 * m)).getLsbD 0 = true → k.sb.length + 1 ≤ 8 → exec (.alloc c rd rs1 i) s =
          .next (s.ends c (fun k => done { k with sb := k.sb ++ [⟨pa (ptr m), h, false⟩] }) .seq)) ∧
        ((k.spv (0x019 + 2 * m)).getLsbD 0 = false → size ≤ 1024 → ∀ t,
          (putWhole c (ptr m) (h :: List.replicate (size - 1) Word.empty)).run.run (s.begun c) = (.ok ⟨⟩, t) →
          exec (.alloc c rd rs1 i) s = .next ((t.modCore c done).retire c k .seq)))) ∧
    (lim n.toNat < ptr n.toNat + 2 → s.mayStore c x true true → s.mayStore c y false true →
      exec (.cons c n rd rs1 rs2) s =
        .next ((s.begun c).trapHere c 0x07 (BitVec.ofNat 64 (n.toNat * 2 ^ 34 + 2)) 2))

/-- (R73, R86, R87) Away from the end of an active loop, BR goes to instruction i + disp modulo 2^55; BEQZ, BNEZ (on a
public FIX or RAW), BLTZ, BGEZ, BGTZ, BLEZ (on a public FIX), BF and BT (on any word but EMPTY) and BTYPE go there
exactly when the condition of R86 holds, and otherwise to the next instruction. They change no register but through
retirement. The target index is stated in numbers. -/
def Obligations.BranchesGoWhereTheirConditionSays : Prop :=
  ∀ (s : State) (c : Nat) (rs1 : Reg) (d : BitVec 18) (e : BitVec 28) (ty : BitVec 5), s.transfers c →
    let w := s.reg c rs1
    let pc := (s.core c).pc
    let word := w.isWordOp = true ∧ w.sec = false
    let fix := w.isFix = true ∧ w.sec = false
    let any := w.isEmpty = false ∧ w.sec = false
    let v := w.pay.toInt
    let falsy := w.tag = 0x18 ∧ (w.pay = 0 ∨ w.pay = 2)
    let goes := fun (i : Instr) (p : Prop) => ∃ q : BitVec 55,
      ((pcIdx q : Int) = (pcIdx pc + d.toInt) % 2 ^ 55) ∧
      (p → exec i s = .next (s.ends c id (.jump q true))) ∧ (¬ p → exec i s = .next (s.ends c id .seq))
    (∃ q : BitVec 55, ((pcIdx q : Int) = (pcIdx pc + e.toInt) % 2 ^ 55) ∧
      exec (.br c e) s = .next (s.ends c id (.jump q true))) ∧
    (word → goes (.beqz c rs1 d) (v = 0)) ∧ (word → goes (.bnez c rs1 d) (v ≠ 0)) ∧
    (fix → goes (.bltz c rs1 d) (v < 0)) ∧ (fix → goes (.bgez c rs1 d) (0 ≤ v)) ∧
    (fix → goes (.bgtz c rs1 d) (0 < v)) ∧ (fix → goes (.blez c rs1 d) (v ≤ 0)) ∧
    (any → goes (.bf c rs1 d) falsy) ∧ (any → goes (.bt c rs1 d) (¬ falsy)) ∧
    goes (.btype c rs1 ty d) (w.ty = ty.toNat ∧ ty ≠ 7)

/-- (R88) LOOP with disp of at least 1, no loop active and a public FIX n below 2^32 sets LSTART and LEND; with n = 0 it
goes to LEND + 1, else it sets LCOUNT to n with the window CWP and goes on. With disp below 1 or a loop active it raises
trap 0x01; an n of 2^32 or more raises trap 0x04, one that is no FIX trap 0x03, a secret one trap 0x05. After any
instruction that does not transfer, at LEND with the loop active in this window, LCOUNT decreases and the PC is LSTART
while the count is above 1, and LCOUNT is 0 and the PC is LEND + 1 when it is 1. -/
def Obligations.LoopRunsItsBodyAsStated : Prop :=
  ∀ (s : State) (c : Nat) (rs1 : Reg) (d : BitVec 18),
    let k := s.core c
    let n := s.reg c rs1
    let hi := pcPlus k.pc d.toInt
    let set := fun (k : Core) => ((k.setSp 0x011 (Word.link k.level (pcPlus k.pc 1))).setSp 0x012 (Word.link k.level hi)).dirty 4
    let trap := fun (cause info : Nat) => (Host.Outcome.next ((s.begun c).trapHere c cause (BitVec.ofNat 64 info) 2) : Out)
    (s.transfers c →
      (1 ≤ d.toInt → fld (k.spv 0x010) 31 0 = 0 → n.isFix = true → n.sec = false →
        (n.pay = 0 → exec (.loop c rs1 d) s = .next (s.ends c set (.jump (pcPlus hi 1) false))) ∧
        (n.pay ≠ 0 → n.pay.toNat < 2 ^ 32 → exec (.loop c rs1 d) s = .next (s.ends c (fun k =>
          (set k).setLcount (BitVec.ofNat 64 (k.cwp * 2 ^ 32 + n.pay.toNat))) (.jump (pcPlus k.pc 1) false))) ∧
        (2 ^ 32 ≤ n.pay.toNat → exec (.loop c rs1 d) s = trap 0x04 0)) ∧
      (1 ≤ d.toInt → fld (k.spv 0x010) 31 0 = 0 →
        (n.isFix = false → exec (.loop c rs1 d) s = trap 0x03 n.tag.toNat) ∧
        (n.isFix = true → n.sec = true → exec (.loop c rs1 d) s = trap 0x05 256)) ∧
      (d.toInt < 1 ∨ fld (k.spv 0x010) 31 0 ≠ 0 → exec (.loop c rs1 d) s = trap 0x01 0)) ∧
    (∀ t : State, (t.core c).pbit 4 = false → k.pbit 4 = false →
      let q := t.core c
      let lc := q.spv 0x010
      let u := (t.retire c k .seq).core c
      (fld lc 31 0 ≠ 0 ∧ fld lc 35 32 = q.cwp ∧ k.pc = linkPc (q.spv 0x012) →
        (1 < fld lc 31 0 → u.spv 0x010 = lc - 1 ∧ u.pc = linkPc (q.spv 0x011)) ∧
        (fld lc 31 0 = 1 → u.spv 0x010 = 0 ∧ u.pc = pcPlus (linkPc (q.spv 0x012)) 1)) ∧
      (¬ (fld lc 31 0 ≠ 0 ∧ fld lc 35 32 = q.cwp ∧ k.pc = linkPc (q.spv 0x012)) →
        u.spv 0x010 = lc ∧ u.pc = pcPlus k.pc 1))

/-- (R74, R87, R184, R193) Away from the end of an active loop and outside trap windows, with room in the windows, CALL and
CALLR put the LINK of the next instruction at the current level into out7, enter window CWP + 1 (owned by the level, its
lo and out registers EMPTY) and go to i + disp or to the entry of rs1; JMPR goes to the entry; RET goes to the LINK of
this level in in7 and makes the resident window CWP - 1 current. While a trap window is in use CALL, CALLR and RET raise
trap 0x01. -/
def Obligations.CallsAndReturnsMoveTheWindow : Prop :=
  ∀ (s : State) (c : Nat) (rs1 : Reg) (e : BitVec 28) (p : BitVec 55) (t : State), s.transfers c →
    let k := s.core c
    let enter := fun (k : Core) => (k.put 31 (Word.link k.level (pcPlus k.pc 1))).enterWindow k.level
    ((s.begun c).entry c (s.reg c rs1) p t → exec (.jmpr c rs1) s = .next (t.retire c k (.jump p true))) ∧
    (k.twCur = 0 →
      (k.hasRoom → exec (.call c e) s = .next (s.ends c enter (.jump (pcPlus k.pc e.toInt) false))) ∧
      ((s.begun c).entry c (s.reg c rs1) p t → (t.core c).hasRoom →
        exec (.callr c rs1) s = .next ((t.modCore c enter).retire c k (.jump p false))) ∧
      (let l := s.reg c 15
       l.isLink = true → l.sub = k.level → (k.window (k.cwp + 11)).res = true →
        exec (.ret c) s = .next (s.ends c (fun k => k.leaveWindow ((k.cwp + 11) % 12)) (.jump (l.pay.setWidth 55) true)))) ∧
    (k.twCur ≠ 0 → ∀ i ∈ [Instr.call c e, .callr c rs1, .ret c],
      exec i s = .next ((s.begun c).trapHere c 0x01 0 2))

/-- (R189, R190, R191, R188) Outside trap windows and with room, a GATE below GATECNT whose four descriptor words are found
by level-T loads, well formed, with TLEVEL of 1 or 2 not below the current level, which is not below MINLVL, and whose
arguments out0 on meet their class bytes, puts the LINK of the next instruction into out7, enters the next window owned
by TLEVEL, writes STACK to lo7 when STK is set, sets LEVEL and DCL and goes to the entry with PSTAT.SHADOW. A number at
or above GATECNT raises trap 0x0A with REASON 1. -/
def Obligations.GateEntersItsLevel : Prop :=
  ∀ (s : State) (c : Nat) (n : BitVec 18), s.transfers c →
    let k := s.core c
    k.twCur = 0 →
    ((k.spv 0x00D).toNat ≤ n.toNat →
      exec (.gate c n) s = .next ((s.begun c).trapHere c 0x0A (BitVec.ofNat 64 (n.toNat * 2 ^ 16 + 1)) 2)) ∧
    (∀ (w : Fin 4 → Word) (st : Fin 5 → State) (e : Fin 4 → TlbEnt) (pa : Fin 4 → Nat),
      n.toNat < (k.spv 0x00D).toNat → st 0 = s.begun c →
      (∀ i : Fin 4, (st i.castSucc).findsAt c 2 ((k.spv 0x00C).toNat % 2 ^ 54 + 4 * n.toNat + i.val) (e i) (pa i) (w i) (st i.succ) ∧
        (w i).isPoison = false ∧ (w i).malformed = false ∧ (e i).x = false) →
      let d := (w 0).pay
      let tl := fld d 49 48
      (w 0).tag = 0x60 → fld d 63 58 = 0 → d.getLsbD 50 = false → (tl = 1 ∨ tl = 2) → k.level ≤ tl → fld d 57 56 ≤ k.level →
      (w 1).isLink = true → (w 1).sub = tl → fld d 54 52 ≤ 6 → (w 2).tag = 0x08 → w 3 = Word.nat 0 →
      (∀ i < fld d 54 52, let a := ((st 4).core c).get (BitVec.ofNat 5 (24 + i))
        let b := fld d (8 * i + 7) (8 * i)
        (128 ≤ b → a.sec = false) ∧ (b / 32 % 4 = 0 → a.ty = b % 32) ∧ (b / 32 % 4 = 1 → 0x10 ≤ a.ty ∧ a.ty ≤ 0x18) ∧
        (b / 32 % 4 = 2 → a.ty ∈ [1, 2, 3, 4]) ∧ (b / 32 % 4 = 3 → a.ty ≠ 0)) →
      ((st 4).core c).hasRoom →
      exec (.gate c n) s = .next (((st 4).modCore c fun k =>
        let q := (k.put 31 (Word.link k.level (pcPlus k.pc 1))).enterWindow tl
        let q := if d.getLsbD 55 = true then q.put 23 (w 2) else q
        (q.setLevel tl).setPbit 7 (d.getLsbD 51)).retire c k (.shadow ((w 1).pay.setWidth 55))))

/-- (R192) At level S or above, away from the end of an active loop, GRET with an in7 that is a LINK whose SUB is at most
the current level and with window CWP - 1 resident makes that window current, sets PSTAT.LEVEL to the SUB and PSTAT.DCL
to 0 and continues at the LINK in the shadow; where window CWP - 1 is not resident the fill comes first; any other in7
raises trap 0x03 naming operand 3. -/
def Obligations.GretReturnsFromAGate : Prop :=
  ∀ (s : State) (c : Nat), s.transfers c → 1 ≤ (s.core c).level →
    let k := s.core c
    let l := s.reg c 15
    let w := (k.cwp + 11) % 12
    (l.isLink = true ∧ l.sub ≤ k.level →
      ∀ t : State, (((k.window w).res = true ∧ t = s.begun c) ∨
          ((k.window w).res = false ∧ (fillWindow c w l.sub).run.run (s.begun c) = (.ok ⟨⟩, t))) →
        exec (.gret c) s = .next ((t.modCore c fun k => ((k.leaveWindow w).setLevel l.sub).setPbit 7 false).retire c k
          (.shadow (l.pay.setWidth 55)))) ∧
    (¬ (l.isLink = true ∧ l.sub ≤ k.level) →
      exec (.gret c) s = .next ((s.begun c).trapHere c 0x03 (BitVec.ofNat 64 (3 * 256 + l.tag.toNat)) 2))

/-- (R182, R184, R188) At level X, S or above, away from the end of an active loop, with SSTAT_X.PSTAT.LEVEL at most X and
SPC_X a LINK of that level, TRET sets PSTAT[7:0] to the saved one (SHADOW then set), LCOUNT to SLOOP_X, goes to SPC_X,
restores CWP from SSTAT_X when TWIN is 0 (the window resident), releases the trap window of X when TWIN is 1 or it was
marked, and puts the OUTER trap window in use. A saved level above X raises trap 0x0B, a bad SPC_X trap 0x03. -/
def Obligations.TretRestoresTheInterruptedState : Prop :=
  ∀ (s : State) (c : Nat), s.transfers c → 1 ≤ (s.core c).level →
    let k := s.core c
    let x := k.level
    let spc := k.sp (0x018 + 8 * x)
    let st := k.spv (0x019 + 8 * x)
    let lvl := fld st 1 0
    let twin := st.getLsbD 14
    let w := fld st 11 8 % 12
    let trap := fun (cause info : Nat) => (Host.Outcome.next ((s.begun c).trapHere c cause (BitVec.ofNat 64 info) 2) : Out)
    (x < lvl → exec (.tret c) s = trap 0x0B 0) ∧
    (lvl ≤ x → ¬ (spc.isLink = true ∧ spc.sub = lvl) → exec (.tret c) s = trap 0x03 (3 * 256 + spc.tag.toNat)) ∧
    (lvl ≤ x → spc.isLink = true → spc.sub = lvl → twin = true ∨ fld st 11 8 = k.cwp ∨ (k.window w).res = true →
      ∃ t, exec (.tret c) s = .next t ∧
        let q := t.core c
        q.pc = spc.pay.setWidth 55 ∧ q.spv 0x010 = k.spv (0x01C + 8 * x) ∧
        fld (q.spv 0x001) 5 0 = fld st 5 0 ∧ q.pbit 6 = true ∧ q.pbit 7 = st.getLsbD 7 ∧ q.wait = .none ∧
        q.cwp = (if twin = true ∨ fld st 11 8 = k.cwp then k.cwp else w) ∧
        q.twCur = fld st 13 12 ∧
        (twin = true ∨ k.twRel.getLsbD x = true → fld st 13 12 ≠ x → q.twUse.getLsbD x = false) ∧
        (fld st 13 12 ≠ 0 → q.twUse.getLsbD (fld st 13 12) = true) ∧
        q.regs = k.regs ∧ t.mem = s.mem)

/-- (R177, R179, R180, R181, R89, R118) With no trap window in use, for a cause other than 0x20 and 0x21 and with room in
the windows, a trap at the PC enters level X = max(L, B), B being S for a delegated cause and T otherwise: SPC_X is the
LINK of the PC at the old level, SSTAT_X holds PSTAT and CWP, SCAUSE_X and SINFO_X the cause and information, SLOOP_X
the old LCOUNT, LCOUNT is 0, PSTAT keeps only NOPROM beside LEVEL = X, CWP advances by one window owned by X, and the PC
is word TVEC_X + 4 times the cause, half 0. BRK takes this entry with cause 0x38, TRAP_ENTRY with the synchronous cause
it names; where that is 0x05 with role 0x0D, CLU_CSERR.SFLOW is set as well. -/
def Obligations.TrapEntrySavesAndVectors : Prop :=
  ∀ (s : State) (c cause bank : Nat) (info : B64), c < s.build.cores → s.canIssue c = true →
    let k := s.core c
    let x := s.trapTarget c cause bank
    (k.twCur = 0 → k.hasRoom → cause ≠ 0x20 → cause ≠ 0x21 →
      let t := s.trapHere c cause info bank
      let q := t.core c
      (∃ b, (b = 1 ∨ b = 2) ∧ (b = 1 ↔ delegable cause = true ∧ (k.spv 0x053).getLsbD cause = true ∧
          ¬ (cause = 0x31 ∧ s.pairedOn c = true)) ∧ x = max k.level b) ∧
      (1 ≤ x → x ≤ 3 →
      q.sp (0x018 + 8 * x) = Word.link k.level k.pc ∧
      q.spv (0x019 + 8 * x) = BitVec.ofNat 64 (fld (k.spv 0x001) 7 0 + k.cwp * 2 ^ 8) ∧
      q.sp (0x01A + 8 * x) = Word.nat cause ∧ q.sp (0x01B + 8 * x) = Word.fix info ∧
      q.spv (0x01C + 8 * x) = k.spv 0x010 ∧ q.spv 0x010 = 0 ∧
      q.level = x ∧ q.pbit 5 = k.pbit 5 ∧ (∀ i, i = 2 ∨ i = 3 ∨ i = 4 ∨ i = 6 ∨ i = 7 → q.pbit i = false) ∧
      q.pc = BitVec.ofNat 55 ((k.spv (0x037 + x)).toNat % 2 ^ 54 + 4 * cause) ∧
      q.cwp = (k.cwp + 1) % 12 ∧ q.window (k.cwp + 1) = ⟨x, true, false⟩ ∧ q.twUse = k.twUse ∧ q.wait = .none ∧
      t.mem = s.mem)) ∧
    (s.runs c → exec (.brk c) s = .next ((s.begun c).trapHere c 0x38 0 2)) ∧
    (∀ (cc : BitVec 6) (i : BitVec 64), cc.toNat ∈ [0x01, 0x02, 0x03, 0x04, 0x05, 0x06, 0x07, 0x08, 0x09, 0x0A, 0x0B,
        0x10, 0x11, 0x12, 0x13, 0x14, 0x19, 0x1A, 0x20, 0x21, 0x22, 0x28, 0x29, 0x2A, 0x38] → k.entering = false → k.stepPend = false →
      (¬ (cc.toNat = 0x05 ∧ fld i 15 8 = 0x0D) → exec (.trapEntry c cc i) s = .next (s.trapHere c cc.toNat i (bankOf k.level))) ∧
      (cc.toNat = 0x05 → fld i 15 8 = 0x0D → exec (.trapEntry c cc i) s =
        .next ((s.wr .cluCserr (c / 4) 0 (s.rd .cluCserr (c / 4) ||| 0x20000000)).trapHere c 0x05 i (bankOf k.level))))

/-- (R179, R184, R185, R177) A trap taken while a trap window is in use, and one of cause 0x20 or 0x21, enters with CWP
unchanged in the trap window of its target level X, with SSTAT_X.TWIN = 1 and OUTER the window that was current; it
locks the core up with LKCAUSE 2 when that window is already in use, and with LKCAUSE 3 when a spill or fill fault would
be taken at level M. A fetch fault at a vector entry locks up with LKCAUSE 1. A locked core issues nothing. -/
def Obligations.TrapWindowsAndLockup : Prop :=
  ∀ (s : State) (c cause bank : Nat) (info : B64), c < s.build.cores → s.canIssue c = true →
    let k := s.core c
    let x := s.trapTarget c cause bank
    let lk := fun (t : State) => fld (t.rd .cluCoreStat (c / 4) (c % 4)) 27 24
    (k.twCur ≠ 0 ∨ cause = 0x20 ∨ cause = 0x21 → x ≤ 3 → 1 ≤ x →
      let t := s.trapHere c cause info bank
      let q := t.core c
      ((cause = 0x20 ∨ cause = 0x21) ∧ x = 3 → q.locked = true ∧ lk t = 3) ∧
      (¬ ((cause = 0x20 ∨ cause = 0x21) ∧ x = 3) → k.twUse.getLsbD x = true → q.locked = true ∧ lk t = 2) ∧
      (¬ ((cause = 0x20 ∨ cause = 0x21) ∧ x = 3) → k.twUse.getLsbD x = false →
        q.twCur = x ∧ q.twUse.getLsbD x = true ∧ q.cwp = k.cwp ∧ q.locked = false ∧
        q.spv (0x019 + 8 * x) = BitVec.ofNat 64 (fld (k.spv 0x001) 7 0 + k.cwp * 2 ^ 8 + k.twCur * 2 ^ 12 + 2 ^ 14) ∧
        q.sp (0x01A + 8 * x) = Word.nat cause ∧ q.level = x)) ∧
    (k.entering = true → k.stepPend = false → ∀ (cc : BitVec 6) (i : BitVec 64), cc.toNat ∈ [0x10, 0x11, 0x12, 0x13, 0x14, 0x19, 0x1A] →
      ∃ t, exec (.trapEntry c cc i) s = .next t ∧ (t.core c).locked = true ∧ lk t = 1 ∧ t.canIssue c = false)

/-- (R178, R179, R120, R186, R187, R193, R188) INTERRUPT takes the timer when it is pending and its level is above the
current one, or equal with PSTAT.IE, else the lowest pending enabled source under the same rule, with cause 0x31 or 0x32
and the source as SINFO, and clears the timer pending bit when it is taken; in the shadow, while a resuming sequence
stands stopped (R120), while the core waits inside an instruction, or with none due, it changes nothing (that a wait
inside an instruction takes no interrupt is a reading of this model, log entry 20). A single-step trap that waits for
the spill engine comes first. TIMER_EXPIRY with TMRCNT at 1 makes it 0 and the timer pending. BACKGROUND_SPILL spills
the oldest resident frame when fewer than two windows beyond CWP are free. -/
def Obligations.InterruptsTimersAndSpills : Prop :=
  ∀ (s : State) (c : Nat), c < s.build.cores →
    let k := s.core c
    let may := fun (x : Nat) => k.level < x ∨ (k.level = x ∧ k.pbit 2 = true)
    let lvl := fun (toS : Bool) => if toS = true ∧ s.pairedOn c = false then 1 else 2
    let tl := lvl ((k.spv 0x053).getLsbD 0x31)
    let due := fun (i : Nat) => (s.ipend c).getLsbD i = true ∧ (k.spv 0x051).getLsbD i = true ∧ may (lvl ((k.spv 0x052).getLsbD i))
    (s.canIssue c = true →
      let open' := k.waits = false ∧ k.ucStopped = false ∧ k.stepPend = false
      (k.waits = true ∨ k.ucStopped = true ∨ (k.pbit 6 = true ∧ k.stepPend = false) → exec (.interrupt c) s = .next s) ∧
      (k.waits = false → k.ucStopped = false → k.stepPend = true → exec (.interrupt c) s = .next (s.stepTrap c)) ∧
      (k.pbit 6 = false → open' → k.tmrPend = true → may tl →
        let r := s.tryTrap c tl 0x31 0 k.pc
        exec (.interrupt c) s = .next (if r.2 = .taken then r.1.modCore c fun k => { k with tmrPend := false } else r.1)) ∧
      (∀ i < 64, k.pbit 6 = false → open' → ¬ (k.tmrPend = true ∧ may tl) → due i → (∀ j < i, ¬ due j) →
        exec (.interrupt c) s = .next (s.tryTrap c (lvl ((k.spv 0x052).getLsbD i)) 0x32 (BitVec.ofNat 64 i) k.pc).1) ∧
      (¬ (k.tmrPend = true ∧ may tl) → (∀ i < 64, ¬ due i) → k.stepPend = false → exec (.interrupt c) s = .next s) ∧
      (∀ i < 11, (k.window (k.cwp + 1 + i)).res = true → (∀ j < i, (k.window (k.cwp + 1 + j)).res = false) → i ≤ 1 →
        exec (.backgroundSpill c) s = .next ((spillWindow c ((k.cwp + 1 + i) % 12)).run.run s).2)) ∧
    (k.spv 0x054 = 1 → exec (.timerExpiry c) s =
      .next (s.modCore c fun k => { k.setSpv 0x054 0 with tmrPend := true }))

/-- (R83, R90, R91, R92, R93, R244, R247) With even register pairs and public FIX counts and indices: a count of 0 completes
with no effect on registers or memory (SCANTAG writes -1). A count of 1 copies the word at the source index to the
destination index as a checked load and store (BLKCOPYR raw, at level T or M, with FIX bases), steps both indices up and
the count down (the direction kept for a resumption is upward); ZRANGE at level S or above stores EMPTY at the index;
SCANTAG writes the index where the mask selects the type of the word and -1 where it does not, with the index register
past the word. At level S or above ZLINE of a public FIX address whose sum is a multiple of 8 completes once earlier
stores are performed and the line is owned, with its words EMPTY; another sum raises trap 0x04. FENCE completes on empty
buffers with no change, else when draining the stores and home atomics succeeds, and waits otherwise. -/
def Obligations.BlockInstructionsZlineAndFence : Prop :=
  (∀ (s : State) (c : Nat) (rd rs1 rs2 : Reg), s.runs c →
    let x := s.begun c
    let r := fun (n : Reg) => s.reg c n
    let idx := fun (n : Reg) => (r (n + 1)).pay.toInt
    let even := fun (n : Reg) => n.toNat % 2 = 0 ∧ 2 ≤ n.toNat
    let pub := fun (w : Word) => w.isFix = true ∧ w.sec = false
    let step1 := fun (n : Reg) (k : Core) => k.put (n + 1) (Word.fix ((k.get (n + 1)).pay + 1))
    let cnt := fun (k : Core) => k.put rs2 (Word.fix ((k.get rs2).pay - 1))
    let done := fun (t : State) => (Host.Outcome.next (t.retire c (s.core c) .seq) : Out)
    let fixBase := fun (n : Reg) => pub (r n) ∧ 1 ≤ (s.core c).level
    let low := fun (n : Reg) => (r n).isFix = true → 1 ≤ (s.core c).level
    let dir := fun (t : State) => if (s.core c).pbit 3 = true then t
      else t.modStrand (t.strandOn c) fun q => { q with back := putBit q.back (s.core c).level false }
    even rs1 → pub (r (rs1 + 1)) → (r rs1).sec = false → low rs1 → pub (r rs2) →
    ((r rs2).pay = 0 →
      (∀ o t o' u, even rd → pub (r (rd + 1)) → (r rd).sec = false → low rd → x.spanObj c (r rs1) o t → t.spanObj c (r rd) o' u →
        exec (.blkcopy c rd rs1 rs2) s = done u) ∧
      (even rd → 2 ≤ (s.core c).level → fixBase rs1 → fixBase rd → pub (r (rd + 1)) → exec (.blkcopyr c rd rs1 rs2) s = done (dir x)) ∧
      (∀ o t, 1 ≤ (s.core c).level → x.spanObj c (r rs1) o t → exec (.zrange c rs1 rs2) s = done t) ∧
      (∀ o t, pub (r rd) → x.spanObj c (r rs1) o t →
        exec (.scantag c rd rs1 rs2) s = done (t.modCore c fun k => k.put rd (Word.fix (BitVec.ofInt 64 (-1)))))) ∧
    ((r rs2).pay = 1 → (s.core c).pbit 3 = false → ∀ o t1, x.spanObj c (r rs1) o t1 → spanFits (r rs1) o (idx rs1) 1 →
      (∀ o' t2 va vb t3 t4 va' t5 e pa w t6 vb' t7 t8, even rd → pub (r (rd + 1)) → (r rd).sec = false → low rd →
        t1.spanObj c (r rd) o' t2 → spanFits (r rd) o' (idx rd) 1 →
        t2.spanAt c (r rs1) o (idx rs1) va t3 → t3.spanAt c (r rd) o' (idx rd) vb t4 →
        (dir t4).spanAt c (r rs1) o (idx rs1) va' t5 → t5.finds c va' e pa w t6 → t6.takes c va' e w →
        t6.mayStore c w ((r rd).isCons && idx rd == 0) ((r rd).isFix || (r rd).isCons) →
        t6.spanAt c (r rd) o' (idx rd) vb' t7 → t7.stores c vb' w (o'.map Prod.snd) t8 →
        exec (.blkcopy c rd rs1 rs2) s = done (t8.modCore c fun k => cnt (step1 rd (step1 rs1 k)))) ∧
      (∀ e pa w t3 e' pa' t4 t5, even rd → 2 ≤ (s.core c).level → fixBase rs1 → fixBase rd → pub (r (rd + 1)) →
        (dir x).finds c ((r rs1).pay + (r (rs1 + 1)).pay).toNat e pa w t3 →
        t3.watchHit c ((r rs1).pay + (r (rs1 + 1)).pay).toNat false = none →
        t3.maps c (t3.core c).level .store ((r rd).pay + (r (rd + 1)).pay).toNat e' pa' t4 →
        t4.watchHit c ((r rd).pay + (r (rd + 1)).pay).toNat true = none → t4.buffered c pa' w t5 →
        exec (.blkcopyr c rd rs1 rs2) s = done (t5.modCore c fun k => cnt (step1 rd (step1 rs1 k)))) ∧
      (∀ va t2 e pa t3 t4, 1 ≤ (s.core c).level → t1.spanAt c (r rs1) o (idx rs1) va t2 →
        t2.maps c (t2.core c).level .store va e pa t3 → e.x = false → t3.watchHit c va true = none →
        t3.buffered c pa Word.empty t4 →
        exec (.zrange c rs1 rs2) s = done (t4.modCore c fun k => cnt (step1 rs1 k))) ∧
      (∀ va t2 e pa w t3, pub (r rd) → t1.spanAt c (r rs1) o (idx rs1) va t2 → t2.finds c va e pa w t3 → e.x = false →
        t3.watchHit c va false = none →
        let hit := (r rd).pay.getLsbD w.ty != (r rd).pay.getLsbD 32
        exec (.scantag c rd rs1 rs2) s = done (t3.modCore c fun k => (cnt (step1 rs1 k)).put rd
          (Word.fix (if hit = true then (r (rs1 + 1)).pay else BitVec.ofInt 64 (-1))))))) ∧
  (∀ (s : State) (c : Nat) (rs1 : Reg) (i : BitVec 13), s.runs c →
    let b := s.reg c rs1
    let va := (b.pay + BitVec.ofInt 64 i.toInt).toNat
    let n := s.build.cellOfCore c
    (1 ≤ (s.core c).level → b.isFix = true → b.sec = false →
      (va % 8 ≠ 0 → exec (.zline c rs1 i) s = .next ((s.begun c).trapHere c 0x04 0 2)) ∧
      (∀ e pa u v t, va % 8 = 0 → (s.begun c).maps c (s.core c).level .store va e pa u → e.x = false →
        u.watchHit c va true = none → drainStores 8 u c = (v, true) →
        (if (v.scratchAt n pa).isNone = true ∧ (v.cell n).l2off = false then v.acquireM (c / 4) (pa / 8) true = (t, true) else t = v) →
        ∀ t', (l2Words c pa (List.replicate 8 Word.empty)).run.run t = (.ok ⟨⟩, t') →
        exec (.zline c rs1 i) s = .next (t'.retire c (s.core c) .seq))) ∧
    ((s.core c).sb = [] → (s.core c).atomics = [] → exec (.fence c) s = .next ((s.begun c).retire c (s.core c) .seq)) ∧
    (∀ t, (s.begun c).drain c = (t, true) → exec (.fence c) s = .next (t.retire c (s.core c) .seq) ∧
      (∃ u, drainStores 8 (s.begun c) c = (u, true) ∧ (u.core c).sb = []) ∧ (t.core c).atomics = []) ∧
    (∀ t, (s.begun c).drain c = (t, false) →
      exec (.fence c) s = .next (t.modCore c fun k => { k with wait := .memory })))

/-- (R93, R195, R196, R197) At level S or above, SAVEU and SAVEL of a public FIX multiple of 32 on a SEAL page write word 0,
the LINK with the old SAVEHEAD, word 1, the header with HELD, KIND and CWP, and each dirty group of their half at the
offsets of R196, and set SAVEHEAD to the area, leaving DIRTY as it was. RSTU and RSTL with SAVEHEAD 0 raise trap 0x22
with REASON 4. From an area of the right KIND they load the groups of their half, those held from the area, else those
of the base copy of the strand, where it has one; the DIRTY bits of the half become those held, and SAVEHEAD the payload
of word 0. The statement gives this where all groups are held and where none is; the microcode of the context entry must
be good. -/
def Obligations.SaveAreasKeepTheDirtyGroups : Prop :=
  ∀ (s : State) (c : Nat) (rs1 : Reg), s.runs c → 1 ≤ (s.core c).level → s.microAt c 0x00B0 →
    let k := s.core c
    let a := s.reg c rs1
    let b := bankOf k.level
    let x := s.begun c
    (∀ e pa u v t, a.isFix = true → a.sec = false → a.pay.toNat % 32 = 0 →
      x.maps c k.level .store a.pay.toNat e pa u → e.sl = true → drainStores 8 u c = (v, true) →
      let q := v.core c
      let dirty := fld (q.spv 0x003) 3 0
      let head := fun (kind held : Nat) => [(0, Word.link q.level ((q.saveHead (bankOf q.level)).setWidth 55)),
        (1, Word.nat (held + kind * 16 + q.cwp * 256))]
      let done := (Host.Outcome.next ((t.modCore c fun k => k.setSaveHead (bankOf q.level) a.pay).retire c k .seq) : Out)
      ((recStore c pa (head 1 (Nat.land dirty 5) ++ (if dirty.testBit 0 then q.groupG else []) ++
          (if dirty.testBit 2 then q.groupL else []))).run.run v = (.ok ⟨⟩, t) → exec (.saveu c rs1) s = done) ∧
      ((recStore c pa (head 2 (Nat.land dirty 2) ++ (if dirty.testBit 1 then q.groupW else []))).run.run v = (.ok ⟨⟩, t) →
        exec (.savel c rs1) s = done)) ∧
    (k.saveHead b = 0 → ∀ i ∈ [Instr.rstu c, .rstl c],
      exec i s = .next (x.trapHere c 0x22 (BitVec.ofNat 64 (4 * 2 ^ 60)) 2)) ∧
    (let va := (k.saveHead b).toNat
     ∀ e pa u w0 u0 w1 u1, va ≠ 0 → va % 32 = 0 → x.maps c k.level .load va e pa u → e.sl = true →
      (sealWord c k.level 0x22 2 va).run.run u = (.ok w0, u0) → (sealWord c k.level 0x22 2 (va + 1)).run.run u0 = (.ok w1, u1) →
      w0.isLink = true →
      (∀ ws t ls v, fld w1.pay 5 4 = 1 → fld w1.pay 3 0 = 5 →
        (sealWords c (u1.core c).level 0x22 2 (va + 2) 25).run.run u1 = (.ok ws, t) →
        (sealWords c (t.core c).level 0x22 2 (va + 27) 3).run.run t = (.ok ls, v) →
        exec (.rstu c) s = .next ((v.modCore c fun k => (((k.putG ws).putL ls).setDirty
          (Nat.lor (Nat.land ((k.putG ws).putL ls).dirtyBits 10) 5)).setSaveHead b w0.pay).retire c k .seq)) ∧
      (fld w1.pay 5 4 = 1 → fld w1.pay 3 0 = 0 →
        (u1.recordOf c = none → exec (.rstu c) s =
          .next ((u1.modCore c fun k => (k.setDirty (Nat.land k.dirtyBits 10)).setSaveHead b w0.pay).retire c k .seq)) ∧
        (∀ b0 ws t ls v, u1.recordOf c = some b0 → (baseLoads c (b0 + 2) 25).run.run u1 = (.ok ws, t) →
          (baseLoads c (b0 + 27) 3).run.run t = (.ok ls, v) →
          exec (.rstu c) s = .next ((v.modCore c fun k => (((k.putG ws).putL ls).setDirty
            (Nat.land ((k.putG ws).putL ls).dirtyBits 10)).setSaveHead b w0.pay).retire c k .seq))) ∧
      (fld w1.pay 5 4 = 2 → fld w1.pay 11 8 = k.cwp → fld w1.pay 3 0 = 0 →
        (u1.recordOf c = none → exec (.rstl c) s =
          .next ((u1.modCore c fun k => (k.setDirty (Nat.land k.dirtyBits 13)).setSaveHead b w0.pay).retire c k .seq)) ∧
        (∀ b0 ws t, u1.recordOf c = some b0 → (baseLoads c (b0 + 34) 24).run.run u1 = (.ok ws, t) →
          exec (.rstl c) s = .next ((t.modCore c fun k => ((k.putW ws).setDirty
            (Nat.land (k.putW ws).dirtyBits 13)).setSaveHead b w0.pay).retire c k .seq))) ∧
      (∀ ws t, fld w1.pay 5 4 = 2 → fld w1.pay 11 8 = k.cwp → fld w1.pay 3 0 = 2 →
        (sealWords c (u1.core c).level 0x22 2 (va + 2) 24).run.run u1 = (.ok ws, t) →
        exec (.rstl c) s = .next ((t.modCore c fun k => ((k.putW ws).setDirty
          (Nat.lor (Nat.land (k.putW ws).dirtyBits 13) 2)).setSaveHead b w0.pay).retire c k .seq)))

/-- (R94, R101, R202, R203, R204) MFS at its read level writes the register to rd, stated for these: CORE_ID, the colour,
CYCLE at level T, FRAMENO without a partition, DBGSTAT, the collection registers at level T, SPILLPTR and SAVEHEAD of
the bank of the level, IPEND, IFIRST (64 when none), the SSCRATCH words as they are, the link registers as LINKs, the
plain ones as FIX. MTS of a public FIX to IENABLE, ITOS, SINFO, DBGCTL, the counters and GATECNT stores the implemented
bits; LINKs go to SPC. An unassigned number raises trap 0x01, a level below the read or write level trap 0x0B, a wrong
type trap 0x03, a secret FIX trap 0x05 with role 0x0B. -/
def Obligations.SpecialRegistersReadAndWrite : Prop :=
  ∀ (s : State) (c : Nat) (rd rs1 : Reg) (n : BitVec 12), s.runs c →
    let k := s.core c
    let w := s.reg c rs1
    let m := n.toNat
    let reads := fun (x : Word) => (exec (.mfs c rd n) s = .next (s.wrote c rd x) : Prop)
    let writes := fun (f : Core → Core) => (exec (.mts c rs1 n) s = .next (s.ends c f .seq) : Prop)
    let trap := fun (cause info : Nat) => (Host.Outcome.next ((s.begun c).trapHere c cause (BitVec.ofNat 64 info) 2) : Out)
    let b := bankOf k.level
    (specLevels m = none → exec (.mfs c rd n) s = trap 0x01 0 ∧ exec (.mts c rs1 n) s = trap 0x01 0) ∧
    (∀ lr lw, specLevels m = some (lr, lw) →
      (k.level < lr → exec (.mfs c rd n) s = trap 0x0B 0) ∧ (k.level < lw → exec (.mts c rs1 n) s = trap 0x0B 0) ∧
      (lr ≤ k.level →
        (m = 0x000 → reads (Word.nat (s.build.cellOfCore c * 2 ^ 10 + c / 4 % 16 * 2 ^ 6 + c % 64))) ∧
        (m = 0x00A → reads (Word.fix (k.spillPtr b))) ∧ (m = 0x00B → reads (Word.fix (k.saveHead b))) ∧
        (m = 0x043 ∨ m = 0x055 ∨ m = 0x056 → reads (Word.nat 0)) ∧
        (m = 0x005 → 2 ≤ k.level → reads (Word.nat (s.goodColour c))) ∧
        (m = 0x006 → 2 ≤ k.level → reads (Word.fix (BitVec.ofNat 64 (s.clock * 8) + k.cycOff))) ∧
        (m = 0x007 → k.part = none → reads (Word.nat s.frame)) ∧
        (m = 0x061 → reads (Word.nat (b2n (k.twUse.getLsbD 2) * 8 + b2n (k.twUse.getLsbD 1) * 4 + k.level))) ∧
        (∀ p x r, s.rkOn c = some (p, x, r) → 2 ≤ k.level → (0x300 ≤ m ∧ m ≤ 0x308) ∨ (0x30B ≤ m ∧ m ≤ 0x315) ∨ m = 0x317 →
          reads (Word.fix (Tab.get (fun _ => 0) r.reg m))) ∧
        (m = 0x050 → reads (Word.fix (s.ipend c))) ∧
        (m = 0x057 → ∃ i ≤ 64, reads (Word.nat i) ∧
          (i < 64 → (s.ipend c).getLsbD i = true ∧ (k.spv 0x051).getLsbD i = true) ∧
          ∀ j < i, ((s.ipend c).getLsbD j && (k.spv 0x051).getLsbD j) = false) ∧
        (m ∈ [0x011, 0x012, 0x020, 0x028, 0x030, 0x038, 0x039, 0x03A, 0x03B, 0x03C, 0x03D] → reads (k.sp m)) ∧
        (m ∈ [0x001, 0x002, 0x003, 0x004, 0x010, 0x00C, 0x00D, 0x051, 0x052, 0x053, 0x054] ∨ (0x018 ≤ m ∧ m ≤ 0x01F) ∨
          (0x080 ≤ m ∧ m ≤ 0x0BF) → reads (Word.fix (k.spv m)))) ∧
      (lw ≤ k.level →
        (m ∈ [0x001, 0x004, 0x00A, 0x00B, 0x00C, 0x00D, 0x051, 0x052, 0x053, 0x054, 0x060, 0x06E] ∨ (0x080 ≤ m ∧ m ≤ 0x0BF) →
          (w.isFix = false → exec (.mts c rs1 n) s = trap 0x03 w.tag.toNat) ∧
          (w.isFix = true → w.sec = true → exec (.mts c rs1 n) s = trap 0x05 (0x0B * 256))) ∧
        (w.isFix = true → w.sec = false →
          (m = 0x00A → writes fun k => k.setSpillPtr b w.pay) ∧ (m = 0x00B → writes fun k => k.setSaveHead b w.pay) ∧
          (m = 0x051 ∨ m = 0x052 ∨ m = 0x023 ∨ m = 0x02B ∨ (0x080 ≤ m ∧ m ≤ 0x09F) →
            writes fun k => (k.setSp m w).dirty 0) ∧
          (m = 0x00D → writes fun k => (k.setSp m ⟨w.tag, w.pay &&& 0x3FFFF⟩).dirty 0) ∧
          (m = 0x060 → writes fun k => (k.setSp m ⟨w.tag, w.pay &&& 0xFF⟩).dirty 0)) ∧
        (m ∈ [0x03B, 0x03C, 0x03D] → writes fun k => k.setSp m w) ∧
        (m ∈ [0x020, 0x028, 0x030] → w.isLink = true →
          writes fun k => (k.setSp m ⟨w.tag, w.pay &&& 0x007FFFFFFFFFFFFF⟩).dirty 0)))

/-- (R39, R333, R186) On a core that serves partition p on side x, RQTAKE with a delivered request removes the oldest from
the delivery list of that side only, records its arrival frame and cycle stamp for the side, and writes the pointer to
its record; with none delivered the core waits. RQPEEK outside pairs writes the same pointer, or nil when none is
delivered, and removes nothing; in a paired partition it raises trap 0x0B. REQUEST_DELIVERED_WAKE runs a waiting RQTAKE
again. -/
def Obligations.RequestTakingFollowsTheDeliveryOrder : Prop :=
  ∀ (s : State) (c p : Nat) (rd : Reg), s.runs c → (s.core c).part = some p →
    let q := s.part p
    let side := s.sideOfCore c p
    let ptr := fun (t : State) (a : Req) => t.goodPtr c 0x11 ((t.part a.part).arenaVa + a.recOff.getD 0)
    (∀ r l a, q.dlv side = r :: l → s.req r = some a → q.paired = false →
      exec (.rqtake c rd) s = .next ((((s.begun c).modPart p fun q => { q.setDlv side l with
        rqFrm := Tab.set (fun _ => 0) q.rqFrm side (a.arr + 1),
        rqCyc := Tab.set (fun _ => 0) q.rqCyc side a.stamp }).modCore c fun k => k.put rd (ptr s a)).retire c (s.core c) .seq) ∧
      exec (.rqpeek c rd) s = .next (s.wrote c rd (ptr s a))) ∧
    (q.dlv side = [] →
      exec (.rqtake c rd) s = .next ((s.begun c).modCore c fun k => { k with wait := .rqtake rd }) ∧
      (q.paired = false → exec (.rqpeek c rd) s = .next (s.wrote c rd Word.nil))) ∧
    (q.paired = true → exec (.rqpeek c rd) s = .next ((s.begun c).trapHere c 0x0B 0 2)) ∧
    (q.paired = true → (s.core c).pbit 4 = false → ∀ r l a, q.dlv side = r :: l → s.req r = some a →
      ∃ t, exec (.rqtake c rd) s = .next t ∧ (t.part p).dlv side = l ∧ (t.part p).dlv (1 - side) = q.dlv (1 - side)) ∧
    ((s.core c).wait = .rqtake rd → exec (.requestDeliveredWake c) s = exec (.rqtake c rd) s)

/-- (R195, R202, R223, R224, R229) At level T or above with a public FIX in rs1: ISET sets and ICLR clears the software
sources named in bits 63 to 56; the three TLB_INVALIDATE rows, with OP 1, 2 or 3 in bits 63 to 62, enter their request
in the list of the cell unless it is covered already (an empty list takes it), and TLBSTAT names the next frame as
PENDING; DIRTY_WRITE on a core without a context record sets DIRTY to bits 3 to 0, and with one first stores each group
whose bit goes from 1 to 0. -/
def Obligations.SoftwareInterruptsTlbRequestsAndDirty : Prop :=
  ∀ (s : State) (c : Nat) (rs1 : Reg), s.runs c → 2 ≤ (s.core c).level →
    let w := s.reg c rs1
    let v := w.pay
    let n := s.build.cellOfCore c
    let asid := ((s.core c).spv 0x042).toNat % 65536
    let top := (v >>> 56).setWidth 8
    w.isFix = true → w.sec = false →
    exec (.iset c rs1) s = .next (s.ends c (fun k => { k with swInt := k.swInt ||| top }) .seq) ∧
    exec (.iclr c rs1) s = .next (s.ends c (fun k => { k with swInt := k.swInt &&& ~~~top }) .seq) ∧
    (fld v 61 54 = 0 → (s.core c).pbit 4 = false → ∀ i q, (fld v 63 62 = 1 ∧ i = Instr.tlbInvalidatePage c rs1 ∧ q = .page asid (fld v 53 0 / 512)) ∨
        (fld v 63 62 = 2 ∧ i = .tlbInvalidateAsid c rs1 ∧ q = .asid asid) ∨
        (fld v 63 62 = 3 ∧ i = .tlbInvalidateAll c rs1 ∧ q = .all) →
      ∃ t, exec i s = .next t ∧
        (t.cell n).shoot = (shootAdd (s.cell n).shoot q).1 ∧
        ((s.cell n).shoot = [] → (t.cell n).shoot = [q]) ∧
        (t.core c).spv 0x044 = BitVec.ofNat 64 ((s.frame + 1) % 2 ^ 48 * 2 ^ 16 + b2n (shootAdd (s.cell n).shoot q).2 * 2 + 1) ∧
        (∀ o, o ≠ n → t.cell o = s.cell o)) ∧
    ((s.begun c).recordOf c = none → exec (.dirtyWrite c rs1) s = .next (s.ends c (fun k => k.setDirty (fld v 3 0)) .seq)) ∧
    (∀ t, (dirtyWriteOp c v).run.run (s.begun c) = (.ok ⟨⟩, t) →
      exec (.dirtyWrite c rs1) s = .next (t.retire c (s.core c) .seq))

/-- (R150, R165, R172, R173) At level T or above with a public FIX whose low bits spell the request, on a core that serves a
partition: OP 1 or 2 in phase IDLE and OP 3 in phase MARKED become the pending request with ERR 0 (a RELOCATE also waits
for its plan); in any other phase the request is refused with ERR 1 and nothing is pending. RKPIN outside IDLE sets ERR
1; in IDLE it sets MARK of the header it names or clears it. Writing 0 to a collection counter clears it and another
value changes nothing. -/
def Obligations.CollectionRequestsAreAcceptedInTheirPhase : Prop :=
  ∀ (s : State) (c p : Nat) (rs1 : Reg) (n : BitVec 12), s.runs c → 2 ≤ (s.core c).level → (s.core c).part = some p →
    let w := s.reg c rs1
    let v := w.pay
    let side := s.sideOfCore c p
    let r := s.rk p side
    let done := fun (f : Rk → Rk) => (Host.Outcome.next (((s.begun c).modRk p side f).retire c (s.core c) .seq) : Out)
    let no := fun (r : Rk) => { r with err := 1, req := 0, plan := false, flipPend := false, defer := false }
    w.isFix = true → w.sec = false →
    (∀ op i, (op = 1 ∧ i = Instr.markFull c rs1) ∨ (op = 2 ∧ i = .markYoung c rs1) → fld v 3 0 = op →
      (r.phase = 0 → exec i s = done fun r => { r with req := op, err := 0 }) ∧ (r.phase ≠ 0 → exec i s = done no)) ∧
    (fld v 3 0 = 3 →
      (r.phase = 2 → exec (.relocate c rs1) s = done fun r => { r with req := 3, err := 0, plan := true, flipPend := false }) ∧
      (r.phase ≠ 2 → exec (.relocate c rs1) s = done no)) ∧
    (r.phase ≠ 0 → exec (.rkpin c rs1) s = done fun r => { r with err := 1 }) ∧
    (∀ pa t, r.phase = 0 → (s.begun c).agentAddr p side .store (v.toNat % 2 ^ 54) = (some pa, t) → (t.agentRead pa).1.isHdr = true →
      let h := t.agentRead pa
      exec (.rkpin c rs1) s =
        .next ((h.2.agentWrite pa ⟨h.1.tag, putBit h.1.pay 2 (!v.getLsbD 63)⟩).retire c (s.core c) .seq)) ∧
    ((0x30F ≤ n.toNat ∧ n.toNat ≤ 0x315) ∨ n.toNat = 0x317 →
      (v = 0 → exec (.rakeCounterClear c rs1 n) s = done fun r => { r with reg := Tab.set (fun _ => 0) r.reg n.toNat 0 }) ∧
      (v ≠ 0 → exec (.rakeCounterClear c rs1 n) s = done id))

/-- (R95, R297, R298, R300, R304) Once group X is in the core: XPUT writes the word to its CX register and XGET reads it
(waiting while an operation in flight writes it). With the coprocessor in service, AESENC and AESDEC with a checked AES
handle in CX0 run the cipher on CX8 and CX9 into CX10 and CX11, public or secret; SHA256C compresses CX24 to CX31 into
CX16 to CX19; GMUL multiplies CX8, CX9 by CX10, CX11 into CX12, CX13; RNG puts 64 secret bytes of the partition
generator into CX8 to CX15; XCLR empties all; the results enter their registers at INLINE_OPERATION_COMPLETE. All set
DIRTY.X. Out of service they, the key instructions and an XWAIT that does not wait already (log entry 54) raise trap
0x28. -/
def Obligations.InlineGraftOperationsGiveTheirResults : Prop :=
  ∀ (s : State) (c : Nat) (n : BitVec 5) (rd rs1 : Reg) (u : State), s.runs c →
    (loadX c).run.run (s.begun c) = (.ok ⟨⟩, u) →
    let ready := ((s.begun c).rd .cpxCtl (c / 4)).getLsbD 0 = true
    let v := u.modCore c fun k => k.dirty 8
    let x := u.modCore c fun k => (k.dirty 8).finishInline
    let k := x.core c
    let cx := fun (i : Nat) => k.sp (0x100 + i)
    let fin := fun (t : State) => (Host.Outcome.next (t.retire c (s.core c) .seq) : Out)
    let inl := fun (t : State) (n : Nat) (ws : List Word) => fin (t.modCore c fun k =>
      { k with inlineOp := some ⟨(List.range ws.length).map fun i => (n + i, ws.getD i Word.empty)⟩ })
    let raws := fun (b : List (BitVec 8)) (sc : Bool) => (chunk 8 b).map fun y => Word.raw (BitVec.ofNat 64 (natLE y)) sc
    let block := fun (l : List Nat) => l.flatMap fun i => bytesLE 8 (cx i).pay.toNat
    let words := fun (l : List Nat) => ∀ i ∈ l, (cx i).isWordOp = true
    let sec := fun (l : List Nat) => l.any fun i => (cx i).sec
    let h := cx 0
    let key := fun (right : Nat) => h.ty = 6 ∧ h.sec = false ∧ (handleCheck x k.part h.pay aesType right).1 = 0
    let aes := aesKeyOf (polType (x.slot (hSlot h.pay)).pol) (x.slot (hSlot h.pay)).mat
    exec (.xput c n rs1) s = fin (u.modCore c fun k => ((k.dirty 8).finishInline).setSp (0x100 + n.toNat) ((u.core c).get rs1)) ∧
    ((∀ o, (u.core c).inlineOp = some o → ∀ e ∈ o.results, e.1 ≠ n.toNat) →
      exec (.xget c rd n) s = fin (v.modCore c fun k => k.put rd (k.sp (0x100 + n.toNat)))) ∧
    (ready →
      (words [8, 9] → key 4 → exec (.aesenc c) s = inl x 10 (raws (aesEnc aes (block [8, 9])) false)) ∧
      (words [8, 9] → key 8 → exec (.aesdec c) s = inl x 10 (raws (aesDec aes (block [8, 9])) true)) ∧
      (words [16, 17, 18, 19, 24, 25, 26, 27, 28, 29, 30, 31] → exec (.sha256c c) s = inl x 16
        ((joinHalves (sha256Compress ([16, 17, 18, 19].flatMap fun i => halves (cx i))
          ([24, 25, 26, 27, 28, 29, 30, 31].flatMap fun i => halves (cx i)))).map fun p =>
            Word.raw p (sec [16, 17, 18, 19, 24, 25, 26, 27, 28, 29, 30, 31]))) ∧
      (words [8, 9, 10, 11] → exec (.gmul c) s = inl x 12
        (raws (bytesBE 16 (gmulNat (natBE (block [8, 9])) (natBE (block [10, 11])))) (sec [8, 9, 10, 11]))) ∧
      (∀ p side r b t, x.rkOn c = some (p, side, r) → x.drawBytes p side 1 64 = some (b, t) →
        exec (.rng c) s = inl t 8 (raws b true)) ∧
      exec (.xclr c) s = inl x 0 (List.replicate 32 Word.empty)) ∧
    (¬ ready → ∀ i ∈ [Instr.aesenc c, .aesdec c, .sha256c c, .gmul c, .rng c, .xclr c, .kopen c rd rs1, .kinfo c rd rs1,
        .kgen c rd rs1, .kdel c rs1],
      exec i s = .next ((s.begun c).trapHere c 0x28 0 2)) ∧
    (¬ ready → ∀ e, exec (.krd c rs1 e) s = .next ((s.begun c).trapHere c 0x28 0 2)) ∧
    (¬ ready → (s.core c).wait ≠ .job → exec (.xwait c rd rs1) s = .next ((s.begun c).trapHere c 0x28 0 2)) ∧
    (exec (.inlineOperationComplete c) s = .next (s.modCore c fun k => match k.inlineOp with
      | some o => { o.results.foldl (fun k e => k.setSp (0x100 + e.1) e.2) k with inlineOp := none }
      | none => k))

/-- (R40, R285, R289, R290, R291, R292, R293, R299, R43) With the coprocessor in service and group X in the core: KOPEN of a
public key name below 2^34 of a live key of the partition returns its handle with RIGHTS equal to USE; KATT returns the
handle with RIGHTS masked; KINFO returns policy bits 39 to 0; KRD with READ puts the material into CX8 to CX11 as secret
RAW words, counting a corrected read of the slot, while an uncorrectable one destroys the slot and raises REASON 3
(R293). Outside pairs KGEN of a known type with bits 63 to 40 zero returns the handle of the key made from the draw and
KDEL of a handle with all of USE destroys the slot; in a pair the first twin waits, unless the next key change of the
other is an unwrap. A handle that fails the checks raises trap 0x2A with the REASON. For a degraded pair
TWIN_KEY_WAIT_APPLY carries out the key change of the twin that waited once: a KDEL destroys the slot named, and a core
that still waits with the strand completes; with nothing waiting it changes nothing. -/
def Obligations.KeyOperationsCheckAndUseTheirHandles : Prop :=
  (∀ (s : State) (c p side : Nat) (r : Rk) (rd rs1 rs2 : Reg) (u : State), s.runs c →
    (loadX c).run.run (s.begun c) = (.ok ⟨⟩, u) → ((s.begun c).rd .cpxCtl (c / 4)).getLsbD 0 = true →
    let x := u.modCore c fun k => k.dirty 8
    let k := x.core c
    x.rkOn c = some (p, side, r) →
    let w := k.get rs1
    let m := k.get rs2
    let slot := fun (h : B64) => x.slot (hSlot h)
    let fin := fun (t : State) => (Host.Outcome.next (t.retire c (s.core c) .seq) : Out)
    let put := fun (t : State) (y : Word) => fin (t.modCore c fun k => k.put rd y)
    let bad := fun (n : Nat) (h : B64) =>
      (Host.Outcome.next (x.trapHere c 0x2A (BitVec.ofNat 64 (n * 2 ^ 60 + hSlot h)) 2) : Out)
    let chk := fun (h : B64) (right : Nat) => (handleCheck x (some p) h (fun _ => true) right)
    (w.ty = 1 → w.sec = false → w.pay.toNat < 2 ^ 34 →
      let h := x.nameHandle p w.pay.toNat
      (chk h 0).1 = 0 → exec (.kopen c rd rs1) s = put x (mkWord 6 false 0 h)) ∧
    (w.ty = 6 → m.ty = 1 → m.sec = false →
      exec (.katt c rd rs1 rs2) s = put x ⟨w.tag, putFld w.pay 47 40 (Nat.land (fld w.pay 47 40) (fld m.pay 7 0))⟩) ∧
    (w.ty = 6 →
      ((chk w.pay 0).1 = 0 → exec (.kinfo c rd rs1) s = put x (Word.nat (fld (slot w.pay).pol 39 0))) ∧
      ((chk w.pay 0).1 ≠ 0 → (chk w.pay 0).2 = x → exec (.kinfo c rd rs1) s = bad (chk w.pay 0).1 w.pay) ∧
      (∀ e, let q := handleCheck x (some p) w.pay (fun _ => true) 64 e
        (q.1 = 0 → (e = .good → q.2 = x) ∧ (e = .corrected → q.2 = x.inc32 .kstCecnt) ∧
          exec (.krd c rs1 e) s = fin (q.2.modCore c fun k => (List.range 4).foldl
            (fun y i => y.setSp (0x108 + i) (Word.raw (BitVec.ofNat 64 ((slot w.pay).mat / 2 ^ (64 * i))) true)) k.finishInline)) ∧
        (q.1 ≠ 0 → exec (.krd c rs1 e) s =
          .next (q.2.trapHere c 0x2A (BitVec.ofNat 64 (q.1 * 2 ^ 60 + hSlot w.pay)) 2)) ∧
        (e = .uncorrectable → w.pay.toNat / 2 ^ 48 = 0 → hSlot w.pay < x.build.slots → hPart w.pay = p →
          q.1 = 3 ∧ (q.2.slot (hSlot w.pay)).mat = 0 ∧ polLive (q.2.slot (hSlot w.pay)).pol = false)) ∧
      ((s.part p).paired = false → (x.part p).paired = false → (x.part p).keyWait = none → (chk w.pay 0).1 = 0 →
        fld w.pay 47 40 = fld (slot w.pay).pol 31 24 →
        exec (.kdel c rs1) s = fin (x.setSlot (hSlot w.pay)
          { mat := 0, pol := BitVec.ofNat 64 (min (fld (slot w.pay).pol 57 42 + 1) 0xFFFF * 2 ^ 42), bad := false }))) ∧
    (w.ty = 1 → w.sec = false → ∀ rights, typeRights (fld w.pay 7 0) = some rights → fld w.pay 63 40 = 0 →
      let use := Nat.land (fld w.pay 15 8) rights
      ((x.part p).paired = false → ∀ i mat t, freeSlot x (x.keyBase p) (x.keyCount p) = some i →
        x.drawKey p side (fld w.pay 7 0) = some (mat, t) → (x.part p).live.filter (· != side) = [] →
        freeSlot t (t.keyBase p) (t.keyCount p) = some i →
        let pol := mkPolicy p (fld (t.slot i).pol 57 42) (fld w.pay 7 0) (Nat.land use rights) (fld w.pay 39 16)
        let v := t.setSlot i { mat := mat, pol := pol }
        exec (.kgen c rd rs1) s = put v (mkWord 6 false 0 (mkHandle use p (fld ((v.slot i).pol) 57 42) i))) ∧
      ((x.part p).paired = true → (x.part p).lost = 0 → (x.part p).keyWait = none →
        x.twinJob p side ≠ none ∨ x.twinJob p (1 - side) = none →
        exec (.kgen c rd rs1) s = .next ((x.modPart p fun q => { q with
          keyWait := some { side := side, core := c, fn := 3, operands := [w], rd := rd } }).modCore c
            fun k => { k with wait := .twinKey rd })))) ∧
  (∀ (s : State) (p : Nat), p < s.build.parts →
    let q := s.part p
    (∀ w, q.paired = true → q.degraded = true → q.keyWait = some w → q.keyApply = true → w.res = none → w.fn = 0x04 →
      (∀ e ∈ s.jobs, ∀ j, e.2 = some j → j.part = p → j.fn = 0x0C → j.st ≠ .computed) →
      (∀ o, (s.core w.core).wait ≠ .twinKey o) →
      ∃ t, exec (.twinKeyWaitApply p) s = .next t ∧
        let i := hSlot (w.operands.headD Word.empty).pay
        (t.slot i).mat = 0 ∧ polLive (t.slot i).pol = false ∧ (∀ n, n ≠ i → t.slot n = s.slot n) ∧
        (t.part p).keyApply = false ∧ (t.part p).keyWait = some { w with res := some (none, 0) } ∧ t.cores = s.cores) ∧
    (∀ w o, q.paired = true → q.degraded = true → q.keyWait = some w → q.keyApply = true → w.res = none → w.fn = 0x04 →
      (∀ e ∈ s.jobs, ∀ j, e.2 = some j → j.part = p → j.fn = 0x0C → j.st ≠ .computed) →
      (s.core w.core).wait = .twinKey o → (s.core w.core).part = some p → s.sideOfCore w.core p = w.side →
      (s.core w.core).pbit 4 = false →
      ∃ t, exec (.twinKeyWaitApply p) s = .next t ∧ (t.part p).keyWait = none ∧ (t.core w.core).wait = .none ∧
        polLive (t.slot (hSlot (w.operands.headD Word.empty).pay)).pol = false ∧
        ((s.core w.core).loopHere = false → (t.core w.core).pc = pcPlus (s.core w.core).pc 1)) ∧
    (q.keyWait = none → q.degraded = false → exec (.twinKeyWaitApply p) s = .next s))

/-- (R301, R302, R304, R306) With an assigned function, the coprocessor in service, and every step of R301 passed (types,
handles, objects, scratch, values and lengths, outputs, pages), a free ticket of the strand and fewer than 32 jobs in
the queue, XJOB appends a queued job to the queue of the cluster, holding CX0 to CX7, the keys, the objects and the
physical pages, marks the ticket and returns its number. A function value that R306 does not assign raises trap 0x01. -/
def Obligations.XjobQueuesWhatItChecked : Prop :=
  ∀ (s : State) (c : Nat) (rd : Reg) (fn : BitVec 13) (ecc : SlotEcc), s.runs c →
    let n := fn.toNat
    (jobForm n 0 Word.empty = none → exec (.xjob c rd fn ecc) s = .next ((s.begun c).trapHere c 0x01 0 2)) ∧
    (∀ (u0 u2 u3 u5 u6 u7 : State) (keys : List (Nat × B64)) (l : JobObjs) (osec : Bool) (pages : List (Nat × List Nat))
      (i : Nat) (rnd : List (BitVec 8)) (f : JobForm),
      (jobForm n 0 Word.empty).isSome = true → (graft c true).run.run (s.begun c) = (.ok ⟨⟩, u0) →
      let u1 := u0.modCore c Core.finishInline
      let ps := (List.range 8).map fun i => (u1.core c).sp (0x100 + i)
      let v5 := (ps.getD 5 Word.empty).pay
      let p7 := (ps.getD 7 Word.empty).pay.toNat
      let w0 := ps.getD 0 Word.empty
      let obj := f.key != .no && w0.ty == 0x17
      let keySec := !keys.isEmpty || osec
      let outs := jobOuts n v5.toNat p7 v5 keySec l
      jobForm n v5.toNat w0 = some f →
      (jobTypes c n v5.toNat f).run.run u1 = (.ok ⟨⟩, u1) → (jobKeys c f ecc).run.run u1 = (.ok keys, u2) →
      (jobObjs c ((if obj then [0] else []) ++ f.ins ++ f.outs)).run.run u2 = (.ok l, u3) →
      (jobScratch c n f.outs l).run.run u3 = (.ok ⟨⟩, u3) →
      (usesCx5 n = true → cx5Ok n v5 = true) → (obj = true → hdrSealed (objHdr l 0) = true) →
      (n = 0x0D → hdrSealed (objHdr l 1) = true ∧ hdrKind (objHdr l 1) = 0x06) →
      (n = 0x28 → hdrKind (objHdr l 1) = 0x06 → hdrSealed (objHdr l 1) = true) → insOk n v5.toNat obj l = true →
      ((obj = false ∧ osec = false ∧ u5 = u3) ∨
        (obj = true ∧ (objSec c ((l.headD (0, 0, 0)).2.1) (hdrLen (objHdr l 0))).run.run u3 = (.ok osec, u5))) →
      (∀ o ∈ outs, o.2.1 ≤ 8 * hdrLen (objHdr l o.1)) → (n = 0x28 → u5.regionOk c v5 = true) →
      (∀ o ∈ outs, o.2.2 = true → hdrSealed (objHdr l o.1) = true) →
      (jobPages c f.outs l).run.run u5 = (.ok pages, u6) → u6.freeTicketOf (u6.strandOn c) = some i →
      (u6.clu (c / 4)).jobq.length < 32 → (jobDraw c n v5.toNat p7).run.run u6 = (.ok rnd, u7) →
      let p := u7.jobPart c
      let no := u7.jobNo
      let bir := if n == 0x28 then some (fld v5 34 32) else none
      let j : Job := { part := p, side := u7.sideOfCore c p, strand := u6.strandOn c, ticket := i, clu := c / 4, fn := n, st := .queued,
                       params := ps, keys := keys, ops := l, pages := pages, rnd := rnd, keySec := keySec, bir := bir }
      let t := ((({ u7 with jobNo := no + 1 } : State).setJob no (some j)).modStrand (u6.strandOn c)
        (fun x => { x with tickets := Tab.set (fun _ => 0) x.tickets i (no + 1) })).modClu (c / 4)
        (fun k => { k with jobq := k.jobq ++ [no] })
      exec (.xjob c rd fn ecc) s = .next ((t.modCore c fun k => k.put rd (Word.nat i)).retire c (s.core c) .seq))

/-- (R40, R141, R282, R302, R303, R304, R307, R314, R421) With the coprocessor in service, JOB_START of a unit moves the
first queued job that needs it to running, with its units, when all of them are free. JOB_COMPLETION of a computed job
writes its output words, frees its units, counts it and makes it finished (a key unwrap first creates its key). XWAIT of
a ticket whose job is finished frees the ticket and the job and writes the result, raises trap 0x29 with the REASON of a
failure, or 0x1A for a poisoned input; it waits while the job is not finished, and a ticket without a job raises trap
0x29 with REASON 8. An internal error takes the coprocessor out of service, fails its jobs with REASON 7 and loses the
twin of a pair. Two unwraps of a pair finish together, with one result where they are the same operation and with a pair
mismatch where not; the first of them waits. An MHF slot of a region that a job holds reads its line; one without errors
changes nothing, and a real access that meets POISON marks the job. -/
def Obligations.JobsStartFinishAndAreCollected : Prop :=
  ∀ (s : State) (c m j u fc : Nat) (rd rs1 : Reg), c < s.build.cores → m < s.build.clusters →
    (∀ q, s.job j = some q → q.clu = m →
      (∀ pre post, (s.clu m).jobq = pre ++ j :: post → (s.rd .cpxCtl m).getLsbD 0 = true → j ∉ pre → j ∉ post →
        let busy := s.unitsBusy m
        let lane := if u = 3 ∨ u = 4 then u else if 3 ∈ busy then 4 else 3
        u ∈ jobUnits q.fn lane → (∀ b ∈ jobUnits q.fn lane, b ∉ busy) →
        (∀ i ∈ pre, ∀ x, s.job i = some x → u ∉ jobUnits x.fn lane) →
        ∃ t, exec (.jobStart m u) s = .next t ∧ t.job j = some { q with st := .running, units := jobUnits q.fn lane } ∧
          (t.clu m).jobq = pre ++ post ∧ (t.clu m).jobrun = (s.clu m).jobrun ++ [j] ∧ t.mem = s.mem ∧ t.cores = s.cores) ∧
      (q.st = .computed →
        let fin := fun (v : State) (x : Job) =>
          let v := x.out.foldl (fun v e => v.jobWrite (s.build.cellOfClu m) e.1 e.2) v
          let v := (v.setJob j (some { x with st := .finished, out := [], units := [], bir := none })).modClu m fun k =>
            { k with jobrun := k.jobrun.filter (· != j), jobq := k.jobq.filter (· != j) }
          let v := v.inc32 .cpxJobs m
          (Host.Outcome.next (if 24 < x.attempts then v.inc32 .cpxExt m else v) : Out)
        let key := q.fn = 0x0C ∧ q.poison = none ∧ q.badWord = none
        let pair := (s.part q.part).paired = true ∧ (s.part q.part).lost = 0
        (¬ key ∨ (¬ pair ∧ q.newKey = none) → exec (.jobCompletion m j fc) s = fin s q) ∧
        (key → ¬ pair → ∀ pol mat, q.newKey = some (pol, mat) →
          (s.createKey q.part (polType pol) (polUse pol) (fld pol 23 0) mat = none →
            exec (.jobCompletion m j fc) s = fin s { q with fail := 3, newKey := none }) ∧
          (∀ i v, s.createKey q.part (polType pol) (polUse pol) (fld pol 23 0) mat = some (i, v) →
            exec (.jobCompletion m j fc) s = fin v { q with result := Word.fix (BitVec.ofNat 64 (v.keyName i)) true, newKey := none })) ∧
        (key → pair → s.twinJob q.part q.side = some (j, q) →
          (s.twinJob q.part (1 - q.side) = none → (s.part q.part).keyWait = none → exec (.jobCompletion m j fc) s = .next s) ∧
          (∀ i x, s.twinJob q.part (1 - q.side) = some (i, x) →
            (x.st ≠ .computed → exec (.jobCompletion m j fc) s = .next s) ∧
            (x.st = .computed → ∃ t y z, exec (.jobCompletion m j fc) s = .next t ∧ t.job j = some y ∧ t.job i = some z ∧
              y.st = .finished ∧ z.st = .finished ∧ y.result = (if q.sameChange x = true then z.result else q.result) ∧ y.fail = z.fail ∧
              (q.sameChange x = false → y.fail = 10 ∧ t.slots = s.slots)))))) ∧
    (s.runs c → ∀ t, (graft c ((s.core c).wait != .job)).run.run (s.begun c) = (.ok ⟨⟩, t) →
      let w := (t.core c).get rs1
      let st := t.strandOn c
      let no := if w.pay.toNat < 4 then Tab.get (fun _ => 0) (t.strand st).tickets w.pay.toNat else 0
      w.isFix = true → w.sec = false →
      ((no = 0 ∨ t.job (no - 1) = none) → exec (.xwait c rd rs1) s = .next (t.trapHere c 0x29 (BitVec.ofNat 64 (8 * 2 ^ 60)) 2)) ∧
      (∀ q, no ≠ 0 → t.job (no - 1) = some q →
        let z := (t.modStrand st fun x => { x with tickets := Tab.set (fun _ => 0) x.tickets w.pay.toNat 0 }).setJob (no - 1) none
        let lost := q.fail = 7 ∧ (s.part q.part).paired = true
        (q.st ≠ .finished ∨ lost → exec (.xwait c rd rs1) s = .next (t.modCore c fun k => { k with wait := .job })) ∧
        (q.st = .finished → ¬ lost →
          (∀ va, q.poison = some va → exec (.xwait c rd rs1) s = .next (z.trapHere c 0x1A (BitVec.ofNat 64 va) 2)) ∧
          (∀ b, q.poison = none → q.badWord = some b →
            exec (.xwait c rd rs1) s = .next (z.trapHere c 0x03 (BitVec.ofNat 64 (3 * 256 + b.tag.toNat)) 2)) ∧
          (q.poison = none → q.badWord = none → q.fail ≠ 0 →
            exec (.xwait c rd rs1) s = .next (z.trapHere c 0x29 (BitVec.ofNat 64 (q.fail * 2 ^ 60 + q.fn % 256)) 2)) ∧
          (q.poison = none → q.badWord = none → q.fail = 0 →
            exec (.xwait c rd rs1) s = .next ((z.modCore c fun k => k.put rd q.result).retire c (s.core c) .seq))))) ∧
    ((s.clu m).jobrun = [] → (s.clu m).jobq = [] →
      ∃ t, exec (.coprocessorInternalError m u) s = .next t ∧ (t.rd .cpxCtl m).getLsbD 0 = false ∧ t.jobs = s.jobs) ∧
    (∀ q, (s.clu m).jobrun = [j] → (s.clu m).jobq = [] → s.job j = some q → q.clu = m →
      ∃ t, exec (.coprocessorInternalError m u) s = .next t ∧ (t.rd .cpxCtl m).getLsbD 0 = false ∧
        t.job j = some { q with st := .finished, fail := 7, poison := none, badWord := none, out := [], newKey := none, units := [],
                                bir := none } ∧
        (let p := s.part q.part
         let n := s.build.cellOfClu m
         p.paired = true → p.st = 3 → p.homedIn n = true → p.lost = 0 → (t.part q.part).lost = p.sideIn n + 1)) ∧
    (∀ n region line real, n < s.build.cells → let b := s.birRange n (s.birOn n region)
      let l := n * 2 ^ 34 + b.1 + line
      (s.birBusy n region = false ∨ b.2 ≤ line → exec (.mhfSlot n region real line) s = .next s) ∧
      (s.birBusy n region = true → line < b.2 → s.cwErr l 0 = [] → s.cwErr l 1 = [] →
        (real = false ∨ (∀ w ∈ s.memLine l, w.isPoison = false) → exec (.mhfSlot n region real line) s = .next s) ∧
        (real = true → (∃ w ∈ s.memLine l, w.isPoison = true) → ∃ t a, exec (.mhfSlot n region real line) s = .next t ∧ t.mem = s.mem ∧
          ∀ i x, s.job i = some x → x.st = .running → x.bir = some region → s.build.cellOfClu x.clu = n →
            t.job i = some { x with poison := some a })))

/-- (R295, R303, R306, R307, R311, R141) For a running job of the function of the row, whose input words hold no POISON and
no malformed tag, the row leaves the job computed with the result and output words of R306: SHA-2, SHA-3, HMAC, BLAKE2b,
GCM seal, GCM open (EMPTY over the output when the tag fails), XTS, key wrap and unwrap, object wrap and unwrap (REASON
9 when refused), modular exponentiation, Argon2id (whose engine leaves its memory in its region) and DRBG fill, with the
S of R141. A POISON or malformed input word leaves the job of any row computed with the address, or with the tag, that
XWAIT will raise. -/
def Obligations.HashCipherAndWrapJobsCompute : Prop :=
  ∀ (s : State) (m j : Nat) (q : Job), m < s.build.clusters → s.job j = some q → q.clu = m → q.st = .running →
    let n := s.build.cellOfClu m
    let w0 := q.params.getD 0 Word.empty
    let v5 := (q.params.getD 5 Word.empty).pay
    let obj := ((jobForm q.fn v5.toNat w0).getD {}).key != .no && w0.ty == 0x17
    let ins := jobInputs n q ((if obj then [0] else []) ++ ((jobForm q.fn v5.toNat w0).getD {}).ins) s
    let args := ins.1.map fun e => (e.1, operandBytes (objHdr q.ops e.1) e.2)
    let p7 := (q.params.getD 7 Word.empty).pay.toNat
    let x : JobIn := ⟨v5, p7, args, ins.1.any fun e => e.2.any Word.sec, q.keys, q.rnd, q.keySec, obj, n⟩
    let p5 := v5.toNat
    let pas := fun (cx : Nat) => ((q.pages.find? fun e => e.1 == cx).map Prod.snd).getD []
    let raws := fun (b : List (BitVec 8)) (sc : Bool) => (chunk 8 b).map fun y => Word.raw (BitVec.ofNat 64 (natLE y)) sc
    let comp := fun (r : Word) (f : Nat) (o : List (Nat × Word)) (k : Option (B64 × Nat)) (b : List (BitVec 8)) => (Host.Outcome.next
      (ins.2.setJob j (some { q with st := .computed, result := r, fail := f, out := o, newKey := k, blob := b, attempts := 0 })) : Out)
    let ends := fun (i : Instr) (fn : Nat) (outs : List (Nat × List (BitVec 8) × Bool)) (res : Nat) (sc : Bool) => (q.fn = fn →
      exec i s = comp (Word.fix (BitVec.ofNat 64 res) sc) 0 (outs.flatMap fun o => (pas o.1).zip (raws o.2.1 o.2.2)) none [] : Prop)
    let one := fun (i : Instr) (fn : Nat) (b : List (BitVec 8)) (sc : Bool) => ends i fn [(3, b, sc)] b.length sc
    (∀ va w, jobRefused q ins.1 = some (va, w) → ∀ e ∈ [(Instr.sha2Job m j, 0x01), (.sha3Job m j, 0x02), (.hmacJob m j, 0x03),
        (.blake2bJob m j, 0x04), (.aesGcmSeal m j, 0x08), (.aesGcmOpen m j, 0x09), (.aesXts m j, 0x0A), (.keyUnwrapIn m j, 0x0C),
        (.objectWrap m j, 0x0D), (.objectUnwrap m j, 0x0E), (.modularExponentiation m j, 0x20), (.argon2id m j, 0x28),
        (.ecdsaSign m j, 0x10), (.ecdsaVerify m j, 0x11), (.ed25519Sign m j, 0x12), (.ed25519Verify m j, 0x13), (.ecdh m j, 0x14),
        (.mlDsaSign m j, 0x18), (.mlDsaVerify m j, 0x19), (.mlKemEncapsulation m j, 0x1C), (.mlKemDecapsulation m j, 0x1D)],
      q.fn = e.2 → exec e.1 s = .next (ins.2.setJob j (some (if w.isPoison = true then { q with st := .computed, poison := some va }
        else { q with st := .computed, badWord := some w })))) ∧
    (jobRefused q ins.1 = none →
      one (.sha2Job m j) 0x01 (sha2 p5 (x.arg 1)) x.sec ∧
      one (.sha3Job m j) 0x02 (sha3 p5 x.p7 (x.arg 1)) x.sec ∧
      one (.hmacJob m j) 0x03 (hmac p5 (x.keyBytes 32) (x.arg 1)) true ∧
      one (.blake2bJob m j) 0x04 (blake2b 64 (if obj then x.arg 0 else if q.keys = [] then [] else x.keyBytes 32) (x.arg 1))
        (x.sec || q.keySec) ∧
      (let nonce := (x.arg 6).take 12
       let ct := gcmCrypt (x.aes 0) nonce (x.arg 1)
       ends (.aesGcmSeal m j) 0x08 [(3, ct, false), (4, gcmTag (x.aes 0) nonce (x.arg 2) ct, false)] ct.length false ∧
       (q.fn = 0x09 → exec (.aesGcmOpen m j) s =
         if gcmTag (x.aes 0) nonce (x.arg 2) (x.arg 1) = (x.arg 4).take 16 then
           comp (Word.fix (BitVec.ofNat 64 (x.arg 1).length)) 0 ((pas 3).zip (raws ct true)) none []
         else comp (Word.fix 0) 0 ((pas 3).map fun a => (a, Word.empty)) none [])) ∧
      one (.aesXts m j) 0x0A (aesXts (p5 % 2 == 0) (x.aes 0) (x.aes 1) ((x.arg 6).take 16) (x.arg 1)) (p5 % 2 == 1) ∧
      (let k := q.keys.getD 1 (0, 0)
       one (.keyWrapOut m j) 0x0B (kwpWrap (x.aes 0) (bytesLE 8 (k.2.toNat % 2 ^ 40) ++ bytesLE 32 k.1)) false) ∧
      (q.fn = 0x0C → exec (.keyUnwrapIn m j) s = match unwrapKey (x.aes 0) (x.arg 1) with
        | some (ty, use, label, mat) =>
          comp (Word.fix 0) 0 [] (some (mkPolicy 0 0 ty (Nat.land use (p5 % 256)) label, mat)) (x.arg 1)
        | none => comp (Word.fix 0) 9 [] none (x.arg 1)) ∧
      one (.objectWrap m j) 0x0D (kwpWrap (x.aes 0) (x.arg 1)) false ∧
      (q.fn = 0x0E → exec (.objectUnwrap m j) s = match kwpUnwrap (x.aes 0) (x.arg 1) with
        | some b => comp (Word.fix (BitVec.ofNat 64 b.length) true) 0 ((pas 3).zip (raws b true)) none []
        | none => comp (Word.fix 0) 9 [] none []) ∧
      (obj = true → p5 % 2 = 0 → natBE (x.arg 2) ≠ 0 →
        one (.modularExponentiation m j) 0x20 (bytesBE (x.arg 2).length (powMod (natBE (x.arg 2)) (natBE (x.arg 1)) (natBE (x.arg 0)))) x.sec) ∧
      (let r := argon2id (x.arg 1) (x.arg 2) [] [] (fld v5 22 0) (fld v5 27 24 + 1) (fld v5 29 28 + 1) (fld v5 46 40)
       q.fn = 0x28 → exec (.argon2id m j) s = .next ((ins.2.argonPut n (fld v5 34 32) r.2).setJob j (some { q with
         st := .computed, result := Word.fix (BitVec.ofNat 64 r.1.length) x.sec, fail := 0, out := (pas 3).zip (raws r.1 x.sec),
         newKey := none, blob := [], attempts := 0 }))) ∧
      one (.drbgFill m j) 0x30 q.rnd true)

/-- (R306, R307, R141, R288) For a running job of the function of the row, whose input words hold no POISON, the row leaves
the job computed with the result of R306: an ECDSA signature with the drawn scalar, an Ed25519 signature, the verdict 1
or 0 of a verification, the shared secret of ECDH and X25519 (secret), the public key, and for ML-DSA and ML-KEM the
outputs of FIPS 204 and FIPS 203 (an ML-DSA signature with its count of attempts); bytes that those standards do not
give, for a key that fails the checks of FIPS 203 or an ML-DSA key with which every attempt fails, are free (log entry
54, the choice of the model). A signature is public when its key is secret. -/
def Obligations.SignatureAndExchangeJobsCompute : Prop :=
  ∀ (s : State) (m j : Nat) (q : Job), m < s.build.clusters → s.job j = some q → q.clu = m → q.st = .running →
    let n := s.build.cellOfClu m
    let w0 := q.params.getD 0 Word.empty
    let v5 := (q.params.getD 5 Word.empty).pay
    let obj := ((jobForm q.fn v5.toNat w0).getD {}).key != .no && w0.ty == 0x17
    let ins := jobInputs n q ((if obj then [0] else []) ++ ((jobForm q.fn v5.toNat w0).getD {}).ins) s
    let args := ins.1.map fun e => (e.1, operandBytes (objHdr q.ops e.1) e.2)
    let p7 := (q.params.getD 7 Word.empty).pay.toNat
    let x : JobIn := ⟨v5, p7, args, ins.1.any fun e => e.2.any Word.sec, q.keys, q.rnd, q.keySec, obj, n⟩
    let p5 := v5.toNat
    let pas := fun (cx : Nat) => ((q.pages.find? fun e => e.1 == cx).map Prod.snd).getD []
    let raws := fun (b : List (BitVec 8)) (sc : Bool) => (chunk 8 b).map fun y => Word.raw (BitVec.ofNat 64 (natLE y)) sc
    let comp := fun (r : Word) (f : Nat) (o : List (Nat × Word)) (k : Option (B64 × Nat)) (b : List (BitVec 8)) => (Host.Outcome.next
      (ins.2.setJob j (some { q with st := .computed, result := r, fail := f, out := o, newKey := k, blob := b, attempts := 0 })) : Out)
    let ends := fun (i : Instr) (fn : Nat) (outs : List (Nat × List (BitVec 8) × Bool)) (res : Nat) (sc : Bool) => (q.fn = fn →
      exec i s = comp (Word.fix (BitVec.ofNat 64 res) sc) 0 (outs.flatMap fun o => (pas o.1).zip (raws o.2.1 o.2.2)) none [] : Prop)
    let one := fun (i : Instr) (fn : Nat) (b : List (BitVec 8)) (sc : Bool) => ends i fn [(3, b, sc)] b.length sc
    let len := if p5 = 1 then 48 else 32
    let curve := if p5 = 1 then p384 else p256
    let verdict := fun (i : Instr) (fn : Nat) (b : Bool) => ends i fn [] (if b = true then 1 else 0) x.sec
    let made := fun (v : State) (outs : List (Nat × List (BitVec 8) × Bool)) (res : Nat) (sc : Bool) (k : Nat) =>
      v.setJob j (some { q with
        st := .computed, result := Word.fix (BitVec.ofNat 64 res) sc, fail := 0,
        out := outs.flatMap fun o => (pas o.1).zip (raws o.2.1 o.2.2), newKey := none, blob := [], attempts := k })
    jobRefused q ins.1 = none →
      (∀ b, ecdsaSignWith curve (natLE (x.keyBytes len)) (natLE q.rnd) (x.arg 1) = some b →
        one (.ecdsaSign m j) 0x10 b (!q.keySec && x.sec)) ∧
      verdict (.ecdsaVerify m j) 0x11 (ecdsaVerify curve ((x.arg 2).take (pointLen p5)) (x.arg 1) ((x.arg 4).take (2 * len))) ∧
      one (.ed25519Sign m j) 0x12 (ed25519Sign (x.keyBytes 32) (x.arg 1)) (!q.keySec && x.sec) ∧
      verdict (.ed25519Verify m j) 0x13 (ed25519Verify ((x.arg 2).take 32) (x.arg 1) ((x.arg 4).take 64)) ∧
      (p5 = 2 → one (.ecdh m j) 0x14 (x25519 (x.keyBytes 32) ((x.arg 2).take 32)) true) ∧
      (∀ b, p5 ≠ 2 → ecdh curve (natLE (x.keyBytes len)) ((x.arg 2).take (pointLen p5)) = some b → one (.ecdh m j) 0x14 b true) ∧
      (p5 = 2 → one (.publicKeyDerivation m j) 0x15 (x25519 (x.keyBytes 32) (bytesLE 32 9)) false) ∧
      (p5 = 3 → one (.publicKeyDerivation m j) 0x15 (ed25519Public (x.keyBytes 32)) false) ∧
      (p5 < 2 → one (.publicKeyDerivation m j) 0x15 (curve.encode (curve.mul (natLE (x.keyBytes len)) curve.base)) false) ∧
      (q.fn = 0x18 → exec (.mlDsaSign m j) s = .next (match mlDsaSign (dsaSet p5) (x.keyBytes (dsaSk p5)) (x.arg 1) q.rnd with
        | some (b, k) => made ins.2 [(3, b, !q.keySec && x.sec)] b.length (!q.keySec && x.sec) k
        | none => let r := freshBytes (dsaSig p5 / 8 + 1) ins.2
                  let b := r.1.take (dsaSig p5)
                  made r.2 [(3, b, !q.keySec && x.sec)] b.length (!q.keySec && x.sec) 0)) ∧
      verdict (.mlDsaVerify m j) 0x19
        (mlDsaVerify (dsaSet p5) ((x.arg 2).take (dsaPk p5)) (x.arg 1) [] ((x.arg 4).take (dsaSig p5))) ∧
      (let k := mlDsaKey (dsaSet p5) q.rnd
       ends (.mlDsaKeyGeneration m j) 0x1A [(3, k.2, true), (4, k.1, false)] (dsaSk p5) true) ∧
      (let ek := (x.arg 2).take (kemPk p5)
       let k := mlKemEncaps (kemSet p5) ek q.rnd
       let r := freshBytes (4 + kemCt p5 / 8) ins.2
       q.fn = 0x1C → exec (.mlKemEncapsulation m j) s = .next (
         if mlKemKeyOk (kemSet p5) ek = true then made ins.2 [(3, k.1, true), (4, k.2, false)] 32 true 0
         else made r.2 [(3, r.1.take 32, true), (4, r.1.drop 32, false)] 32 true 0)) ∧
      (let dk := x.keyBytes (kemSk p5)
       let b := mlKemDecaps (kemSet p5) dk ((x.arg 1).take (kemCt p5))
       let r := freshBytes 4 ins.2
       q.fn = 0x1D → exec (.mlKemDecapsulation m j) s = .next (
         if mlKemPrivOk (kemSet p5) dk = true then made ins.2 [(3, b, true)] b.length true 0
         else made r.2 [(3, r.1, true)] r.1.length true 0)) ∧
      (let k := mlKemKey (kemSet p5) q.rnd
       ends (.mlKemKeyGeneration m j) 0x1E [(3, k.2, true), (4, k.1, false)] (kemSk p5) true)

/-- (R15, R16, R17, R22, R23, R37, R401) While ticks run, TICK completes: FRAME_NO is one higher modulo 2^48, fc is 0, the
cut-off is lifted; it is steps 3 to 8 (tickWork) on a state whose period is that of FRM_PERIOD and whose FROZEN is set
by a pending freeze, else cleared by a pending lift. Step 3 gives a RUNNING cell without pending changes row F mod ROWS
and awaits its acknowledgement; step 8 puts the entry of that row to every unlocked core of a RUNNING cell, but to one
that is and stays offline. INPUT_CUTOFF passes the cut-off. TICK_ACK acknowledges once every core of a RUNNING cell has
switched or is locked, with the home PLL in lock; at TICK_ACK_DEADLINE a RUNNING cell that has not is declared DOWN with
reason 1. Without running ticks the first and the cut-off change nothing. -/
def Obligations.TicksFollowTheirSteps : Prop :=
  ∀ s : State,
    (s.ticking = false → exec .tick s = .next s ∧ exec .inputCutoff s = .next s) ∧
    (s.ticking = true →
      exec .inputCutoff s = .next { s with cutoff := true } ∧
      (∃ t, exec .tick s = .next t ∧ t.frame = (s.frame + 1) % 2 ^ 48 ∧ t.fc = 0 ∧ t.cutoff = false) ∧
      ∃ o : State, exec .tick s = .next o.tickWork ∧
        (let u := s.pass (s.period - s.fc)
         o.frame = (u.frame + 1) % 2 ^ 48 ∧ o.fc = 0 ∧ o.cutoff = false ∧ o.sel = u.periodSel ∧ o.clock = u.clock ∧
         o.frozen = (if u.alm.freezePend = true then true else if u.alm.liftPend = true then false else u.frozen) ∧
         o.alm.freezePend = false ∧ o.alm.liftPend = false ∧ o.mem = u.mem ∧ o.cores = u.cores ∧ o.cells = u.cells ∧
         o.parts = u.parts ∧ o.bar = u.bar)) ∧
    (∀ n, n < s.build.cells →
      ((s.cell n).st = 2 → (s.cell n).restarting = false → (s.cell n).startPend = false → (s.cell n).stopPend = false →
        s.tickCell n = s.modCell n fun k => { k with row := s.frame % max 1 (s.rowsOf n), acked := false }) ∧
      ((s.cell n).st = 2 → ∀ c, c / s.build.coresPerCell = n → (s.core c).locked = false →
        ¬ ((s.core c).entry = 0xFF ∧ (s.rowRuns n (s.cell n).row c).1 = 0xFF) →
        let k := (s.tickPreempt n).core c
        k.preempt = true ∧ k.switched = false ∧ k.next = some (s.rowRuns n (s.cell n).row c) ∧
          k.regs = (s.core c).regs ∧ k.pc = (s.core c).pc) ∧
      ((s.cell n).st = 2 → s.homeLost = false →
        (∀ c, c / s.build.coresPerCell = n → (s.core c).locked = true ∨ ((s.core c).preempt = false ∧ (s.core c).switched = true)) →
        exec (.tickAck n) s = .next (s.modCell n fun k => { k with acked := true })) ∧
      ((s.cell n).st = 2 → (s.cell n).acked = false → ∃ t, exec (.tickAckDeadline n) s = .next t ∧ (t.cell n).st = 4 ∧
        t.rd .cellDownwhy n = 0x81000000 ∧ t.mem = s.mem ∧ t.cores = s.cores) ∧
      ((s.cell n).acked = true → exec (.tickAckDeadline n) s = .next s))

/-- (R21, R23, R29, R45) At fc 256 of a frame in which its slot is due, a channel of a RUNNING cell opens it when the row
has CAL_OK and no other channel of the cell calibrates, else is deferred; the end of the slot closes it. 256 cc without
a preemption point count one slack violation per tick and core and are handed to the Shed; SLACK_CLEAR of an admitted
write with bit 0 set clears FRM_SLACK. With FRM_ROT_ADDR on an entry word of an idle cell, an admitted FRM_ROT_DATA
write stores the four entries and advances under AINC; while the cell is not idle it is rejected with REASON 0. A read
returns the word and advances. -/
def Obligations.CalibrationSlackAndRotationRegisters : Prop :=
  ∀ s : State,
    (∀ ch, ch < s.build.channels →
      let n := s.build.cellOfChan ch
      let i := ch % s.build.chanPerCell
      let due := s.calFrame ch = true ∨ (s.cell n).calDue.getLsbD i = true
      ((s.cell n).st = 2 → due →
        ((s.rowAttr (s.cell n).row n).getLsbD 16 = true ∧ (s.cell n).cal = 0 →
          exec (.calibrationSlot ch) s = .next ((s.incf .memStat ch 0 15 0).modCell n fun k =>
            { k with cal := putBit k.cal i true, calDue := putBit k.calDue i false })) ∧
        (¬ ((s.rowAttr (s.cell n).row n).getLsbD 16 = true ∧ (s.cell n).cal = 0) →
          exec (.calibrationSlot ch) s = .next (s.modCell n fun k => { k with calDue := putBit k.calDue i true }))) ∧
      ((s.cell n).st ≠ 2 ∨ ¬ due → exec (.calibrationSlot ch) s = .next s) ∧
      exec (.calibrationSlotEnd ch) s = .next (s.modCell n fun k => { k with cal := putBit k.cal i false })) ∧
    (∀ c, c < s.build.cores → (s.core c).preempt = true → (s.core c).slackCounted = false → (s.core c).locked = false →
      ∃ t, exec (.slackViolation c) s = .next t ∧ t.core c = { s.core c with slackCounted := true } ∧
        t.rdf .frmSlack 0 0 31 16 = min 65535 (s.rdf .frmSlack 0 0 31 16 + 1) ∧
        t.rdf .frmSlack 0 0 15 0 = s.rdf .frmSlack 0 0 15 0 ∧
        t.shd.raised = s.shd.raised ++ [(0x12, 0, t.rd .frmSlack)] ∧ t.mem = s.mem) ∧
    (∀ w v, (∃ r, s.target w (RegAt.key ⟨.frmSlackClr, 0, 0⟩) = .reg r) →
      exec (.slackClear w v) s = .next (if v.getLsbD 0 = true then s.wr .frmSlack 0 0 0 else s)) ∧
    (∀ w, exec (.rotDataAccess w none) s = .next ({ s with rdata := s.rotData } : State).rotAdvance) ∧
    (∀ w v n, (∃ r, s.target w (RegAt.key ⟨.frmRotData, 0, 0⟩) = .reg r) → s.rotCell = some n →
      (s.cellIdle n = false →
        exec (.rotDataAccess w (some v)) s = .next (s.reject w 0 (RegAt.key ⟨.frmRotData, 0, 0⟩))) ∧
      (s.cellIdle n = true → s.rotWord < 12 → s.rdf .frmRotAddr 0 0 16 16 = 0 →
        ∃ t, exec (.rotDataAccess w (some v)) s = .next t ∧
          (∀ i < 4, t.rotEntry s.rotRow (4 * s.rotWord + i) = BitVec.ofNat 8 (fld v (8 * i + 7) (8 * i))) ∧
          (∀ r c, ¬ (r = s.rotRow ∧ c / 4 = s.rotWord) → c < 64 → t.rotEntry r c = s.rotEntry r c) ∧
          t.bar = s.bar ∧ t.rotAttr = s.rotAttr))

/-- (R19, R21, R27, R119, R199, R225, R255) Outside level M and the shadow, PREEMPTION_POINT of a core with a request
pending records the time, applies the shootdowns of its cell and ends its wait; a core whose new entry is the one it
runs goes on (with no flip due), and its switch is finished. CONTEXT_SWITCH of a core past its preemption point that
holds no record enters the new row at once: it idles with empty translation caches, or loads the record of its strand
and has switched; a core that holds one saves its strand first and waits while memory holds it up. Without a pending
switch it changes nothing. 512 cc without a preemption point lock the core up with LKCAUSE 6. With a request pending,
MICROCODE_PREEMPT of an operation on a FIX (or FLO) pair keeps nothing, and that of a comparison of a BIG sets RESUME
and the dirty bit of its group and keeps the resume address; CONTEXT_PREFETCH before the cut-off changes nothing; past
it, in a RUNNING cell with caches in use, it reads the group header and window word of the record that the next row
gives the core and locks the lines the switch will load, and does nothing where the row changes nothing or gives no
record; LOCKED_LINE_REREAD reads again a locked line that a snoop took. -/
def Obligations.PreemptionAndContextSwitch : Prop :=
  ∀ (s : State) (c cc : Nat), c < s.build.cores →
    let k := s.core c
    let n := s.build.cellOfCore c
    (k.preempt = false → exec (.preemptionPoint c cc) s = .next s ∧ exec (.preemptionLockup c) s = .next s ∧
      ∀ fn rs1 rs2 imm a, exec (.microcodePreempt c fn a rs1 rs2 imm) s = .next s) ∧
    (k.preempt = true → s.canIssue c = true →
      ((k.part = none ∧ k.entry ≠ 0xF2 ∨ k.level ≠ 3 ∧ k.pbit 6 = false) → k.flip = false →
        ∃ t, exec (.preemptionPoint c cc) s = .next t ∧
          t.rdf .frmSlack 0 0 15 0 = max (s.rdf .frmSlack 0 0 15 0) (min cc 65535) ∧
          t.core c = (let q := { k.applyShoot (s.cell n).shootNow with preempt := false, wait := .none, walk := none }
            if k.stays = true then { q with next := none, switched := true } else q) ∧ t.mem = s.mem) ∧
      (∀ fn rs1 rs2 imm a, let x := k.get rs1
        let y := if fn = 0x3F then Word.fix (imm.signExtend 64) else k.get rs2
        isNumber x = true → isNumber y = true → x.malformed = false → y.malformed = false → x.sec = false → y.sec = false →
        (x.isBig = false → y.isBig = false → exec (.microcodePreempt c fn a rs1 rs2 imm) s = .next s) ∧
        (x.isBig = true ∨ y.isBig = true → x.isFlo = false → y.isFlo = false → genOfFn fn = none → ∀ r u,
          (genericArgs c x y false).run.run s = (.ok r, u) → ∃ t, exec (.microcodePreempt c fn a rs1 rs2 imm) s = .next t ∧
            (t.core c).pbit 3 = true ∧ (t.core c).ucResume = a.setWidth 64 ∧ (t.core c).dirtyBits.testBit 0 = true ∧
            (t.core c).pc = (u.core c).pc ∧ (∀ i < 248, (t.core c).preg i = (u.core c).preg i) ∧ t.mem = u.mem))) ∧
    (k.preempt = true → k.locked = false → ∃ t, exec (.preemptionLockup c) s = .next t ∧ (t.core c).locked = true ∧
      (t.core c).preempt = false ∧ t.canIssue c = false) ∧
    (k.switched = true ∨ k.preempt = true ∨ k.next = none → exec (.contextSwitch c) s = .next s) ∧
    (k.preempt = false → k.switched = false → k.locked = false → (s.cell n).st ≠ 4 → s.alm.zbusy = false → k.next ≠ none →
      (s.recordOf c = none → exec (.contextSwitch c) s = .next (s.enterStrand c)) ∧
      (∀ b t, s.recordOf c = some b → (leaveStrand c b).run.run s = (.ok ⟨⟩, t) →
        exec (.contextSwitch c) s = .next (((t.dropShadow c).modCore c Core.vacate).enterStrand c)) ∧
      (∀ b t x, s.recordOf c = some b → (leaveStrand c b).run.run s = (.error (.wait x), t) →
        exec (.contextSwitch c) s = .next (t.modCore c fun k => { k with wait := .memory })) ∧
      (∀ e, k.next = some (e, none, 0) → e = 0xFF ∨ (e = 0xF1 ∧ s.microAt c 0x00F8) → s.recordOf c = none →
        ∃ t, exec (.contextSwitch c) s = .next t ∧ (t.core c).entry = e ∧ (t.core c).part = none ∧ (t.core c).switched = true ∧
          (t.core c).dtlb = [] ∧ (t.core c).itlb = [] ∧ (t.core c).l2tlb = [] ∧ (t.core c).next = none) ∧
      (∀ e p i, k.next = some (e, some p, i) → s.recordOf c = none → ∀ u,
        let o := s.modCore c fun k => { k with entry := e, part := some p, strand := i }
        (loadStrand c ((o.part p).ctxOf (o.sideOfCore c p) + 512 * i)).run.run o = (.ok ⟨⟩, u) →
        ∃ t, exec (.contextSwitch c) s = .next t ∧ t.mem = u.mem ∧ t.core c = { u.core c with
          tmrPend := (u.strand (u.strandOn c)).tmrPend, stepPend := (u.strand (u.strandOn c)).stepPend, next := none,
          switched := true, streams := [], locks := [], relock := [] })) ∧
    (s.cutoff = false → s.fc + 64 < s.period → exec (.contextPrefetch c) s = .next s) ∧
    (∀ l t, k.relock.contains l = true → s.acquireS (c / 4) l = (t, true) → ∃ u, exec (.lockedLineReread c l) s = .next u ∧
      (u.core c).locks.contains l = true ∧ (u.core c).relock.contains l = false) ∧
    (∀ l, k.relock.contains l = false → exec (.lockedLineReread c l) s = .next s) ∧
    (let x := s.rowRuns n ((s.frame + 1) % s.rowsOf n) c
     let same := x.1 = k.entry ∧ x.2.1 = k.part ∧ (x.2.1 = none ∨ x.2.2 = k.strand)
     (s.cutoff = true ∨ s.period ≤ s.fc + 64) → (s.cell n).st = 2 → k.locked = false → (s.cell n).l2off = false →
     s.alm.zbusy = false →
     (same → exec (.contextPrefetch c) s = .next s) ∧
     (s.recordFor c x.1 x.2.1 x.2.2 = none → exec (.contextPrefetch c) s = .next s) ∧
     (∀ b h t w u, ¬ same → s.recordFor c x.1 x.2.1 x.2.2 = some b → s.coreRead c (b + 192) = some (h, t) →
       t.coreRead c (b + 221) = some (w, u) →
       exec (.contextPrefetch c) s = .next ((recordLines b h.pay w.pay).foldl (fun s l => s.lockLine c l) u)))

/-- (R155, R156, R213, R215, R219, R234, R235, R246, R247) On a core that can issue: WALK of an address that a cached leaf
serves uses it, and of another starts at the deepest cached table pointer; WALK_READ_RETURN moves one level down, fills
the cached leaf at the end, starts again from the root where a fault was met below a cached pointer, or takes the fault;
DEVICE_ACCESS to a device page loads or stores the register there; L1D_FILL of a load or a fetch obtains the line and
places it in the L1D or the L1I, and of a store does nothing (R233); PREFETCH without a stream to follow does nothing
and otherwise obtains the next line of the first stream. STORE_PERFORM performs the oldest store, nothing on an empty
buffer. MARK_BUFFER_FLUSH moves the buffer to the end of the mark queue when there is room, and leaves it otherwise.
BARRIER_RETRY executes the waiting load again. -/
def Obligations.WalksDevicesBuffersAndFills : Prop :=
  ∀ (s : State) (c : Nat), c < s.build.cores →
    let k := s.core c
    (s.canIssue c = true →
      (∀ va acc, let r := k.root k.level
        let hit := if acc = .fetch then k.fetchFind (rootAsid r) va.toNat else k.tlbFind (rootAsid r) va.toNat
        k.walk = none → k.bare k.level = false → preWalk k.level (rootMode r) acc va.toNat = none →
        (hit = none → let st := k.walkStart r va.toNat false
          exec (.walk c va acc) s = .next (s.modCore c fun q => { q with walk := some ⟨va, acc, rootAsid r, st.1, st.2,
            st.1 != modeTop (rootMode r)⟩ })) ∧
        (∀ e, hit = some e → permFault k.level (k.spv 0x047) e acc = none → (acc = .load ∨ acc = .fetch ∨ e.d = true) →
          exec (.walk c va acc) s = .next (s.modCore c fun q => if acc = .fetch then q.itlbHit e else q.tlbHit e))) ∧
      (∀ w t x, k.walk = some w →
        s.walkStep (c / 4) false k.level (k.spv 0x047) w.acc w.asid w.va.toNat w.level w.table = (x, t) →
        (∀ j b, x = .next j b → ∃ u, exec (.walkReadReturn c) s = .next u ∧
          (u.core c).walk = some { w with level := j, table := b } ∧ (u.core c).regs = (t.core c).regs ∧ u.mem = t.mem) ∧
        (∀ e, x = .leaf e → exec (.walkReadReturn c) s = .next (let u := t.modCore c fun k => { k with walk := none }
          if w.acc = .fetch then u.itlbFill c e else u.tlbFill c e)) ∧
        (∀ cause info pte v, x = .fault cause info pte v →
          (w.cached = true → ∃ u, exec (.walkReadReturn c) s = .next u ∧ u.mem = t.mem ∧
            (u.core c).walk = some { w with level := modeTop (rootMode (k.root k.level)), table := rootTable (k.root k.level),
                                            cached := false }) ∧
          (w.cached = false → w.acc ≠ .fetch →
            exec (.walkReadReturn c) s =
              .next (((t.setFlt c pte v).modCore c fun k => { k with walk := none }).trapHere c cause info 2)))) ∧
      (k.flushDue = false → ∀ va e pa t,
        (s.translate c k.level .load va.toNat = (.ok e pa, t) → e.dev = true → ∀ w u,
          (deviceLoad c pa).run.run t = (.ok w, u) →
          exec (.deviceAccess c va none) s = .next { u with rdata := w.pay.setWidth 32 }) ∧
        (∀ w u, s.translate c k.level .store va.toNat = (.ok e pa, t) → e.dev = true →
          (deviceStore c pa w).run.run t = (.ok ⟨⟩, u) → exec (.deviceAccess c va (some w)) s = .next u)) ∧
      (∀ va e pa t u, s.translate c k.level .load va.toNat = (.ok e pa, t) → e.dev = false → t.l1May c pa = true →
        t.acquireS (c / 4) (pa / 8) = (u, true) →
        ∃ v, exec (.l1dFill c va .load false) s = .next v ∧ (v.core c).regs = (u.core c).regs ∧ v.mem = u.mem ∧
          (v.core c).l1d = ((u.core c).l1dFill va.toNat (pa / 8)).l1d) ∧
      (∀ va pa u, s.fetchPa c va.toNat = some pa → s.l1May c pa = true → s.acquireS (c / 4) (pa / 8) = (u, true) →
        ∃ v, exec (.l1dFill c va .fetch false) s = .next v ∧ (v.core c).regs = (u.core c).regs ∧ v.mem = u.mem ∧
          (v.core c).l1i = ((u.core c).l1iFill va.toNat (pa / 8)).l1i) ∧
      (∀ va b, exec (.l1dFill c va .store b) s = .next s) ∧
      (k.streams.find? (fun x => x.nextLine.isSome) = none → exec (.prefetch c) s = .next s) ∧
      (∀ x l, k.streams.find? (fun x => x.nextLine.isSome) = some x → x.nextLine = some l →
        (s.cell (s.build.cellOfCore c)).l2off = false →
        (s.prefetchPa c l = none → exec (.prefetch c) s = .next (s.modCore c fun k => { k with streams := k.streams.erase x })) ∧
        (∀ pa t, s.prefetchPa c l = some pa → s.acquireS (c / 4) (pa / 8) = (t, false) → exec (.prefetch c) s = .next t) ∧
        (∀ pa t, s.prefetchPa c l = some pa → s.acquireS (c / 4) (pa / 8) = (t, true) →
          exec (.prefetch c) s = .next (t.modCore c fun k => { k.l1dFill (l * 8) (pa / 8) with
            streams := k.streams.map fun y => if y = x then { y with ahead := l } else y })))) ∧
    (s.cachesRun c = true →
      (k.sb = [] → ∃ t, exec (.storePerform c) s = .next t ∧ t.core c = k ∧ t.mem = s.mem) ∧
      (∀ g r t, sbGroup k.sb = (g, r) → s.l2Whole (c / 4) (g.map fun e => (e.pa, e.w)) = (t, true) →
        exec (.storePerform c) s = .next (t.modCore c fun k => { k with sb := r }))) ∧
    (∀ p side r, s.rkOn c = some (p, side, r) →
      (r.mq.length + k.mark.length ≤ r.spv 0x307 * 8 → exec (.markBufferFlush c) s =
        .next ((s.modRk p side fun r => { r with mq := r.mq ++ k.mark.map BitVec.toNat }).modCore c fun k =>
          { k with mark := [], flushDue := false })) ∧
      (k.mark ≠ [] → r.spv 0x307 * 8 < r.mq.length + k.mark.length → exec (.markBufferFlush c) s = .next s)) ∧
    (∀ d rd rs1 rs2 imm,
      (k.wait = .barrier (.ld d rd rs1 imm) → exec (.barrierRetry c) s = exec (.ld c rd rs1 imm) s) ∧
      (k.wait = .barrier (.car d rd rs1) → exec (.barrierRetry c) s = exec (.car c rd rs1) s) ∧
      (k.wait = .barrier (.cdr d rd rs1) → exec (.barrierRetry c) s = exec (.cdr c rd rs1) s) ∧
      (k.wait = .barrier (.vref d rd rs1 rs2) → exec (.barrierRetry c) s = exec (.vref c rd rs1 rs2) s) ∧
      (k.wait = .barrier (.blkcopy d rd rs1 rs2) → exec (.barrierRetry c) s = exec (.blkcopy c rd rs1 rs2) s) ∧
      (k.wait = .barrier (.jmpr d rs1) → exec (.barrierRetry c) s = exec (.jmpr c rs1) s) ∧
      (k.wait = .barrier (.callr d rs1) → exec (.barrierRetry c) s = exec (.callr c rs1) s)) ∧
    (∀ d rd rs1, k.wait = .barrier (.car d rd rs1) → s.runs c → let b := s.reg c rs1
      ∀ va e pa w t u v, (s.begun c).reachesCell c b 0 va t → t.finds c va e pa w u → u.takes c va e w → w.isFwd = false →
        v = s.wroteIn u c rd w → exec (.barrierRetry c) s = .next v) ∧
    (k.wait = .none → exec (.barrierRetry c) s = .next s)

/-- (R117, R119, R122, R123, R124) For an admitted write while CSCTL.LOCK is 0, CSDATA2_WRITE stores the staged word at
CSADDR, its check field regenerated, and increments the address modulo 8,192; while LOCK is 1 and no uncorrectable word
is recorded it is rejected with REASON 0. CS_LOCK sets LOCK and starts the measurement; its completion puts the digest
into CSMEAS, sets DONE and either frees the cluster or is logged with code 0x02. CSPP_CLEAR clears CLU_CSPP. CSFIX
rewrites the recorded word from the staging registers and frees its address, and is rejected with REASON 0 with none
recorded. CONTROL_STORE_UE of a single-bit error counts it in CLU_CSCE and changes no core; of another it latches its
address as bad and locks the core up; the interval of a violation goes to CLU_CSPP. -/
def Obligations.ControlStoreLoadsLocksAndReports : Prop :=
  ∀ (s : State) (m : Nat) (w : Who) (v : BitVec 32), m < s.build.clusters →
    let open_ := fun (n : RegName) (i : Nat) => ∃ r, s.target w (RegAt.key ⟨n, m, i⟩) = .reg r
    (open_ .cluCsdata 2 →
      (s.csLocked m = false → let a := s.rdf .cluCsaddr m 0 12 0
        ∃ t, exec (.csdata2Write w m v) s = .next t ∧
          (t.clu m).csWord a = csStored (BitVec.ofNat 96 ((s.rd .cluCsdata m 0).toNat + (s.rd .cluCsdata m 1).toNat * 2 ^ 32 +
            v.toNat * 2 ^ 64)) ∧
          (∀ b, b ≠ a → (t.clu m).csWord b = (s.clu m).csWord b) ∧ t.rdf .cluCsaddr m 0 12 0 = (a + 1) % 8192 ∧
          t.cores = s.cores ∧ t.mem = s.mem) ∧
      (s.csLocked m = true → s.csUe m = false →
        exec (.csdata2Write w m v) s = .next (s.reject w 0 (RegAt.key ⟨.cluCsdata, m, 2⟩)))) ∧
    (open_ .cluCsctl 0 →
      (v.getLsbD 31 = true → v.getLsbD 8 = false → s.csLocked m = false →
        exec (.csLock w m v) s = .next (s.wr .cluCsctl m 0 (s.rd .cluCsctl m ||| 0x80000002))) ∧
      (v.getLsbD 31 = true → v.getLsbD 8 = false → s.csLocked m = true → exec (.csLock w m v) s = .next s) ∧
      (v.getLsbD 31 = false → v.getLsbD 8 = true → exec (.csppClear w m v) s = .next (s.wr .cluCspp m 0 0))) ∧
    ((s.rd .cluCsctl m).getLsbD 1 = true → ∃ t, exec (.csMeasurementComplete m) s = .next t ∧
      t.rd .cluCsctl m = ((s.rd .cluCsctl m &&& 0xFFFFFFFD) ||| 1) ∧ (t.clu m).cs = (s.clu m).cs ∧
      (t.clu m).csOk = if (s.clu m).measure = s.declaredCs then true else (s.clu m).csOk) ∧
    ((s.rd .cluCsctl m).getLsbD 1 = false → exec (.csMeasurementComplete m) s = .next s) ∧
    (open_ .cluCsfix 0 → v.getLsbD 0 = true →
      (s.csUe m = false → exec (.csfix w m v) s = .next (s.reject w 0 (RegAt.key ⟨.cluCsfix, m, 0⟩))) ∧
      (s.csUe m = true → let a := s.rdf .cluCserr m 0 12 0
        ∃ t, exec (.csfix w m v) s = .next t ∧ (t.clu m).csWord a = csStored (s.csStaged m) ∧ (t.clu m).csBad.contains a = false ∧
          t.bar = s.bar)) ∧
    (∀ c, c / 4 = m → ∀ cc a,
      (∃ t, exec (.microcodePpViolation c cc) s = .next t ∧
        t.rdf .cluCspp m 0 15 0 = max (s.rdf .cluCspp m 0 15 0) (min cc 65535) ∧
        t.rdf .cluCspp m 0 31 16 = (if 192 < cc then min 65535 (s.rdf .cluCspp m 0 31 16 + 1) else s.rdf .cluCspp m 0 31 16) ∧
        t.cores = s.cores) ∧
      (s.canIssue c = true →
        exec (.controlStoreUe c a true) s = .next (s.incf .cluCsce m 0 31 0) ∧
        ∃ t, exec (.controlStoreUe c a false) s = .next t ∧ (t.core c).locked = true ∧
          (t.clu m).csBad.contains a.toNat = true ∧ t.canIssue c = false))

/-- (R6, R7, R9, R10, R11, R12) REGISTER_WRITE of other than four bytes, or eight aligned ones, is discarded; one of eight
is two of four, the lower address first. One of the PF at an offset that is not a multiple of 4, or beyond the BAR, is
discarded. Outside every block, or at an offset of a block that admits the writer but holds no register, it is rejected
with REASON 2; a block or register that does not admit the writer rejects with REASON 1. A first rejection sets VALID,
the source, the reason and the offset in GLB_LOCKERR, a later one sets OVF alone, but that of a writer earlier in the
order host, Shed, warden in the same fabric cycle. An admitted write of a register of plain bits sets its RW and RWL
bits, clears the W1C bits written with 1, sets the W1S bits written with 1, and keeps the rest, and changes no other
register; a VF register write of the host to an offset without a register is discarded. -/
def Obligations.RegisterWritesFollowTheirTypes : Prop :=
  ∀ (s : State) (w : Who) (off : Nat) (x : BitVec 64), let v : BitVec 32 := x.setWidth 32
    (∀ vf bar size, size ≠ 4 → ¬ (size = 8 ∧ off % 8 = 0) → exec (.registerWrite w vf off x bar size) s = .next s) ∧
    (∀ vf bar, off % 8 = 0 → ∀ t, exec (.registerWrite w vf off x bar 4) s = .next t →
      exec (.registerWrite w vf off x bar 8) s = exec (.registerWrite w vf (off + 4) (x >>> 32) bar 4) t) ∧
    (off % 4 ≠ 0 ∨ 2 ^ 24 ≤ off → exec (.registerWrite w 0 off x 0 4) s = .next s) ∧
    (off % 4 = 0 → off < 2 ^ 24 →
      (findBlk s.build off Blk.all = none → exec (.registerWrite w 0 off x 0 4) s = .next (s.reject w 2 off)) ∧
      (∀ b y, findBlk s.build off Blk.all = some (b, y) →
        (admitsBlk w b = false → exec (.registerWrite w 0 off x 0 4) s = .next (s.reject w 1 off)) ∧
        (admitsBlk w b = true →
          (locate s.build off = none → exec (.registerWrite w 0 off x 0 4) s = .next (s.reject w 2 off)) ∧
          (∀ r, locate s.build off = some r →
            (admitsReg s.build w r = false → exec (.registerWrite w 0 off x 0 4) s = .next (s.reject w 1 off)) ∧
            (admitsReg s.build w r = true → exec (.registerWrite w 0 off x 0 4) s = .next (s.regWrite w r v)))))) ∧
    (∀ reason o, reason < 4 → let t := s.reject w reason o
      ((s.rd .glbLockerr).getLsbD 31 = true → s.lockFc ≠ s.clock + 1 ∨ fld (s.rd .glbLockerr) 29 28 ≤ whoSrc w →
        t.rd .glbLockerr = s.rd .glbLockerr ||| 0x40000000) ∧
      ((s.rd .glbLockerr).getLsbD 31 = false → (t.rd .glbLockerr).getLsbD 31 = true ∧
        fld (t.rd .glbLockerr) 29 28 = whoSrc w ∧ fld (t.rd .glbLockerr) 27 26 = reason ∧
        fld (t.rd .glbLockerr) 23 0 = o % 2 ^ 24) ∧
      t.mem = s.mem ∧ t.cores = s.cores) ∧
    (∀ r : RegAt, r.name.row.blk = .glb ∨ r.name.row.blk = .cpx → let t := s.regWrite w r v
      (∀ i < 32, (t.rd r.name r.unit r.idx).getLsbD i =
        if (r.name.row.rw ||| r.name.row.rwl ||| (r.name.row.w1s &&& v)).getLsbD i = true then v.getLsbD i
        else if r.name.row.w1c.getLsbD i = true ∧ v.getLsbD i = true then false else (s.rd r.name r.unit r.idx).getLsbD i) ∧
      (∀ k, k ≠ r.key → Tab.get barReset t.bar k = Tab.get barReset s.bar k) ∧ t.mem = s.mem ∧ t.cores = s.cores) ∧
    (∀ vf, vf ≠ 0 → s.funcOk vf = true → vfReg off = none → off < 0x2000 →
      exec (.registerWrite .host vf off x 0 4) s = .next s)

/-- (R149, R150, R161, R166, R170, R174) While ticks run, in a cell that is RUNNING or STOPPING and away from a zeroization,
RAKE_LINE beyond the budget of the row does nothing unless a core of the cluster runs as Rake assist; within it,
RAKE_LINE goes on with the unit under way, or takes the first unit of the first kind that has work, counts the line (a
Rake assist counts none), names the partition and the kind in RKSTAT, and either advances within the unit or, with its
last line, puts the effect and the new units in place. MARK_COMPLETION announces phase MARKED once marking is done on
every side and RELOCATION_COMPLETION phase IDLE once relocation is done, else nothing changes; REGION_CLEARING_COMPLETE
sets CLEAN once the last region is cleared; DEFERRED_RELOCATE_FLIP stays deferred while a job has an operand in a RELOC
region and else flips to phase RELOC. -/
def Obligations.RakeWorksLinesAndCompletesPhases : Prop :=
  ∀ s : State,
    (∀ m, m < s.build.clusters → let k := s.clu m
      let n := s.build.cellOfClu m
      let spent := fld (s.rowAttr (s.cell n).row n) 13 0 ≤ k.lines
      (s.ticking = false → exec (.rakeLine m) s = .next s) ∧
      (s.ticking = true → s.alm.zbusy = false → (s.cell n).st = 2 ∨ (s.cell n).st = 3 →
        (spent → (∀ c ∈ coresOfClu m, (s.core c).entry ≠ 0xF0) → exec (.rakeLine m) s = .next s) ∧
        (¬ spent → k.work = [] → k.prio = [] → s.rakeParts m = [] →
          exec (.rakeLine m) s = .next (s.modClu m fun k => { k with prog := 0 })) ∧
        (¬ spent → ∀ p side kind w rest, k.prog ≠ 0 → k.work = (p, side, kind, w) :: rest → s.rakes p = true →
          s.rakeNext m false = (s, true)) ∧
        (∀ (assist : Bool) (v : State), (if assist = true then spent ∧ ∃ c ∈ coresOfClu m, (s.core c).entry = 0xF0 ∧
            (s.core c).locked = false ∧ s.microAt c 0x00A8 else ¬ spent) → s.rakeNext m assist = (v, true) →
          ∀ p side kind w rest, (v.clu m).work = (p, side, kind, w) :: rest → p < 64 → kind < 16 →
          ∃ u : State, u.mem = v.mem ∧ u.parts = v.parts ∧ (u.clu m).lines = (v.clu m).lines + (if assist = true then 0 else 1) ∧
            (u.clu m).work = (v.clu m).work ∧ u.rdf .cluRkstat m 0 11 8 = kind ∧ u.rdf .cluRkstat m 0 5 0 = p ∧
            ∀ x t, (rkUnit ⟨m, p, side⟩ w).run.run u = (.ok x, t) →
              ((t.clu m).prog + 1 < x.2 → exec (.rakeLine m) s = .next (u.modClu m fun k => { k with prog := k.prog + 1 })) ∧
              (x.2 ≤ (t.clu m).prog + 1 → exec (.rakeLine m) s = .next (t.modClu m fun k =>
                { k with prog := 0, work := (x.1.map fun w => (p, side, kind, w)) ++ rest }))))) ∧
    (∀ p, p < s.build.parts → (s.part p).st ≠ 0 →
      (∀ x, x < 2 → (∃ y ∈ (s.part p).live, s.markDone p y = false) → exec (.markCompletion p x) s = .next s) ∧
      (∀ x, x < 2 → (∃ y ∈ (s.part p).live, s.relocDone p y = false) → exec (.relocationCompletion p x) s = .next s) ∧
      (∀ x, x < 2 → let k := s.rk p x
        (k.clearing = true → k.clear = [] → s.rakeBusy p x = false → exec (.regionClearingComplete p x) s =
          .next (s.modRk p x fun k => { k with clean := true, clearing := false })) ∧
        (k.clearing = false ∨ k.clear ≠ [] ∨ s.rakeBusy p x = true → exec (.regionClearingComplete p x) s = .next s) ∧
        (k.defer = false → exec (.deferredRelocateFlip p x) s = .next s)) ∧
      ((s.part p).paired = true → (s.part p).lost = 0 →
        let e := fun (x : Nat) => (⟨(s.part p).cellOf x * s.build.cluPerCell, p, x⟩ : Eng)
        ∀ x u, x < 2 →
          (s.markDone p 0 = true → s.markDone p 1 = true → (rkMarkComplete (e 0)).run.run s = (.ok ⟨⟩, u) →
            ∀ t, (rkMarkComplete ⟨(u.part p).cell1 * u.build.cluPerCell, p, 1⟩).run.run u = (.ok ⟨⟩, t) →
            exec (.markCompletion p x) s = .next t) ∧
          (s.relocDone p 0 = true → s.relocDone p 1 = true → (rkRelocComplete (e 0)).run.run s = (.ok ⟨⟩, u) →
            ∀ t, (rkRelocComplete ⟨(u.part p).cell1 * u.build.cluPerCell, p, 1⟩).run.run u = (.ok ⟨⟩, t) →
            exec (.relocationCompletion p x) s = .next t))) ∧
    (∀ p, p < s.build.parts → (s.part p).st ≠ 0 → (s.part p).paired = false → (s.part p).lost = 0 →
      let k := s.rk p 0
      let e : Eng := ⟨(s.part p).cell0 * s.build.cluPerCell, p, 0⟩
      (s.markDone p 0 = true → ∀ t, (rkMarkComplete e).run.run s = (.ok ⟨⟩, t) →
        exec (.markCompletion p 0) s = .next t ∧ (t.rk p 0).nextPhase = some 2 ∧ (t.rk p 0).weak = []) ∧
      (s.relocDone p 0 = true → ∀ t, (rkRelocComplete e).run.run s = (.ok ⟨⟩, t) →
        exec (.relocationCompletion p 0) s = .next t ∧ (t.rk p 0).nextPhase = some 0) ∧
      (k.defer = true → (s.part p).st = 3 → k.phase = 2 → k.flipPend = true → 
        (s.deferring p 0 = true → exec (.deferredRelocateFlip p 0) s = .next (s.modRk p 0 fun k => { k with defer := true })) ∧
        (s.deferring p 0 = false → ∃ t, exec (.deferredRelocateFlip p 0) s = .next t ∧
          (t.rk p 0).phase = 3 ∧ (t.rk p 0).flipPend = false ∧ (t.rk p 0).defer = false ∧ (t.rk p 0).req = 0)))

/-- (R241, R243, R244, R245, R248, R250, R270) For a populated line of the cell with no request of the cluster outstanding,
a stable entry without a queue and room in its directory set: RDS of a line in U gives a shared EMPTY line where the
region is fresh and awaits DRAM otherwise; RDX awaits DRAM, ZOWN gets an EMPTY line in M; a sole sharer of a line in S
that sends UPG gets it in M without data; a line in X of another cluster is snooped, SnpS for RDS, SnpI for RDX; a
writing request of a fresh region waits for the fill and asks for it. An eviction moves the line to the eviction buffer
and drops the L1 copies; its WbD, whose header may come ahead of its data, writes the data to DRAM, EvC writes nothing;
both take the cluster from the sharers, send WbAck and leave the entry in WB. -/
def Obligations.RequestsReachTheirHome : Prop :=
  ∀ (s : State) (m l : Nat), m < s.build.clusters → cellOfLine l = s.build.cellOfClu m →
    let e := s.dirEnt l
    let me := cbit (s.cluIdx m)
    let y := s.l2Line m l
    let plain := s.canRequest m l = true ∧ e.trans = 0 ∧ e.queue = [] ∧ s.evEntry m l = none ∧ (e.st ≠ 0 ∨ ((s.dirInSet l).length < 16 ∧ s.dirRes = []))
    let sent := fun (t : State) (x : Msg) => t.net = s.net ++ [x] ∧ t.mem = s.mem ∧ t.cores = s.cores ∧ t.l2 = s.l2
    let waits := fun (t : State) (k : ReqKind) => (t.dirEnt l).trans = 1 ∧ ((t.dirEnt l).req.map HReq.kind) = some k ∧
      t.mem = s.mem ∧ t.net = s.net ∧ (t.mshrOf m l).map Mshr.kind = some k
    (plain → y.st = .I → e.st = 0 → e.shr = 0 →
      (s.lineFilled l = false → ∃ t, exec (.rds m l) s = .next t ∧ sent t ⟨.grantS, m, l, some emptyLine⟩ ∧
        (t.dirEnt l).st = 1 ∧ (t.dirEnt l).shr = me) ∧
      (s.lineFilled l = true → (∃ t, exec (.rds m l) s = .next t ∧ waits t .rds) ∧
        (∃ t, exec (.rdx m l) s = .next t ∧ waits t .rdx) ∧ (∃ t, exec (.upg m l) s = .next t ∧ waits t .upg) ∧
        (∃ t, exec (.zown m l) s = .next t ∧ sent t ⟨.grantM, m, l, some emptyLine⟩ ∧
          (t.dirEnt l).st = 2 ∧ (t.dirEnt l).shr = me)) ∧
      (s.lineFilled l = false → ∀ i ∈ [Instr.rdx m l, .upg m l, .zown m l], ∃ t, exec i s = .next t ∧
        (t.dirEnt l).fillWait = true ∧ (t.dirEnt l).trans = 1 ∧ t.mem = s.mem ∧ t.net = s.net)) ∧
    (plain → y.st = .S → e.st = 1 → e.shr = me → s.lineFilled l = true →
      ∃ t, exec (.upg m l) s = .next t ∧ sent t ⟨.grantM, m, l, none⟩ ∧ (t.dirEnt l).st = 2 ∧ (t.dirEnt l).shr = me) ∧
    (∀ j, j < s.build.cluPerCell → plain → y.st = .I → e.st = 2 → e.shr = cbit j → j ≠ s.cluIdx m → s.lineFilled l = true →
      (∃ t, exec (.rds m l) s = .next t ∧ sent t ⟨.snps, s.cluAt l j, l, none⟩ ∧ (t.dirEnt l).need = cbit j ∧ (t.dirEnt l).trans = 2) ∧
      (∃ t, exec (.rdx m l) s = .next t ∧ sent t ⟨.snpi, s.cluAt l j, l, none⟩ ∧ (t.dirEnt l).need = cbit j ∧ (t.dirEnt l).trans = 2)) ∧
    (s.canRequest m l = false → ∀ i ∈ [Instr.rds m l, .rdx m l, .upg m l, .zown m l], exec i s = .next s) ∧
    (s.l2Locked m l = false → s.mshrOf m l = none → y.st ≠ .I → (s.clu m).evb.length < 16 →
      ∃ t, exec (.l2Eviction m l) s = .next t ∧ (t.l2Line m l).st = .I ∧ t.mem = s.mem ∧ t.dir = s.dir ∧
        (t.clu m).evb = (s.clu m).evb ++ [⟨l, y.st == .M, y.words⟩] ∧
        ∀ c ∈ coresOfClu m, ∀ x ∈ (t.core c).l1d, x.2 ≠ l + 1) ∧
    (s.l2Locked m l = true → exec (.l2Eviction m l) s = .next s) ∧
    (∀ v, s.evEntry m l = some v → e.trans = 0 → e.queue = [] →
      s.net.any (fun x => x.kind == .wback && x.clu == m && x.line == l) = false → (e.half ||| e.hdr) &&& me = 0 →
      s.flipArmed l = false →
      (∃ t, exec (if v.dirty = true then .wbd m l true else .evc m l) s = .next t ∧
        t.net = s.net ++ [⟨.wback, m, l, none⟩] ∧ (t.dirEnt l).shr = e.shr &&& ~~~me ∧ (t.dirEnt l).trans = 5 ∧
        (e.shr &&& ~~~me = 0 → (t.dirEnt l).st = 0) ∧ t.l2 = s.l2 ∧
        (v.dirty = true → v.data.length = 8 → ∀ i < 8, t.memWord (l * 8 + i) = v.data.getD i Word.empty) ∧
        (∀ a, a / 8 ≠ l ∨ v.dirty = false → t.memWord a = s.memWord a)) ∧
      (v.dirty = true → ∃ t, exec (.wbd m l false) s = .next t ∧ (t.dirEnt l).wbHeld (s.cluIdx m) = true ∧
        (t.dirEnt l).trans = 5 ∧ t.mem = s.mem ∧ t.net = s.net ∧ t.l2 = s.l2)) ∧
    (s.evEntry m l = none → (∀ d, exec (.wbd m l d) s = .next s) ∧ exec (.evc m l) s = .next s)

/-- (R243, R244, R248, R250, R251, R252, R254) The oldest message of the direction about the line is delivered. SnpS leaves
the line in S, SnpI drops it from the L2 and L1s, SnpD leaves it; each is answered Ack, or AckD with the data of an M
line; a line in the eviction buffer is answered EIF. A grant installs the line in its state and ends the request; WbAck
frees the eviction buffer entry; Retry counts and starts the backoff, whose end repeats the request. An Ack with further
answers owed only counts; the AckD of the owner to an RDX grants the line in M with its data; the last Ack without data
awaits DRAM. EIF without its writeback waits for it; LOST makes an X line POISON in memory. An answer, or the data of a
write, that never comes takes the cell down. -/
def Obligations.SnoopsAnswersAndGrantsMoveALine : Prop :=
  ∀ (s : State) (m l : Nat), m < s.build.clusters → cellOfLine l = s.build.cellOfClu m →
    let j := s.cluIdx m
    let b := cbit j
    (∀ x t, s.takeMsg true m l = some (x, t) → x.clu = m → x.line = l →
      let y := s.l2Line m l
      let d := if y.st = .M then some y.words else none
      let k := if y.st = .M then MsgKind.ackd else .ack
      (y.st ≠ .I →
        (x.kind = .snps → exec (.snps m l) s = .next ((t.setL2 m l { y with st := .S }).send k m l d)) ∧
        (x.kind = .snpi → exec (.snpi m l) s = .next (((t.setL2 m l {}).l1Drop m l).send k m l d)) ∧
        (x.kind = .snpd → exec (.snpd m l) s = .next (t.send k m l d))) ∧
      (y.st = .I → (s.evEntry m l).isSome = true → ∀ i, (x.kind = .snps ∧ i = Instr.snps m l) ∨
        (x.kind = .snpi ∧ i = .snpi m l) ∨ (x.kind = .snpd ∧ i = .snpd m l) → exec i s = .next (t.send .eif m l)) ∧
      (∀ st u, (x.kind = .grantE ∧ st = L2St.E) ∨ (x.kind = .grantS ∧ st = .S) ∨ (x.kind = .grantM ∧ st = .M) →
        t.install m l st x.data = some u → ∃ v, exec (.grant (.clu m) l) s = .next v ∧
          (v.l2Line m l).st = st ∧ v.mshrOf m l = none ∧ v.mem = u.mem ∧ v.dir = u.dir ∧ v.net = u.net) ∧
      (x.kind = .wback → (∀ z ∈ s.dir, z.2.queue = []) → let e := s.dirEnt l
        let mine := e.trans = 5 ∧ ∃ r, e.req = some r ∧ r.noData = false ∧ r.agent = j
        ∃ u, exec (.wback m l) s = .next u ∧ u.evEntry m l = none ∧ u.mem = s.mem ∧ u.l2 = s.l2 ∧ u.net = t.net ∧
          (mine → (u.dirEnt l).trans = 0 ∧ (u.dirEnt l).req = none) ∧ (¬ mine → u.dirEnt l = e)) ∧
      (x.kind = .retry → ∀ q, s.mshrOf m l = some q →
        exec (.retry (.clu m) l) s = .next (t.setMshr m l (some { q with retries := q.retries + 1, backoff := true })))) ∧
    (∀ q, s.mshrOf m l = some q →
      (q.backoff = true → exec (.retryBackoffExpiry (.clu m) l) s = .next (s.request m l q.kind)) ∧
      (q.backoff = false → exec (.retryBackoffExpiry (.clu m) l) s = .next s)) ∧
    (∀ x t, s.takeMsg false m l = some (x, t) → x.clu = m → x.line = l → let e := s.dirEnt l
      (x.kind = .ack → e.trans ≠ 0 → e.need &&& ~~~b ≠ 0 → exec (.ack m l) s = .next (t.setDir l { e with
        need := e.need &&& ~~~b, shr := if e.invalidates = true then e.shr &&& ~~~b else e.shr })) ∧
      (e.trans = 2 → e.need = b → e.eif = 0 → e.fillWait = false → e.data = none → (∀ z ∈ s.dir, z.2.queue = []) → ∀ r, e.req = some r → r.kind = .rdx → r.noData = false →
        (∀ d, x.kind = .ackd → x.data = some d → ∃ u, exec (.ackd m l) s = .next u ∧
          u.net = t.net ++ [⟨.grantM, s.cluAt l r.agent, l, some d⟩] ∧ (u.dirEnt l).st = 2 ∧ (u.dirEnt l).shr = cbit r.agent ∧
          (u.dirEnt l).trans = 0 ∧ u.mem = s.mem) ∧
        (x.kind = .ack → ∃ u, exec (.ack m l) s = .next u ∧ (u.dirEnt l).trans = 1 ∧ (u.dirEnt l).need = 0 ∧ u.mem = s.mem ∧
          u.net = t.net)) ∧
      (x.kind = .eif → e.half &&& b = 0 → exec (.eif m l) s =
        .next (t.setDir l { e with need := e.need &&& ~~~b, eif := e.eif ||| b })) ∧
      (x.kind = .lost → e.st = 2 → e.trans = 2 → e.data = none → e.need &&& ~~~b ≠ 0 → s.flipArmed l = false →
        ∃ u, exec (.lost m l) s = .next u ∧ (∀ i < 8, u.memWord (l * 8 + i) = Word.poison 2 (l * 8 + i)) ∧
          (u.dirEnt l).need = e.need &&& ~~~b ∧ (u.dirEnt l).shr = e.shr &&& ~~~b ∧
          (u.rd .cellCoherr (cellOfLine l)).getLsbD 31 = true)) ∧
    (s.takeMsg false m l = none → ∀ i ∈ [Instr.ack m l, .ackd m l, .eif m l, .lost m l], exec i s = .next s) ∧
    ((s.dirEnt l).owes ≠ none →
      ∃ t, exec (.homeResponseTimeout l) s = .next t ∧ (t.cell (cellOfLine l)).st = 4 ∧ t.mem = s.mem) ∧
    ((s.dirEnt l).owes = none → exec (.homeResponseTimeout l) s = .next s)

/-- (R248, R249, R252, R268, R269, R270, R273, R417) On a populated line in U with a stable entry, an empty queue and room:
NCRD of a filled line awaits DRAM, of a fresh one is answered EMPTY; NCWR with its data writes the eight words at once
and its header alone awaits them; NCWRP, and a CAS or AOR at the front of its core, whose store buffer is empty and
whose list it leaves, await the old words; on a fresh region the writes wait for its fill. Data of an NCWR whose header
waits completes it. GRANT tells an agent its data and a core whether its CAS wrote; RETRY makes an agent or a core
repeat its request at RETRY_BACKOFF_EXPIRY. DRAM data of an RDS without errors gives the line in E with the words of
memory; a first read that cannot be corrected is read again. A codeword uncorrectable in both reads comes out as POISON.
A channel that answers nothing takes its cell down with reason 3; a refresh keeps every bit. -/
def Obligations.NonCachingAgentsAndDramReads : Prop :=
  ∀ (s : State) (l : Nat), cellOfLine l < s.build.cells →
    let e := s.dirEnt l
    let idle := s.linePopulated l = true ∧ e.trans = 0 ∧ e.queue = [] ∧ e.st = 0 ∧ e.shr = 0 ∧ e.hdr = 0 ∧ (s.dirInSet l).length < 16 ∧ s.dirRes = []
    let held := fun (t : State) (k : ReqKind) (tr : Nat) => (t.dirEnt l).trans = tr ∧ (t.dirEnt l).req.map HReq.kind = some k ∧
      t.mem = s.mem ∧ t.net = s.net
    (∀ (a : BitVec 4) (mask : BitVec 8) (ws : List Word), 4 ≤ a.toNat → a.toNat ≤ 13 → idle →
      (s.lineFilled l = true →
        (∃ t, exec (.ncrd a l) s = .next t ∧ held t .ncrd 1) ∧
        (∃ t, exec (.ncwrp a l mask (some ws)) s = .next t ∧ held t .ncwrp 4 ∧ (t.dirEnt l).fillWait = false) ∧
        (∃ t, exec (.ncwr a l none) s = .next t ∧ held t .ncwr 4 ∧ (t.dirEnt l).owes = some a.toNat) ∧
        (ws.length = 8 → s.flipArmed l = false → ∃ t, exec (.ncwr a l (some ws)) s = .next t ∧ (t.dirEnt l).trans = 0 ∧
          (t.dirEnt l).st = 0 ∧ (∀ i < 8, t.memWord (l * 8 + i) = ws.getD i Word.empty) ∧
          (∀ x, x / 8 ≠ l → t.memWord x = s.memWord x) ∧ t.net = s.net ∧ t.l2 = s.l2)) ∧
      (s.lineFilled l = false →
        (∃ t, exec (.ncrd a l) s = .next t ∧ t.mem = s.mem ∧ t.net = s.net ∧
          t.ncNet = s.ncNet ++ [{ retry := false, req := { kind := .ncrd, agent := a.toNat }, line := l, data := emptyLine }]) ∧
        (∃ t, exec (.ncwr a l (some ws)) s = .next t ∧ held t .ncwr 4 ∧ (t.dirEnt l).fillWait = true) ∧
        (∃ t, exec (.ncwrp a l mask (some ws)) s = .next t ∧ held t .ncwrp 4 ∧ (t.dirEnt l).fillWait = true))) ∧
    (∀ (a : BitVec 4) (ws : List Word) r, e.req = some r → r.awaits .ncwr a.toNat = true → e.trans = 4 → e.need = 0 → e.eif = 0 →
      e.fillWait = false → s.ncReaches a l = true → s.flipArmed l = false → ws.length = 8 → (∀ z ∈ s.dir, z.2.queue = []) →
      ∃ t, exec (.ncwr a l (some ws)) s = .next t ∧ (t.dirEnt l).trans = 0 ∧
        ∀ i < 8, t.memWord (l * 8 + i) = ws.getD i Word.empty) ∧
    (∀ (a : BitVec 4) d, s.linePopulated l = false → exec (.ncrd a l) s = .next s ∧ exec (.ncwr a l d) s = .next s) ∧
    (∀ q x, (∀ m, q ≠ Asker.clu m) →
      (s.ncNet.find? (fun y => y.isFor q l false) = some x → ∃ t, exec (.grant q l) s = .next t ∧ t.mem = s.mem ∧ t.dir = s.dir ∧
        t.ncNet = s.ncNet.eraseP (fun y => y.isFor q l false) ∧
        (x.req.kind = .ncrd → Tab.get (fun _ => []) t.ncGot (cellOfLine x.line * 16 + x.req.agent) = x.data) ∧
        (x.req.kind = .cas → (t.core x.req.agent).casWrote = some x.wrote)) ∧
      (s.ncNet.find? (fun y => y.isFor q l true) = some x → exec (.retry q l) s =
        .next { s with ncNet := s.ncNet.eraseP (fun y => y.isFor q l true), ncAsk := s.ncAsk ++ [⟨x.req, x.line⟩] }) ∧
      (∀ y, s.ncAsk = [y] → ({ retry := true, req := y.req, line := y.line } : NcMsg).isFor q l true = true →
        exec (.retryBackoffExpiry q l) s = .next (({ s with ncAsk := [] } : State).arrive l y.req))) ∧
    (∀ c pa o n v q, c < s.build.cores → pa / 8 = l → idle → s.lineFilled l = true → (s.core c).sb = [] →
      ((s.core c).atomics = .cas pa o n :: q → ∃ t, exec (.cas c) s = .next t ∧ held t .cas 4 ∧
        (t.core c).atomics = q ∧ exec (.aor c) s = .next s) ∧
      ((s.core c).atomics = .aor pa v :: q → ∃ t, exec (.aor c) s = .next t ∧ held t .aor 4 ∧
        (t.core c).atomics = q ∧ exec (.cas c) s = .next s)) ∧
    (e.wantsDram = true → s.chanHeld (s.chanOfLine l) = false → s.phyLost (s.chanOfLine l) = false →
      (∀ err, e.reread = none → s.needsReread l err = true →
        exec (.dramReadReturn l err) s = .next (s.setDir l { e with reread := some err })) ∧
      (∀ r, e.reread = none → e.req = some r → r.kind = .rds → e.shr = 0 → s.cwErr l 0 = [] → s.cwErr l 1 = [] →
        (∀ z ∈ s.dir, z.2.queue = []) → ∃ t, exec (.dramReadReturn l []) s = .next t ∧
          t.net = s.net ++ [⟨.grantE, s.cluAt l r.agent, l, some (s.memLine l)⟩] ∧ t.mem = s.mem ∧ (t.dirEnt l).st = 2 ∧
          (t.dirEnt l).shr = cbit r.agent ∧ (t.dirEnt l).trans = 0) ∧
      (∀ err e1, e.reread = some e1 →
        exec (.dramReread l err) s = .next ((s.setDir l { e with reread := none }).dramDone l e1 err) ∧
        exec (.dramReadReturn l err) s = .next s)) ∧
    (∀ err, e.reread = none → exec (.dramReread l err) s = .next s) ∧
    (∀ cw e1 e2, cwOutcome (normErr (s.cwErr l cw ++ errOf cw e1)) = .uncorrectable →
      cwOutcome (normErr (s.cwErr l cw ++ errOf cw e2)) = .uncorrectable →
      let r := s.readCw l cw 0 0 e1 e2
      r.1.ws = (List.range 4).map (fun i => Word.poison 0 (l * 8 + cw * 4 + i)) ∧ r.1.bad = true ∧ r.2.mem = s.mem) ∧
    (∀ ch, ch < s.build.channels →
      (∀ x, s.chanOutstanding ch = some x → ∃ t, exec (.channelTimeout ch) s = .next t ∧
        (t.cell (s.build.cellOfChan ch)).st = 4 ∧ t.mem = s.mem ∧
        ((s.cell (s.build.cellOfChan ch)).st ≠ 4 → t.rdf .cellDownwhy (s.build.cellOfChan ch) 0 27 24 = 3)) ∧
      (s.chanOutstanding ch = none → exec (.channelTimeout ch) s = .next s) ∧
      (∀ r, r < 4 → exec (.refresh ch r) s = .next s))

/-- (R240, R253, R254) L2_DATA_UE of one symbol of a pair that the L2 or the scratch holds is corrected and counted in
CLU_L2CE; of more, on a line that the L2 holds, outside the scratch, it makes both words of the aligned pair POISON of
SUB 2, keeps the other six and the state of the line, drops the L1 copies and records the error, and in the scratch it
makes both words of the pair POISON; on a line it does not hold nothing changes. L2_TAG_PARITY on a way that caches sets
its FAILWAYS bit, leaves no line in that way, keeps every line of the other ways, and records the error; on a way that
does not cache nothing changes. -/
def Obligations.CacheErrorsPoisonOrDisable : Prop :=
  ∀ (s : State) (m : Nat), m < s.build.clusters →
    (∀ pa, exec (.l2DataUe m pa 0) s = .next s ∧
      (s.l2Holds m pa = true → exec (.l2DataUe m pa 1) s = .next (s.inc32 .cluL2ce m)) ∧
      (s.l2Holds m pa = false → exec (.l2DataUe m pa 1) s = .next s)) ∧
    (∀ pa n, 2 ≤ n → s.scratchAt (s.build.cellOfClu m) (pa / 2 * 2) = none → let l := pa / 2 * 2 / 8
      let x := s.l2Line m l
      (x.st = .I → exec (.l2DataUe m pa n) s = .next s) ∧
      (x.st ≠ .I → ∃ t, exec (.l2DataUe m pa n) s = .next t ∧ (t.l2Line m l).st = x.st ∧
        (∀ i < 8, (t.l2Line m l).word i = if i / 2 = pa / 2 % 4 then Word.poison 2 (l * 8 + i) else x.word i) ∧
        t.mem = s.mem ∧ t.dir = s.dir ∧ (t.rd .cluL2err m).getLsbD 31 = true)) ∧
    (∀ pa n o, 2 ≤ n → s.scratchAt (s.build.cellOfClu m) (pa / 2 * 2) = some (m, o) → o < 2 ^ 18 - 1 → let a := pa / 2 * 2
      ∃ t, exec (.l2DataUe m pa n) s = .next t ∧ t.scratchWord m o = Word.poison 2 a ∧
        t.scratchWord m (o + 1) = Word.poison 2 (a + 1) ∧ t.mem = s.mem ∧ t.l2 = s.l2 ∧ (t.rd .cluL2err m).getLsbD 31 = true) ∧
    (∀ way set, way < 16 - s.scratchWays m → way < 16 → (s.failWays m).getLsbD way = false →
      ∃ t, exec (.l2TagParity m way set) s = .next t ∧ (t.failWays m).getLsbD way = true ∧ t.mem = s.mem ∧ t.dir = s.dir ∧
        (∀ l < 2 ^ 36, (s.l2Line m l).way = way → (t.l2Line m l).st = .I) ∧
        (Tab.wf (fun _ => {}) s.l2 = true → ∀ l < 2 ^ 36, (s.l2Line m l).way ≠ way → t.l2Line m l = s.l2Line m l)) ∧
    (∀ way set, 16 ≤ way ∨ (s.failWays m).getLsbD way = true → exec (.l2TagParity m way set) s = .next s)

/-- (R270, R271, R274, R275, R276, R284) An idle fill engine takes its oldest request, and a request that waited for room
enters the queue; when it ends, the region, if usable and fresh, is marked filled and every word of it reads EMPTY, and
transactions that wait may go on. A FILL_REQUEST with START, of a usable fresh region outside the descriptors that is
neither queued nor filling, enters the queue of at most 16. An armed write of a line leaves its words, puts the masked
errors into the codeword named and shows DONE. HOE_READ with ENABLE 0 does nothing, and of a line without errors reads
it and moves on; at the end of the regions HOE_LAP_COMPLETE records the length in frames and starts the next lap. -/
def Obligations.FillsFlipsAndTheHoe : Prop :=
  ∀ (s : State) (n : Nat), n < s.build.cells →
    let k := s.cell n
    (∀ r q, k.filling = none → k.fillq = r :: q →
      exec (.regionFillStart n) s = .next (s.modCell n fun k => ({ k with filling := some r, fillq := q } : Cell).fillRoom)) ∧
    (∀ r, k.filling = some r → exec (.regionFillStart n) s = .next (s.modCell n fun k => k)) ∧
    (∀ r, k.filling = some r → r < 2 ^ 20 → s.regionUsable n r = true → s.isFilled n r = false → (∀ x ∈ s.dir, x.2.fillWait = false) →
      ∃ t, exec (.regionFillComplete n) s = .next t ∧ t.isFilled n r = true ∧ (t.cell n).filling = none ∧
        (∀ i < 131072, t.memWord ((n * 2 ^ 34 + r * 16384) * 8 + i) = Word.empty) ∧
        (∀ a, a / 131072 ≠ n * 2 ^ 20 + r → t.memWord a = s.memWord a)) ∧
    (∀ w v, (∃ r, s.target w (RegAt.key ⟨.homeFillreq, 4 * n, 0⟩) = .reg r) → let r := fld v 19 0
      (v.getLsbD 31 = true → s.isFilled n r = false → s.regionUsable n r = true → s.birOf n (r * 16384) = none →
        k.fillKnown r = false → k.fillq.length < 16 →
        exec (.fillRequest w n v) s = .next (s.setCell n { k with fillq := k.fillq ++ [r] })) ∧
      (v.getLsbD 31 = false ∨ s.isFilled n r = true ∨ s.regionUsable n r = false ∨ k.fillKnown r = true →
        exec (.fillRequest w n v) s = .next s)) ∧
    (∀ l, s.flipArmed l = true → s.linePopulated l = true → s.lineFilled l = true → let v := s.rd .memFlipctl (s.chanOfLine l)
      ∃ t, exec (.flipMaskWrite l) s = .next t ∧ (∀ a, t.memWord a = s.memWord a) ∧
        t.cwErr l (fld v 16 16) = flipErr (s.rd .memFlipmask (s.chanOfLine l)) (fld v 3 0) ∧
        t.cwErr l (1 - fld v 16 16) = [] ∧
        t.rd .memFlipctl (s.chanOfLine l) = (v &&& 0x7FFFFFFF) ||| 0x40000000) ∧
    (∀ l, s.flipArmed l = false → exec (.flipMaskWrite l) s = .next s) ∧
    ((s.rd .homeHoectl (4 * n)).getLsbD 0 = false → ∀ a b, exec (.hoeRead n a b) s = .next s) ∧
    ((s.rd .homeHoectl (4 * n)).getLsbD 0 = true → k.st ≠ 4 → ∀ r, s.hoeNext n k.hoePos = some r →
      (s.hoeSkips n r = true → ∀ a b, exec (.hoeRead n a b) s =
        .next (s.modCell n fun k => { k with hoePos := r + 1, hoeLine := 0, hoeSkip := satInc 16 k.hoeSkip })) ∧
      (let x := if r = k.hoePos then k.hoeLine else 0
       let l := n * 2 ^ 34 + r * 16384 + x
       s.hoeSkips n r = false → s.chanHeld (s.chanOfLine l) = false → s.cwErr l 0 = [] → s.cwErr l 1 = [] → ∃ t, exec (.hoeRead n [] []) s = .next t ∧
        t.mem = s.mem ∧ t.bar = s.bar ∧
        (x + 1 < 16384 → (t.cell n).hoePos = r ∧ (t.cell n).hoeLine = x + 1) ∧
        (x + 1 = 16384 → (t.cell n).hoePos = r + 1 ∧ (t.cell n).hoeLine = 0))) ∧
    (s.hoeNext n k.hoePos = none → ∃ t, exec (.hoeLapComplete n) s = .next t ∧
      t.rd .homeHoelap (4 * n) = BitVec.ofNat 32 (min (s.frame - k.hoeStart) (2 ^ 32 - 1)) ∧ (t.cell n).hoePos = 0 ∧
      (t.cell n).hoeLine = 0 ∧ (t.cell n).hoeStart = s.frame ∧ (t.cell n).hoeLaps = (k.hoeLaps + 1) % 65536 ∧ t.mem = s.mem) ∧
    (s.hoeNext n k.hoePos ≠ none → exec (.hoeLapComplete n) s = .next s)

/-- (R239, R257, R258, R263, R277, R280, R428) A MAINT row of an operation that is not the one running, or whose work is
done, changes nothing; else its work is done once: the clean leaves what the cleaning of every cached line leaves, the
scratch clear makes every scratch word of a cleared cluster EMPTY, the directory initialisation leaves every entry of
the cell U, no message and no request, and clears the failed ways, bank exclusion takes the exclusion words, DDR
retraining takes the data rate, the self-test clears the fresh-region map and memory with it. MAINT_OP_COMPLETE records
the operation as the last, starts the lowest one that waits, and stops a cell whose last operation it was, its cores no
longer locked up. A restart that times out names reason 4 and stays DOWN. -/
def Obligations.MaintenanceOperationsRunInTurn : Prop :=
  ∀ (s : State) (n : Nat), n < s.build.cells →
    let k := s.cell n
    let runs := fun (op : Nat) => k.mcur = some op ∧ k.mdone = false
    (∀ op i found, (op = 0 ∧ i = Instr.maintL2Clean n) ∨ (op = 1 ∧ i = .maintScratchClear n) ∨ (op = 2 ∧ i = .maintDirectoryInit n) ∨
        (op = 3 ∧ i = .maintBankExclusion n) ∨ (op = 4 ∧ i = .maintDdrRetraining n) ∨ (op = 5 ∧ i = .maintSelftest n found) →
      ¬ runs op → exec i s = .next s) ∧
    (runs 0 → exec (.maintL2Clean n) s = .next ((s.l2Clean n).modCell n fun k => { k with mdone := true })) ∧
    (runs 1 → ∃ t, exec (.maintScratchClear n) s = .next t ∧ (t.cell n).mdone = true ∧ t.mem = s.mem ∧
      (t.cell n).scrClear = 0 ∧ ∀ m, m / s.build.cluPerCell = n → ∀ o < 2 ^ 18,
        t.scratchWord m o = if k.scrClear.getLsbD (s.cluIdx m) = true then Word.empty else s.scratchWord m o) ∧
    (runs 2 → ∃ t, exec (.maintDirectoryInit n) s = .next t ∧ (t.cell n).mdone = true ∧ t.mem = s.mem ∧
      (∀ l, cellOfLine l = n → t.dirEnt l = {}) ∧ (∀ l, cellOfLine l ≠ n → t.dirEnt l = s.dirEnt l) ∧
      (∀ x ∈ t.net, cellOfLine x.line ≠ n) ∧ (∀ m, m / s.build.cluPerCell = n → t.failWays m = 0)) ∧
    (runs 3 → ∃ t, exec (.maintBankExclusion n) s = .next t ∧ (t.cell n).mdone = true ∧
      (t.cell n).exclDirty = false ∧ ∀ i < 4, Tab.get (fun _ => 0) (t.cell n).exclOn i = s.rd .homeExcl (4 * n) i) ∧
    (runs 4 → ∃ t, exec (.maintDdrRetraining n) s = .next t ∧ t.cell n = { k with cfgDirty := false, mdone := true } ∧
      t.rdf .clkDdr 0 0 (2 * n + 1) (2 * n) = fld (s.memCfg n) 1 0 ∧ t.mem = s.mem) ∧
    (runs 5 → ∀ found, ∃ t, exec (.maintSelftest n found) s = .next t ∧ (t.cell n).mdone = true ∧ (∀ r < 2 ^ 20, t.isFilled n r = false) ∧
      (∀ a, a / 2 ^ 37 = n → t.memWord a = Word.empty) ∧ (∀ a, a / 2 ^ 37 ≠ n → t.memWord a = s.memWord a)) ∧
    (∀ op, k.mcur = some op → k.mdone = true → op ≠ 5 ∨ k.selftest = false →
      (k.st ≠ 3 → ∃ t, exec (.maintOpComplete n) s = .next t ∧ (t.cell n).mlast = op ∧ (t.cell n).mdone = false ∧
        (k.mpend = 0 → (t.cell n).mcur = none) ∧ (t.cell n).st = k.st ∧ t.mem = s.mem ∧
        (∀ i < 16, k.mpend.getLsbD i = true → (∀ j < i, k.mpend.getLsbD j = false) →
          (t.cell n).mcur = some i ∧ (t.cell n).mpend.getLsbD i = false)) ∧
      (k.st = 3 → k.stopPend = false → k.mpend = 0 → ∃ t, exec (.maintOpComplete n) s = .next t ∧ (t.cell n).st = 0 ∧
        t.rd .frmCellEvt 0 n = BitVec.ofNat 32 s.frame ∧
        (∀ c, c / s.build.coresPerCell = n → (t.core c).locked = false ∧ t.rd .cluCoreStat (c / 4) (c % 4) = 0) ∧ (s.admWait = .cellStop n → s.adm ≠ [] → t.admWait = .none))) ∧
    (k.mdone = false → exec (.maintOpComplete n) s = .next s) ∧
    (k.restarting = true → ∃ t, exec (.cellRestartTimeout n) s = .next t ∧ (t.cell n).restarting = false ∧
      (t.cell n).st = k.st ∧ t.rd .cellDownwhy n = 0x84000000 ∧ t.mem = s.mem) ∧
    (k.restarting = false → exec (.cellRestartTimeout n) s = .next s)

/-- (R316, R317, R318, R319, R320, R321, R326, R331, R337, R438) For a queue of the PF or of a VF that the host has enabled:
QP_ENABLE with valid sizes enables an empty queue with phase and indices at their start, with invalid ones leaves it
disabled with ERRC 5; QP_DISABLE clears EN and ends a waiting fetch; a write of a core changes no VF queue.
SQ_TAIL_DOORBELL within the queue is stored, beyond it is error 1; CQ_HEAD_DOORBELL that frees at most the posted
completions is taken, another is error 2. COMMAND_FETCH fetches only from the queue whose turn it is; a failed entry
read is error 3; a command that fails its checks, meets an alarm, an ABSENT or a stopped partition completes with that
status in its arrival frame; a key, RANDOM or PING command beyond 16 stays in its queue; an INVOKE takes its arena span,
or is held in its queue until ARENA_WAIT_FETCH finds it fits; an admin command joins the admin queue. FLR of a VF
empties its queues alone, FLR of the PF all of them; LINK_DOWN and PERST_N take the link down, disable every VF and
discard the admin commands; LINK_UP trains the link and lets a ready part be configured; PERST_N_RELEASE ends PERST. -/
def Obligations.QueuesDoorbellsFetchesAndLinks : Prop :=
  ∀ (s : State) (f q : Nat) (v : BitVec 32), q < 16 →
    (s.funcOk f = true → (f = 0 → ∀ n ∈ [RegName.qpCtl, .qpSqtail, .qpCqhead], ∃ r, s.target .host (RegAt.key ⟨n, 0, q⟩) = .reg r) →
      (v.getLsbD 31 = true →
        (1 ≤ f → ∀ w, w ≠ .host → exec (.qpEnable w f q v) s = .next s) ∧
        (s.qEn f q = true → ∃ t, exec (.qpEnable .host f q v) s = .next t ∧ t.qEn f q = true ∧ t.qIen f q = v.getLsbD 1 ∧
          t.qps = s.qps ∧ t.reqs = s.reqs ∧ t.mem = s.mem) ∧
        (s.qEn f q = false → s.sqsz f q ≠ 0 → s.sqsz f q ≤ s.cqsz f q → ∃ t, exec (.qpEnable .host f q v) s = .next t ∧
          t.qEn f q = true ∧ t.qIen f q = v.getLsbD 1 ∧ t.sqTail f q = 0 ∧ t.qst f q = {} ∧ t.reqs = s.reqs ∧ (1 ≤ f → t.bar = s.bar) ∧
          t.mem = s.mem) ∧
        (s.qEn f q = false → s.sqsz f q = 0 ∨ s.cqsz f q < s.sqsz f q → ∃ t, exec (.qpEnable .host f q v) s = .next t ∧
          t.qEn f q = false ∧ (t.qst f q).errc = 5 ∧ (t.rd .hciErr).getLsbD 31 = true)) ∧
      (v.getLsbD 31 = false → ∃ t, exec (.qpDisable .host f q v) s = .next t ∧ t.qEn f q = false ∧ t.qIen f q = v.getLsbD 1 ∧
        t.reqs = s.reqs ∧ t.qst f q = { s.qst f q with held := none } ∧ (1 ≤ f → t.bar = s.bar) ∧ t.mem = s.mem) ∧
      (fld v 11 0 ≤ s.sqsz f q → ∃ t, exec (.sqTailDoorbell f q v) s = .next t ∧ t.sqTail f q = fld v 11 0 ∧ t.qps = s.qps ∧
        (1 ≤ f → t.bar = s.bar) ∧ t.mem = s.mem) ∧
      (s.sqsz f q < fld v 11 0 → ∃ t, exec (.sqTailDoorbell f q v) s = .next t ∧ (t.qst f q).err = true ∧ (t.qst f q).errc = 1 ∧
        t.sqTail f q = s.sqTail f q) ∧
      (let n := s.cqsz f q + 1
       let adv := (fld v 11 0 + n - fld (s.qreg .qpCqhead f q) 11 0 % n) % n
       (fld v 11 0 < n → adv ≤ (s.qst f q).used → ∃ t, exec (.cqHeadDoorbell f q v) s = .next t ∧
         (t.qst f q) = { s.qst f q with used := (s.qst f q).used - adv } ∧ fld (t.qreg .qpCqhead f q) 11 0 = fld v 11 0 ∧
         (1 ≤ f → t.bar = s.bar) ∧ t.mem = s.mem) ∧
       (n ≤ fld v 11 0 ∨ (s.qst f q).used < adv → ∃ t, exec (.cqHeadDoorbell f q v) s = .next t ∧
         (t.qst f q).err = true ∧ (t.qst f q).errc = 2)) ∧
      (∃ t, exec (.flr f) s = .next t ∧ (∀ g i, g = f ∨ (f = 0 ∧ g ≤ s.build.parts) → i < 16 → t.qEn g i = false ∧ t.qst g i = {}) ∧
        (1 ≤ f → Tab.wf (fun _ => 0) s.vfbar = true → ∀ g i n, g ≠ f → 1 ≤ g → g ≤ 64 → i < 16 →
          n ∈ [RegName.qpCtl, .qpSqtail, .qpSize] → t.qreg n g i = s.qreg n g i) ∧
        (1 ≤ f → t.bar = s.bar ∧ t.adm = s.adm ∧ t.pwr = s.pwr) ∧
        (f = 0 → (∀ a ∈ t.adm, a.discard = true) ∧ t.admDone = [] ∧ t.pwr.numVf = 0) ∧ t.mem = s.mem) ∧
      (∀ c inp dma,
        (s.canFetch f q = false → exec (.commandFetch f q c inp dma) s = .next s) ∧
        (s.canFetch f q = true → dma = .sqError → ∃ t, exec (.commandFetch f q c inp dma) s = .next t ∧
          (t.qst f q).err = true ∧ (t.qst f q).errc = 3 ∧ t.reqs = s.reqs ∧ t.adm = s.adm) ∧
        (s.canFetch f q = true → dma ≠ .sqError → 1 ≤ f → let op := HostCmdOp c
          let full := op ∈ [0x48, 0x49, 0x4A, 0x50, 0x58] ∧ 16 ≤ s.stagedOn f
          (full → exec (.commandFetch f q c inp dma) s = .next (s.turnTaken f q)) ∧
          (¬ full → ∃ t, exec (.commandFetch f q c inp dma) s = .next t ∧
            (∀ st det off, ioFetchFault c inp dma = some (st, det, off) → ∃ x, t.req s.reqNo = some x ∧ x.done = some s.arrival ∧
              x.status = st ∧ x.detail = det ∧ x.cid = cmdCid c ∧ t.reqNo = s.reqNo + 1) ∧
            (∀ st, ioFetchFault c inp dma = none → s.refuseAt (f - 1) op = some st → ∃ x, t.req s.reqNo = some x ∧
              x.done = some s.arrival ∧ x.status = st ∧ x.cid = cmdCid c ∧ t.reqNo = s.reqNo + 1) ∧
            (ioFetchFault c inp dma = none → s.refuseAt (f - 1) op = none → op ≠ 0x40 →
              ∃ x, t.req s.reqNo = some x ∧ x.done = none ∧ x.arr = s.arrival ∧ x.op = op ∧ x.ps = cmdPs c ∧ x.inp = cmdInput c inp ∧
                t.reqNo = s.reqNo + 1 ∧ (t.qst f q).sqHead = ((s.qst f q).sqHead + 1) % (s.sqsz f q + 1)) ∧
            (ioFetchFault c inp dma = none → s.refuseAt (f - 1) op = none → op = 0x40 →
              let n := spanWords (inputObjs (cmdInput c inp)) (cmdOutLen c)
              ((s.part (f - 1)).arenaFit n = none → (t.qst f q).held = some (c, inp, dma) ∧ (t.qst f q).sqHead = (s.qst f q).sqHead ∧
                t.reqs = s.reqs ∧ t.mem = s.mem) ∧
              (∀ fit, (s.part (f - 1)).arenaFit n = some fit → ∃ (u : State) (x : Req), u.req s.reqNo = some x ∧ x.done = none ∧
                x.op = 0x40 ∧ x.arr = s.arrival ∧ x.inp = cmdInput c inp ∧ x.outLen = cmdOutLen c ∧ u.mem = s.mem ∧ u.part = s.part ∧
                t = u.place s.reqNo fit)))) ∧
        (s.canFetch f q = true → dma ≠ .sqError → f = 0 → ∃ t, exec (.commandFetch f q c inp dma) s = .next t ∧ t.reqs = s.reqs ∧
          (admFetchFault s.build c dma = none → t.admDone = s.admDone ∧ ∃ a, t.adm = s.adm ++ [a] ∧ a.op = HostCmdOp c ∧
            a.cid = cmdCid c ∧ a.target = cmdTarget c ∧ a.arr = s.arrival ∧ a.inp = fitBytes (cmdInLen c) inp) ∧
          (∀ st det, admFetchFault s.build c dma = some (st, det) → t.adm = s.adm ∧ ∃ d, t.admDone = s.admDone ++ [d] ∧
            d.status = st ∧ d.detail = det ∧ d.cmd.cid = cmdCid c))) ∧
      ((s.qst f q).held = none → exec (.arenaWaitFetch f q) s = .next s) ∧
      (∀ c inp dma, 1 ≤ f → (s.qst f q).held = some (c, inp, dma) → s.alm.zbusy = false → (s.qst f q).err = false → s.qEn f q = true →
        HostCmdOp c = 0x40 → ioFetchFault c inp dma = none → s.refuseAt (f - 1) 0x40 = none →
        let n := spanWords (inputObjs (cmdInput c inp)) (cmdOutLen c)
        ((s.part (f - 1)).arenaFit n = none → exec (.arenaWaitFetch f q) s = .next s) ∧
        (∀ fit, (s.part (f - 1)).arenaFit n = some fit → ∃ (u : State) (x : Req), exec (.arenaWaitFetch f q) s = .next (u.place s.reqNo fit) ∧
          u.req s.reqNo = some x ∧ x.op = 0x40 ∧ x.inp = cmdInput c inp ∧ (u.qst f q).held = none ∧ u.mem = s.mem))) ∧
    (s.pwr.link = true → ∃ t, exec .linkDown s = .next t ∧ t.pwr.link = false ∧ t.pwr.numVf = 0 ∧ (∀ a ∈ t.adm, a.discard = true) ∧
      t.admDone = [] ∧ t.mem = s.mem) ∧
    (s.pwr.link = false → exec .linkDown s = .next s) ∧
    (∀ numVf noBm, (s.pwr.perst = true → exec (.linkUp numVf noBm) s = .next s) ∧
      (s.pwr.perst = false → ∃ t, exec (.linkUp numVf noBm) s = .next t ∧ t.pwr.link = true ∧ t.qps = s.qps ∧ t.adm = s.adm ∧
        t.mem = s.mem ∧
        (s.pwr.ready = false → t.pwr.numVf = s.pwr.numVf ∧ t.pwr.bme = s.pwr.bme) ∧
        (s.pwr.ready = true → t.pwr.numVf = min numVf s.build.parts ∧
          ∀ g, (Tab.get (fun _ => true) t.pwr.bme g = true ↔ g ∉ noBm)))) ∧
    (s.pwr.pmicOn = true → ∃ t, exec .perstN s = .next t ∧ t.pwr.perst = true ∧ t.pwr.link = false ∧ t.pwr.numVf = 0 ∧ t.rd .hciErr = 0 ∧
      (∀ a ∈ t.adm, a.discard = true) ∧ t.mem = s.mem) ∧
    (s.pwr.pmicOn = false → exec .perstN s = .next s) ∧
    exec .perstNRelease s = .next (s.modPwr fun w => { w with perst := false })

/-- (R41, R296, R308, R309, R310, R330, R333, R334, R336, R353) For a queue of an enabled VF, outside a freeze and a
zeroization: INVOKE delivers the oldest due request that has its span to the sides of its partition. The oldest due
command of the opcode is served: PING returns its arrival frame; RANDOM the bytes of the partition instance, or of the
host DRBG of a pair, or 0x0300 with DETAIL 8 at the reseed limit; CANCEL sets CANCEL of the request named, or answers
RESULT 0, or that the partition does not run; KEY_IMPORT_WRAPPED and KEY_EXPORT_WRAPPED give DETAIL 4 for a key name
that fails its checks, 5 for a blob that does not unwrap, 6 for no free slot; KEY_DESTROY destroys the slot. RQDONE of a
core without a partition, or of no acceptable ticket, is recorded with its reason; else ACCEPTED is set, the reply is
read and its output staged at one word per fabric cycle. PAIR_WAITMAX_EXPIRY makes each lone digest older than WAITMAX a
mismatch and leaves every other request. TRNG_HEALTH_FAILURE is recorded, DRBG_RESEED reseeds or is skipped,
TRNG_STARTUP_PASS makes the TRNG healthy. -/
def Obligations.HostCommandsAreServedAndCompleted : Prop :=
  ∀ (s : State) (f q : Nat), s.funcOk f = true → 1 ≤ f → q < 16 →
    let ready := s.frozen = false ∧ s.alm.zbusy = false
    let oldest := fun (op no : Nat) (r : Req) =>
      s.reqList.find? (fun e => e.2.vf == f && e.2.q == q && e.2.op == op && e.2.dueServe s.frame) = some (no, r)
    let done := fun (t : State) (no : Nat) (r : Req) (st : BitVec 16) (det : BitVec 8) (out : List (BitVec 8)) (res : Nat) =>
      (Host.Outcome.next (t.setReq no (some (r.finish (max r.arr s.frame) st det out res))) : Out)
    let all := [Instr.cancel f q, .keyImportWrapped f q, .keyExportWrapped f q .good, .keyDestroy f q, .random f q, .ping f q]
    (¬ ready → ∀ i ∈ all, exec i s = .next s) ∧
    (ready → ∀ no r, s.req no = some r →
      ((s.qst f q).held = none → s.reqList.find? (fun e => e.2.vf == f && e.2.q == q && e.2.dueInvoke s.frame) = some (no, r) →
        ∃ t, exec (.invoke f q) s = .next t ∧ t.req no = some { r with delivered := true } ∧ t.mem = s.mem ∧ t.alm = s.alm ∧
          (∀ x, s.req x ≠ none → x ≠ no → t.req x = s.req x) ∧
          ((s.part r.part).paired = false → (s.part r.part).lost = 0 → (t.part r.part).dlv 0 = (s.part r.part).dlv 0 ++ [no])) ∧
      (oldest 0x58 no r → exec (.ping f q) s = done s no r 0 0 [] r.arr) ∧
      (oldest 0x50 no r → let d := if (s.part r.part).paired = true then (s.part r.part).drbgH else (s.part r.part).drbg0
        let n := (dwAt r.ps 0).toNat
        (d.spent = true → exec (.random f q) s = done (s.reseedLimit r.part) no r 0x0300 0x08 [] 0) ∧
        (d.spent = false → ∃ u, exec (.random f q) s = done u no r 0 0 (d.draw n).1 0 ∧ u.mem = s.mem ∧
          (if (s.part r.part).paired = true then (u.part r.part).drbgH else (u.part r.part).drbg0) = (d.draw n).2)) ∧
      (oldest 0x42 no r →
        ((s.part r.part).st ≠ 3 → (s.part r.part).st ≠ 4 → exec (.cancel f q) s = done s no r (s.notRunning r.part) 0 [] 0) ∧
        ((s.part r.part).st = 3 ∨ (s.part r.part).st = 4 →
          (s.cancelTarget r = none → exec (.cancel f q) s = done s no r 0 0 [] 0) ∧
          (∀ x, s.cancelTarget r = some x → exec (.cancel f q) s =
            done ((s.modReq x fun r => { r with cancel := true }).putRecState x false) no r 0 0 [] 1))) ∧
      (oldest 0x48 no r → let kek := qwAt r.ps 0
        (∀ u, s.nameOk r.part kek (· == 2) 0x20 = (false, u) → exec (.keyImportWrapped f q) s = done u no r 0x0101 0x04 [] 0) ∧
        (∀ u, s.nameOk r.part kek (· == 2) 0x20 = (true, u) →
          (exec (.keyImportWrapped f q) s = match unwrapKey (matBytes (u.slot (kek % 2 ^ 18)).mat) r.inp with
            | none => done u no r 0x0101 0x05 [] 0
            | some (ty, use, lab, mat) => match u.createKey r.part ty use lab mat with
              | none => done u no r 0x0101 0x06 [] 0
              | some (i, x) => done x no r 0 0 (wordBytes (Word.nat (x.keyName i))) 0) ∧
          (∀ ty use lab mat i x, u.createKey r.part ty use lab mat = some (i, x) →
            polLive (x.slot i).pol = true ∧ (x.slot i).mat = mat ∧ polOwner (x.slot i).pol = r.part % 64))) ∧
      (oldest 0x49 no r → ∀ e, let kek := qwAt r.ps 0
        let key := qwAt r.ps 2
        (∀ u, s.nameOk r.part kek (· == 2) 0x10 e = (false, u) → exec (.keyExportWrapped f q e) s = done u no r 0x0101 0x04 [] 0) ∧
        (∀ u x, s.nameOk r.part kek (· == 2) 0x10 e = (true, u) → u.nameOk r.part key (fun _ => true) 0x80 = (false, x) →
          exec (.keyExportWrapped f q e) s = done x no r 0x0101 0x04 [] 0) ∧
        (∀ u x, s.nameOk r.part kek (· == 2) 0x10 e = (true, u) → u.nameOk r.part key (fun _ => true) 0x80 = (true, x) →
          exec (.keyExportWrapped f q e) s = done x no r 0 0 (wordBytes (marker 1 48) ++ fitBytes 54
            (wrapKey (matBytes (x.slot (kek % 2 ^ 18)).mat) (x.slot (key % 2 ^ 18)).pol (x.slot (key % 2 ^ 18)).mat)) 0)) ∧
      (oldest 0x4A no r → let key := qwAt r.ps 0
        (∀ u, s.nameOk r.part key (fun _ => true) 0 = (false, u) → exec (.keyDestroy f q) s = done u no r 0x0101 0x04 [] 0) ∧
        (∀ u, s.nameOk r.part key (fun _ => true) 0 = (true, u) → exec (.keyDestroy f q) s =
          done (u.destroySlot (key % 2 ^ 18)) no r 0 0 [] 0 ∧ polLive ((u.destroySlot (key % 2 ^ 18)).slot (key % 2 ^ 18)).pol = false))) ∧
    (∀ c (v : BitVec 32), c < s.build.cores → let m := c / 4
      let t := fld v 15 0
      let side := fun p => s.sideOfCore c p
      (∃ r, s.target (.core c) (RegAt.key ⟨.cluRqdone, m, 0⟩) = .reg r) →
      ((s.core c).part = none → exec (.rqdone (.core c) m v) s = .next (s.rqErr m 2 0 t)) ∧
      (∀ p, (s.core c).part = some p →
        (s.reqList.find? (fun e => e.2.acceptable p (side p) t) = none → exec (.rqdone (.core c) m v) s = .next (s.rqErr m 1 p t)) ∧
        (∀ no r off y w u x, s.reqList.find? (fun e => e.2.acceptable p (side p) t) = some (no, r) → r.recOff = some off →
          (s.part p).runs = true → (s.part p).lostSide (side p) = false →
          w = (s.setReq no (some { r with accepted := r.accepted ||| BitVec.ofNat 2 (2 ^ side p) })).putRecState no false →
          w.reply r (side p) off = (some y, u) → u.stageOut { r with out := y.out } (side p) = (true, x) →
          exec (.rqdone (.core c) m v) s =
            .next ((x.modReq no fun q => q.setStg (side p) (some (x.clock + (y.out.length + 7) / 8, y))).stageDue)))) ∧
    (∀ p, p < s.build.parts → Tab.wf (fun _ => none) s.reqs = true → ∃ t, exec (.pairWaitmaxExpiry p) s = .next t ∧
      let expires := fun (r : Req) => r.part = p ∧ (s.part p).paired = true ∧ (s.part p).degraded = false ∧ r.fin = false ∧
        r.loneExpired s.waitMax s.frame = true
      t.mem = s.mem ∧ t.slots = s.slots ∧
      (∀ no r, s.req no = some r →
        (expires r → t.req no = some (r.mismatched s.frame) ∧ t.alm.level.getLsbD 11 = true ∧ (t.rd .frmPairStat).getLsbD 31 = true) ∧
        (¬ expires r → t.req no = some r)) ∧
      ((∀ no r, s.req no = some r → ¬ expires r) → t = s)) ∧
    (s.ticking = false ∨ s.frame % s.reseedEvery ≠ 0 ∨ s.reseeded = s.frame + 1 → exec .drbgReseed s = .next s) ∧
    (s.ticking = true → s.frame % s.reseedEvery = 0 → s.reseeded ≠ s.frame + 1 →
      (s.trngOk = false → exec .drbgReseed s = .next (({ s with reseeded := s.frame + 1 } : State).incf .kstTrng 0 0 7 0)) ∧
      (s.trngOk = true → exec .drbgReseed s =
        .next (({ s with reseeded := s.frame + 1 } : State).partIds.foldl State.reseedPart { s with reseeded := s.frame + 1 }))) ∧
    (∃ t, exec .trngHealthFailure s = .next t ∧ t.trngOk = false ∧ (t.rd .kstErr).getLsbD 31 = true ∧
      t.rdf .kstTrng 0 0 15 8 = min 255 (s.rdf .kstTrng 0 0 15 8 + 1) ∧ t.mem = s.mem) ∧
    exec .trngStartupPass s = .next (let u : State := { s with trngOk := true }
      if s.drbgD.live = false ∧ 4 ≤ s.pwr.stage then u.startDeviceDrbg else u)

/-- (R329, R337, R338, R339, R340, R341, R344, R384, R392, R393, R406, R407) While the Shed is up, waits for nothing and no
zeroization runs, the row of the opcode of the oldest command executes it and ends it with its status; a row of another
opcode, or an empty queue, changes nothing; an alarm in force ends every command outside R339 with 0x0400. The end
removes the command and puts its completion, stamped with the frame, among those waiting to be posted. The statement
gives the effects and statuses of IDENTIFY, GET_LOG, SET_FEATURE, GET_FEATURE, FW_STAGE, FW_COMMIT, PART_CONFIG,
PLAN_WRITE, MON_READ, MON_CLEAR, SET_POLICY, LIFT_FREEZE and ALARM_CLEAR. ADMIN_COMPLETION_POST posts nothing before the
next tick, and then in order. -/
def Obligations.AdminCommandsThatAnswerAtOnce : Prop :=
  ∀ (s : State) (a : Adm) (rest : List Adm), s.adm = a :: rest → s.shedUp = true → s.admWait = .none → s.alm.zbusy = false →
    let fin := fun (t : State) (st : BitVec 16) (det : BitVec 8) (out : List (BitVec 8)) (res : B64) =>
      (Host.Outcome.next (t.admFinish st det out res) : Out)
    let p := (a.target % 64)
    let q := s.part p
    let n := a.target % 4
    let at_ := fun (op : Nat) (i : Instr) (o : Out) => a.op = op → exec i s = o
    (∀ st det out res, s.admFinish st det out res = { s with
      adm := rest, admWait := .none,
      admDone := s.admDone ++ [{ cmd := a, status := st, detail := det, out := out, result := res, fin := s.frame }] }) ∧
    (∀ op i, (op = 0x01 ∧ i = Instr.identify) ∨ (op = 0x02 ∧ i = .getLog) ∨ (op = 0x03 ∧ i = .setFeature) ∨ (op = 0x08 ∧ i = .fwStage true) ∨
        (op = 0x09 ∧ i = .fwCommit) ∨ (op = 0x14 ∧ i = .partConfig) ∨ (op = 0x18 ∧ i = .planWrite) ∨ (op = 0x30 ∧ i = .setPolicy) →
      (a.op ≠ op → exec i s = .next s) ∧
      (a.op = op → s.alm.inforce = true → op ∉ [0x01, 0x02, 0x30] → exec i s = fin s 0x0400 0 [] 0)) ∧
    at_ 0x01 .identify (fin s 0 0 (s.identify a) 0) ∧ (s.identify a).length = 4096 ∧
    at_ 0x02 .getLog (fin s 0 0 (s.getLog (a.p 0) (a.p 1) (a.p 2)) 0) ∧
    at_ 0x04 .getFeature (fin s 0 0 [] (BitVec.ofNat 64 (s.feature (a.p 0)))) ∧
    (s.alm.inforce = false → 
      (a.op = 0x03 → (a.p 0 = 1 → exec .setFeature s = if s.cellIds.all s.cellIdle = true then fin (s.wrf .frmPeriod 0 0 1 0 (a.p 1)) 0 0 [] 0
          else fin s 0x0103 0 [] 0) ∧
        (a.p 0 = 2 → exec .setFeature s = if s.pairRuns = true then fin s 0x0103 0 [] 0 else fin (s.wrf .frmPairCfg 0 0 7 0 (a.p 1)) 0 0 [] 0) ∧
        (a.p 0 = 3 → exec .setFeature s = if s.pairRuns = true then fin s 0x0103 0 [] 0 else fin (s.wrf .kstReseed 0 0 15 0 (a.p 1)) 0 0 [] 0) ∧
        (a.p 0 = 4 → ∃ t, exec .setFeature s = fin t 0 0 [] 0 ∧ t.mem = s.mem ∧
          ∀ m < s.build.cells, t.rdf .homeHoectl (4 * m) 0 31 16 = a.p 1 % 2 ^ 16)) ∧
      (a.op = 0x08 → ∀ ok, let n := a.inp.length
        (s.shd.stageBad (a.p 0) (a.p 1) n = true → exec (.fwStage ok) s = fin s 0x0101 0x03 [] 0) ∧
        (s.shd.stageBad (a.p 0) (a.p 1) n = false → a.p 0 ≠ 0 → exec (.fwStage ok) s =
          if ok = true then fin (s.modShd fun d => { d.program (slotBase d.spareSlot + a.p 0) a.inp with
            pages := (List.range ((n + 4095) / 4096)).map (fun i => a.p 0 / 4096 + i) ++ d.pages }) 0 0 [] 0
          else fin s 0x0101 0x20 [] 0) ∧
        (s.shd.stageBad (a.p 0) (a.p 1) n = false → a.p 0 = 0 → ∃ t, exec (.fwStage ok) s = .next t ∧ t.adm = rest ∧
          t.shd.stageLen = some (a.p 1) ∧ t.shd.pages = (if ok = true then List.range ((n + 4095) / 4096) else []) ∧ t.mem = s.mem)) ∧
      (a.op = 0x09 → (s.shd.stageLen = none → exec .fwCommit s = fin s 0x0101 0x03 [] 0) ∧
        (∀ len, s.shd.stageLen = some len → (∀ i < (len + 4095) / 4096, i ∈ s.shd.pages) → let t := s.shd.spareSlot
          let st := s.bundleStatus t (some len)
          (a.p 0 = 0 → exec .fwCommit s = fin s st 0 [] 0) ∧
          (a.p 0 ≠ 0 → ∃ u : State, exec .fwCommit s = (if st = 0 then .next u else fin s st 0 [] 0) ∧ u.adm = rest ∧
            u.shd.ctl.pendFlag = true ∧ u.shd.ctl.pend = t ∧ u.shd.ctl.trial = 0))) ∧
      (a.op = 0x14 → (q.st = 0 → exec .partConfig s = fin s 0x0101 0 [] 0) ∧
        (q.st ≠ 0 → q.runs = true → exec .partConfig s = fin s 0x0103 0 [] 0) ∧
        (q.st ≠ 0 → q.runs = false → (∃ g < 6, (dwAt a.ps 0).getLsbD g = true ∧ groupOk a q false g = false) →
          exec .partConfig s = fin s 0x0101 0x03 [] 0) ∧
        (q.st ≠ 0 → q.runs = false → (∀ g < 6, (dwAt a.ps 0).getLsbD g = true → groupOk a q false g = true) →
          ∃ t, exec .partConfig s = fin t 0 0 [] 0 ∧ (t.part p).st = q.st ∧ t.mem = s.mem ∧
            (t.part p).ctx0 = (if (dwAt a.ps 0).getLsbD 1 = true then a.fieldLE 16 8 else q.ctx0) ∧
            (t.part p).arenaVa = (if (dwAt a.ps 0).getLsbD 2 = true then a.fieldLE 32 8 else q.arenaVa) ∧
            (t.part p).imgKey = (if (dwAt a.ps 0).getLsbD 4 = true then BitVec.ofNat 256 (a.fieldLE 64 32) else q.imgKey)) ∧
        (q.st ≠ 0 → q.runs = false → (dwAt a.ps 0).toNat = 32 → exec .partConfig s =
          fin (s.modPart p fun q => { q with minVer := a.fieldLE 96 4 }) 0 0 [] 0)) ∧
      (a.op = 0x18 → n < s.build.cells → (s.cellIdle n = false → exec .planWrite s = fin s 0x0103 0 [] 0) ∧
        (s.cellIdle n = true → let k := s.build.coresPerCell
          a.inp.length = a.p 1 * (k + 4) → a.p 0 + a.p 1 ≤ 256 → Tab.wf (fun _ => 0xF1) s.rot = true → ∃ t, exec .planWrite s = fin t 0 0 [] 0 ∧
            t.rowsOf n = a.p 2 % 512 ∧
            (∀ j i, j < a.p 1 → i < k → t.rotEntry (a.p 0 + j) (n * k + i) = a.inp.getD (j * (k + 4) + i) 0) ∧
            (∀ row c, (row < a.p 0 ∨ a.p 0 + a.p 1 ≤ row) → c < 64 → t.rotEntry row c = s.rotEntry row c) ∧ t.mem = s.mem)) ∧
      (a.op = 0x21 → ∃ t, exec .monClear s = .next t ∧ t.adm = rest ∧
        (∀ m < 32, (dwAt a.ps 0).getLsbD m = true → m ∈ t.monClr) ∧ (∀ m < 16, (dwAt a.ps 1).getLsbD m = true → 32 + m ∈ t.monClr))) ∧
    (a.op = 0x20 → exec .monRead s = fin ((List.range (a.p 1)).foldl (fun u i => u.takeSnap 1 (a.p 0 + i)) s) 0 0
      ((List.range (a.p 1)).flatMap fun i => s.monBytes (a.p 0 + i) (s.monitor (a.p 0 + i))) 0) ∧
    (a.op = 0x30 →
      (a.kind = 1 → a.inp.length = 12 → let v := BitVec.ofNat 32 (a.fieldLE 4 4)
        (policyBad v = true → exec .setPolicy s = fin s 0x0101 0x03 [] 0) ∧
        (policyBad v = false → a.fieldLE 8 4 = 0 → exec .setPolicy s = fin (s.newPolicy v) 0 0 [] 0 ∧
          (s.newPolicy v).rd .almPolicy = v ∧ (s.newPolicy v).alm.window = false) ∧
        (policyBad v = false → a.fieldLE 8 4 = 1 → s.sbk.busy = false → programRefused s.sbk.otp 3 = 0 → ∃ t, exec .setPolicy s = .next t ∧
          t.sbk.busy = true ∧ t.sbk.op = 1 ∧ t.sbk.group = 3 ∧ t.admWait = .sbk 3 ∧ t.adm = s.adm)) ∧
      (a.kind = 0 ∨ 6 ≤ a.kind → exec .setPolicy s = fin s 0x0101 0x03 [] 0) ∧
      (a.kind = 2 → a.inp.length = 4 →
        ((s.frozen = true ∨ s.alm.freezePend = true) ∧ s.alm.inforce = false → exec .liftFreeze s = fin s.lift 0 0 [] 0 ∧
          s.lift.alm.liftPend = true ∧ s.lift.alm.freezePend = false) ∧
        (¬ ((s.frozen = true ∨ s.alm.freezePend = true) ∧ s.alm.inforce = false) → exec .liftFreeze s = fin s 0x0101 0x03 [] 0)) ∧
      (a.kind = 3 → a.inp.length = 4 →
        (s.clearRefused = true → exec .alarmClear s = fin s 0x0101 0x03 [] 0) ∧
        (s.clearRefused = false → exec .alarmClear s = fin s.alarmClear 0 0 [] 0 ∧ s.alarmClear.alm.inforce = false ∧
          s.alarmClear.alm.out = false))) ∧
    ((∀ d ∈ s.admDone, s.frame ≤ d.fin) → exec .adminCompletionPost s = .next s) ∧
    (∀ d, s.admDone = [d] → d.fin < s.frame → s.qEn 0 d.cmd.q = true → (s.qst 0 d.cmd.q).err = false → d.cmd.discard = false →
      (s.qst 0 d.cmd.q).used < s.cqsz 0 d.cmd.q + 1 → s.canDma 0 = true → ∃ t, exec .adminCompletionPost s = .next t ∧
        t.admDone = [] ∧ (t.qst 0 d.cmd.q).used = (s.qst 0 d.cmd.q).used + 1 ∧ t.mem = s.mem)

/-- (R34, R35, R36, R45, R340, R342, R344, R345, R346, R402, R409, R410) For the oldest command, with no alarm in force:
PART_CREATE of an ABSENT partition with a good block, and the TRNG healthy, makes it CREATED and asks the wardens;
PART_DESTROY needs a partition that does not run; PART_STOP makes a RUNNING one STOPPING and waits; PART_START needs an
unlocked part, a READY or FAULTED partition and its cells and asks the wardens; IMAGE_LOAD checks form, key, signature
and version in order; PART_REPAIR waits for the copy; CELL_STOP and CELL_START move the cell and wait; a bad token,
group or lock count ends with DETAIL 3 and a good one begins its Seedbank operation or source 10; SLEEP and ZEROIZE
begin the zeroization and wait. PART_STOP_COMPLETE makes a partition with nothing left READY; REPAIR_COPY_COMPLETE marks
the pair repaired. -/
def Obligations.AdminCommandsThatWait : Prop :=
  ∀ (s : State) (a : Adm) (rest : List Adm), s.adm = a :: rest → s.shedUp = true → s.admWait = .none → s.alm.zbusy = false →
    let fin := fun (t : State) (st : BitVec 16) (det : BitVec 8) => (Host.Outcome.next (t.admFinish st det) : Out)
    let p := a.target % 64
    let q := s.part p
    let n := a.target % 4
    let c := s.cell n
    (s.alm.inforce = false →
      (a.op = 0x10 → (q.st ≠ 0 → exec .partCreate s = fin s 0x0101 0) ∧
        (q.st = 0 → blockOk s.build a = false → exec .partCreate s = fin s 0x0101 0x03) ∧
        (let q' : Part := { st := 1, paired := a.fieldLE 0 1 == 1, cell0 := a.fieldLE 1 1, cell1 := a.fieldLE 2 1 }
         q.st = 0 → blockOk s.build a = true → (∀ g < 6, groupOk a q' true g = true) →
          (s.trngOk = false → exec .partCreate s = fin s 0x0101 0x09) ∧
          (s.trngOk = true → ∃ u : State, exec .partCreate s = .next (u.askWardens q'.askCells 0x90 1 [BitVec.ofNat 32 p] (blockWords a.inp)) ∧
            (u.part p).st = 1 ∧ (u.part p).paired = q'.paired ∧ (u.part p).cell0 = q'.cell0 ∧ (u.part p).arenaVa = a.fieldLE 32 8 ∧
            (u.part p).drbg0.live = true))) ∧
      (a.op = 0x11 → (q.st = 0 → exec .partDestroy s = fin s 0x0101 0) ∧ (q.st ≠ 0 → q.runs = true → exec .partDestroy s = fin s 0x0103 0) ∧
        (q.st ≠ 0 → q.runs = false → q.paired = false → (s.cell q.cell0).st = 4 → ∃ t, exec .partDestroy s = .next t ∧ (t.part p).st = 0 ∧
          t.adm = rest) ∧
        (q.st ≠ 0 → q.runs = false → (∃ x ∈ q.sides, (s.cell (q.cellOf x)).st ≠ 4 ∧ (s.cell (q.cellOf x)).restarted = false ∧
            (s.cell (q.cellOf x)).restarting = false) → ∃ (t : State) (cells : List Nat) (m : Nat), exec .partDestroy s = .next t ∧
          t.adm = a :: rest ∧ t.admWait = .ack cells m ∧ cells ≠ [] ∧ (t.part p).drbg0 = {} ∧ t.rd .kstPcnt 0 p = 0)) ∧
      (a.op = 0x12 → (q.st = 0 → exec .partStop s = fin s 0x0101 0) ∧
        (q.st = 3 → exec .partStop s = .next { s.modPart p fun q => { q with st := 4, stopPend := true } with admWait := .partStop }) ∧
        (q.st = 4 → exec .partStop s = .next { s with admWait := .partStop }) ∧
        (q.st ≠ 0 → q.st ≠ 3 → q.st ≠ 4 → exec .partStop s = fin s 0 0)) ∧
      (a.op = 0x13 → (s.locked = true → exec .partStart s = fin s 0x0400 0) ∧
        (s.locked = false → (q.st ≠ 2 ∧ q.st ≠ 5) ∨ s.startBad p = true → exec .partStart s = fin s 0x0101 0) ∧
        (s.locked = false → q.st = 2 ∨ q.st = 5 → s.startBad p = false → exec .partStart s =
          .next (s.askWardens q.askCells 0x92 1 [BitVec.ofNat 32 p] []))) ∧
      (a.op = 0x15 → (q.st = 0 → exec .imageLoad s = fin s 0x0101 0) ∧ (q.st ≠ 0 → q.runs = true → exec .imageLoad s = fin s 0x0103 0) ∧
        (q.st ≠ 0 → q.runs = false → (a.imageOk = false → exec .imageLoad s = fin s 0x0101 0x03) ∧
          (a.imageOk = true → let ws := bodyWords a.body
            (∀ n ∈ q.askCells, (s.cell n).hello = true → ws.length ≤ (s.cell n).stageLen) → exec .imageLoad s =
              if ¬ (sha3_256 a.imageKey = bytesLE 32 q.imgKey.toNat ∧ a.imageSigned = true) then fin s 0x0200 0
              else if a.fieldLE 8 4 < q.minVer then fin s 0x0201 0
              else .next (s.askWardens q.askCells 0x91 2 [BitVec.ofNat 32 p, BitVec.ofNat 32 ws.length] ws)))) ∧
      (a.op = 0x16 → (q.runs = true ∨ (∃ x ∈ q.sides, (q.rk x).phase ≠ 0) → exec .partRepair s = fin s 0x0103 0) ∧
        (let src := q.cellOf (if q.lost = 1 then 1 else 0)
         let t := a.p 0
         (∀ x ∈ q.sides, (q.rk x).phase = 0) → q.st = 2 → q.paired = true → q.lost ≠ 0 → t ≠ src → t = q.cell0 ∨ t = q.cell1 → (s.cell t).st = 2 →
          s.pairRotation p src t = true → exec .partRepair s =
            .next { s.modPart p fun q => { q with repair := some t } with admWait := .repair })) ∧
      (a.op = 0x19 → n < s.build.cells → let homed := ∃ p < s.build.parts, (s.part p).runs = true ∧ (s.part p).homedIn n = true
        (c.st ≠ 4 → homed → exec .cellStop s = fin s 0x0103 0) ∧
        (¬ homed → (c.st = 0 → exec .cellStop s = fin s 0 0) ∧ (c.st = 3 → exec .cellStop s = .next { s with admWait := .cellStop n }) ∧
          (c.st = 1 ∨ c.st = 2 → ∃ t, exec .cellStop s = .next t ∧
            (t.cell n).st = 3 ∧ (t.cell n).stopPend = true ∧ t.admWait = .cellStop n ∧ t.mem = s.mem)) ∧
        (c.st = 4 → ∃ t, exec .cellStop s = .next t ∧ (t.cell n).restarting = true ∧ t.admWait = .cellStop n)) ∧
      (a.op = 0x1A → n < s.build.cells → (c.st ≠ 0 → exec .cellStart s = fin s 0x0103 0) ∧
        (c.st = 0 → (∀ d, s.cellStartRefused n = some d → exec .cellStart s = fin s 0x0101 d) ∧
          (s.cellStartRefused n = none → ∃ t, exec .cellStart s = .next t ∧ (t.cell n).st = 1 ∧ (t.cell n).startPend = true ∧
            t.admWait = .cellStart n)))) ∧
    (a.op = 0x30 →
      (a.kind = 4 → a.tokenKind = 1 → a.inp.length = 4759 →
        (s.tokenOk a = false ∨ a.tokenArg ≠ otpLocks s.sbk.otp → exec .tokenReprovision s = fin s 0x0101 0x03) ∧
        (a.tokenArg = otpLocks s.sbk.otp → otpProv s.sbk.otp + 1 = otpLocks s.sbk.otp → otpLocks s.sbk.otp ≤ 31 →
          s.sbk.busy = false → ∃ t : State, exec .tokenReprovision s = (if s.tokenOk a = true then .next t else fin s 0x0101 0x03) ∧
            t.sbk.busy = true ∧ t.sbk.op = 3 ∧ t.admWait = .sbk 4)) ∧
      (a.kind = 4 → a.tokenKind ≠ 1 → a.inp.length = 4759 →
        (a.tokenKind ≠ 2 ∨ s.tokenOk a = false ∨ otpDlevel s.sbk.otp ≠ 1 → exec .tokenDebugUnlock s = fin s 0x0101 0x03) ∧
        (a.tokenKind = 2 → a.tokenArg = s.alm.nonce.toNat → otpDlevel s.sbk.otp = 1 →
          (groupDw s.sbk.otp 2 0).getLsbD (4 + a.tokenSet) = true →
          (s.alm.dbg = true → exec .tokenDebugUnlock s = fin s (if s.tokenOk a = true then 0 else 0x0101) (if s.tokenOk a = true then 0 else 3)) ∧
          (s.alm.dbg = false → ∃ t : State, exec .tokenDebugUnlock s = (if s.tokenOk a = true then .next t else fin s 0x0101 0x03) ∧
            t.alm.level.getLsbD 10 = true ∧ t.admWait = .dbg))) ∧
      (a.kind = 5 → a.inp.length = 68 → let g := a.fieldLE 4 4
        (s.alm.dbg = false ∨ (g ≠ 2 ∧ g ≠ 5) ∨ programRefused s.sbk.otp g ≠ 0 → exec .programGroup s = fin s 0x0101 0x03) ∧
        (s.alm.dbg = true → g = 2 ∨ g = 5 → programRefused s.sbk.otp g = 0 → s.sbk.busy = false → ∃ t, exec .programGroup s = .next t ∧
          t.sbk.busy = true ∧ t.sbk.op = 1 ∧ t.sbk.group = g ∧ t.admWait = .sbk 5))) ∧
    (∀ op i w, (op = 0x3E ∧ i = Instr.sleep ∧ w = 2) ∨ (op = 0x3F ∧ i = .zeroize ∧ w = 1) → a.op = op → ∃ t, exec i s = .next t ∧
      t.admWait = .zero ∧ t.alm.zbusy = true ∧ t.alm.zwhy = w ∧ t.mem = [] ∧ t.scratch = [] ∧ t.slots = [] ∧ t.adm = s.adm) ∧
    (∀ p, p < s.build.parts → (s.stopDone p = false → exec (.partStopComplete p) s = .next s) ∧
      (s.stopDone p = true → ∃ t, exec (.partStopComplete p) s = .next t ∧ (t.part p).st = 2 ∧ t.mem = s.mem) ∧
      ((s.part p).repair = none → exec (.repairCopyComplete p) s = .next s) ∧
      (∀ x, (s.part p).repair = some x → ∃ t, exec (.repairCopyComplete p) s = .next t ∧ (t.part p).repair = none ∧
        (t.part p).repaired = true))

/-- (R354, R355, R356, R357, R358, R359, R360, R361, R362, R363, R365) A running channel whose prescaler has expired goes to
0 at a non-zero TOP, else counts on; a match with the compare in force sets MATCH and toggles the pins it drives; a wrap
sets WRAP and loads the compare. Channel 0, a stopped channel and one whose prescaler runs do not. TMU_START starts each
stopped channel named at PHASE, and refuses one whose PHASE is beyond TOP. TMU_PIN_SAMPLE shows a pin its level; when a
sample is due the pin takes the level that three of its last four samples have, keeps it at two, notes the sixteenth 2-2
split in a row, and its edge reaches the channels that capture from it. CAPTURE_EDGE of an edge that has reached a
channel enters the capture registers, or waits while they are locked; CAPTURE_LOCK_READ locks, CAPTURE_UNLOCK_READ
unlocks. A read of a low half latches the high half, which the next high read of that pair returns. CMPLO_WRITE is
staged and CMPHI_WRITE moves both halves to the preload, for an owner; another writer is rejected with REASON 1. -/
def Obligations.TimerChannelsCountCompareAndCapture : Prop :=
  ∀ s : State,
    (∀ n, n < 24 → let k := s.chan n
      (n = 0 ∨ k.run = false ∨ k.pre < fld (s.tmuCtl n) 15 0 + 1 → exec (.tmuIncrement n) s = .next s) ∧
      (n ≠ 0 → k.run = true → fld (s.tmuCtl n) 15 0 + 1 ≤ k.pre →
        let v := if s.tmuTop n ≠ 0 ∧ k.cnt = s.tmuTop n then 0 else k.cnt + 1
        ∃ t, exec (.tmuIncrement n) s = .next t ∧
          t.chan n = { k with cnt := v, pre := 0, cmpa := if v = 0 then s.pair .tmuCmplo .tmuCmphi n else k.cmpa } ∧
          (∀ i, i ≠ n → t.chan i = s.chan i) ∧
          t.rd .tmuStat 0 n = s.rd .tmuStat 0 n ||| (if v = k.cmpa then 0x80000000 else 0) ||| (if v = 0 then 0x40000000 else 0) ∧
          (∀ i < 8, t.timerPin i = if v = k.cmpa ∧ (s.rd .tmuPin 0 i).getLsbD 29 = true ∧ fld (s.rd .tmuPin 0 i) 20 16 = n
            then { s.timerPin i with drive := !(s.timerPin i).drive } else s.timerPin i) ∧
          t.mem = s.mem)) ∧
    (∀ w v, (∃ r, s.target w (RegAt.key ⟨.tmuStart, 0, 0⟩) = .reg r) → ∃ t, exec (.tmuStart w v) s = .next t ∧ t.mem = s.mem ∧
      ∀ n < 24, n ≠ 0 → let k := s.chan n
        (v.getLsbD n = false ∨ k.run = true → t.chan n = k) ∧
        (v.getLsbD n = true → k.run = false →
          (s.tmuTop n ≠ 0 → s.tmuTop n < s.tmuPhase n → t.chan n = k ∧ t.rd .tmuStat 0 n = s.rd .tmuStat 0 n ||| 0x01000000) ∧
          (s.tmuTop n = 0 ∨ s.tmuPhase n ≤ s.tmuTop n → t.chan n =
            { k with run := true, cnt := s.tmuPhase n, cmpa := s.pair .tmuCmplo .tmuCmphi n, led := false, pre := 0 }))) ∧
    (∀ i x, i < 8 → let p := s.timerPin i
      let l := (s.pinLevel i x :: p.smp).take 4
      let ones := (l.filter id).length
      let lvl := if 3 ≤ ones then true else if ones ≤ 1 then false else p.lvl
      (p.due ≠ 0 → exec (.tmuPinSample i x) s = .next (s.setTimerPin i { p with ext := x })) ∧
      (p.due = 0 → ∃ t, exec (.tmuPinSample i x) s = .next t ∧
        t.timerPin i = { p with ext := x, smp := l, lvl := lvl, split := if ones = 2 then min (p.split + 1) 16 else 0, due := 2 ^ fld (s.rd .tmuPin 0 i) 3 0 } ∧
        t.rd .tmuPin 0 i = (if ones = 2 ∧ p.split = 15 then s.rd .tmuPin 0 i ||| 0x40000000 else s.rd .tmuPin 0 i) ∧
        (∀ n < 24, t.chan n = if lvl ≠ p.lvl ∧ (s.tmuCtl n).getLsbD 24 = true ∧ fld (s.tmuCtl n) 23 20 = i ∧ s.tmuRuns n = true
          then { s.chan n with edge := some (lvl != (s.tmuCtl n).getLsbD 26) } else s.chan n) ∧ t.mem = s.mem)) ∧
    (∀ n b, n < 24 → let k := s.chan n
      (k.edge ≠ some b → exec (.captureEdge n b) s = .next s) ∧
      (k.edge = some b → k.lock = false →
        (b = true → ∃ t, exec (.captureEdge n b) s = .next t ∧
          t.chan n = { k with edge := none, capr := s.captureCount n, caprv := true, capfv := false, led := true } ∧
          t.rd .tmuStat 0 n = (if k.caprv = true then s.rd .tmuStat 0 n ||| 0x08000000 else s.rd .tmuStat 0 n)) ∧
        (b = false → exec (.captureEdge n b) s = .next (s.setChan n (if k.led = true
          then { k with edge := none, capf := s.captureCount n, capfv := true, led := false } else { k with edge := none })))) ∧
      (k.edge = some b → k.lock = true → (∀ e ∈ k.pend, e.1 ≠ b) →
        exec (.captureEdge n b) s = .next (s.setChan n { k with edge := none, pend := k.pend ++ [(b, s.captureCount n)] })) ∧
      (k.edge = some b → k.lock = true → (∃ e ∈ k.pend, e.1 = b) →
        exec (.captureEdge n b) s = .next ((s.setChan n { k with edge := none }).tmuFlag n 0x08000000))) ∧
    (∀ w n, n < 24 → let k := s.chan n
      exec (.captureLockRead w n) s = .next { s.modChan n fun k => { k with lock := true } with rdata := k.capr.setWidth 32 } ∧
      (∃ t, exec (.captureUnlockRead w n) s = .next t ∧ t.rdata = (k.capf >>> 32).setWidth 32 ∧ (t.chan n).lock = false ∧
        (t.chan n).pend = [] ∧ (k.pend = [] → (t.chan n).caprv = false ∧ (t.chan n).capfv = false ∧ t.bar = s.bar) ∧
        (∀ x, k.pend = [(true, x)] → (t.chan n).capr = x ∧ (t.chan n).caprv = true ∧ (t.chan n).capfv = false)) ∧
      (∀ cmp, let val : B64 := if cmp = true then (if n = 0 then 0 else k.cmpa) else s.tmuCnt n
        let i := shadowIdx w
        let h := s.shadowOf i
        exec (.cntLoRead w n cmp) s = .next { s.setShadow i { h with valid := true, pair := n * 2 + b2n cmp, hi := (val >>> 32).setWidth 32 } with
          rdata := val.setWidth 32 } ∧
        (h.valid = true ∧ h.pair = n * 2 + b2n cmp → ∃ t, exec (.cntHiRead w n cmp) s = .next t ∧ t.rdata = h.hi ∧
          (t.shadowOf i).good = true ∧ t.bar = s.bar) ∧
        (¬ (h.valid = true ∧ h.pair = n * 2 + b2n cmp) → ∃ t, exec (.cntHiRead w n cmp) s = .next t ∧
          t.rdata = (val >>> 32).setWidth 32 ∧ (t.shadowOf i).good = false ∧ t.bar = s.bar))) ∧
    (∀ w n v, n < 24 →
      ((∃ r, s.target w (RegAt.key ⟨.tmuCmplo, 0, n⟩) = .reg r) →
        (s.ownOk w n = false → exec (.cmploWrite w n v) s = .next (s.reject w 1 (RegAt.key ⟨.tmuCmplo, 0, n⟩))) ∧
        (s.ownOk w n = true → exec (.cmploWrite w n v) s = .next (if n = 0 then s else s.modChan n fun k => { k with stageLo := v }))) ∧
      ((∃ r, s.target w (RegAt.key ⟨.tmuCmphi, 0, n⟩) = .reg r) →
        (s.ownOk w n = false → exec (.cmphiWrite w n v) s = .next (s.reject w 1 (RegAt.key ⟨.tmuCmphi, 0, n⟩))) ∧
        (s.ownOk w n = true → ∃ t, exec (.cmphiWrite w n v) s = .next t ∧ t.mem = s.mem ∧ (∀ i, t.chan i = s.chan i) ∧
          (n ≠ 0 → t.rd .tmuCmplo 0 n = (s.chan n).stageLo ∧ t.rd .tmuCmphi 0 n = v) ∧ (n = 0 → t = s))))

/-- (R369, R370, R371, R372, R373, R376, R377, R386, R387, R388, R443) An admitted INDB write with bit 0 sets INBUSY, and is
rejected with REASON 0 while it is set; OUTACK clears OUTVALID; the oldest queued message is placed in a free outbound
buffer and OUTVALID set, the host signalled on vector 16. ECHO, NOTE_LEVEL, HELLO, ACK, LOG and THR_CLEAR act on an
inbound message of their type, clear INBUSY and do what R372 says; without one nothing changes. A warden that answers
with a failure, or not in time, ends the waiting command with 0x0300. EVENT_LOG_TAKE makes the record of the lowest code
raised, and of a unit register clears VALID. GET_SENSORS, BMC_GET_LOG and GET_STATUS answer the BMC; an unsupported
count answers 0x05. MCTP_CONTROL keeps the endpoint identifier; UART_INPUT reaches the console only with debug unlocked.
A locked-up Shed serves nothing and asserts LOCKUP_N. -/
def Obligations.ShedMailboxesMessagesAndInterfaces : Prop :=
  ∀ s : State,
    (∀ w k (v : BitVec 32), k < s.mailboxes →
      ((∃ r, s.target w (RegAt.key ⟨.shdIndb, k, 0⟩) = .reg r) →
        (v.getLsbD 0 = false → exec (.mailboxSend w k v) s = .next s) ∧
        (v.getLsbD 0 = true → s.inBusy k = true → exec (.mailboxSend w k v) s = .next (s.reject w 0 (RegAt.key ⟨.shdIndb, k, 0⟩))) ∧
        (v.getLsbD 0 = true → s.inBusy k = false → ∃ t, exec (.mailboxSend w k v) s = .next t ∧ t.inBusy k = true ∧
          t.outValid k = s.outValid k ∧ t.shd = s.shd)) ∧
      ((∃ r, s.target w (RegAt.key ⟨.shdOutack, k, 0⟩) = .reg r) → v.getLsbD 0 = true → ∃ t, exec (.mailboxAck w k v) s = .next t ∧
        t.outValid k = false ∧ t.inBusy k = s.inBusy k ∧ t.shd = s.shd) ∧
      (s.shedUp = false ∨ s.outValid k = true ∨ s.shd.outq k = [] → exec (.mailboxOutPlace k) s = .next s) ∧
      (∀ m l, s.shedUp = true → s.outValid k = false → s.shd.outq k = m :: l → k < 4 → m.length = 16 →
        ∃ t, exec (.mailboxOutPlace k) s = .next t ∧ t.shd.outq k = l ∧ t.outValid k = true ∧
          (∀ i < 16, t.rd .shdOut k i = dwAt m i) ∧
          (k = 0 → s.msixMasked 0 16 = true → t.msixPending 0 16 = true ∧ t.msix = s.msix) ∧
          (k = 0 → s.msixMasked 0 16 = false →
            t.msix = (if s.pwr.link = true ∧ s.pwr.perst = false ∧ Tab.get (fun _ => true) s.pwr.bme 0 = true then (0, 16) :: s.msix else s.msix)) ∧
          (k ≠ 0 → t.msix = s.msix ∧ (0x90 ≤ fld (dwAt m 0) 7 0 → fld (dwAt m 0) 7 0 ≤ 0x94 → (t.cell (k - 1)).askFrm = some s.frame)))) ∧
    (s.inType 0 ≠ some 0x01 → exec .echo s = .next s) ∧ (s.inType 0 ≠ some 0x02 → exec .noteLevel s = .next s) ∧
    (s.inType 0 = some 0x01 → ∃ t m, exec .echo s = .next t ∧ t.inBusy 0 = false ∧ t.shd.outq 0 = s.shd.outq 0 ++ [m] ∧
      dwAt m 0 = putFld (s.inDw 0 0) 7 0 0x81 ∧ ∀ i < 16, i ≠ 0 → dwAt m i = s.inDw 0 i) ∧
    (s.inType 0 = some 0x02 → ∃ t, exec .noteLevel s = .next t ∧ t.inBusy 0 = false ∧ t.shd = { s.shd with note := fld (s.inDw 0 1) 3 0 }) ∧
    (∀ n, n < s.build.cells → let k := n + 1
      (s.inType k ≠ some 0x10 → exec (.hello n) s = .next s) ∧ (s.inType k ≠ some 0x11 → exec (.wardenAck n) s = .next s) ∧
      (s.inType k ≠ some 0x12 → exec (.wardenLog n) s = .next s) ∧ (s.inType k ≠ some 0x13 → exec (.thrClear n) s = .next s) ∧
      (s.inType k = some 0x10 → (s.cell n).held = none → ∃ t, exec (.hello n) s = .next t ∧ t.inBusy k = false ∧ (t.cell n).hello = true ∧
        (t.cell n).stageLen = (s.inDw k 3).toNat ∧ (t.cell n).stagePa = ((s.inDw k 1).toNat + (s.inDw k 2).toNat * 2 ^ 32) % 2 ^ 39 ∧
        ((s.cell n).helloWait = true → (t.cell n).resolved = true) ∧ t.mem = s.mem) ∧
      (∀ m, s.inType k = some 0x10 → (s.cell n).held = some (m, []) → ∃ t, exec (.hello n) s = .next t ∧ (t.cell n).held = none ∧
        (t.cell n).hello = true ∧ t.inBusy k = false ∧ t.shd.outq k = s.shd.outq k ++ [m] ∧ t.mem = s.mem) ∧
      (∀ cells q a rest, s.inType k = some 0x11 → s.admWait = .ack cells q → s.adm = a :: rest → fld (s.inDw k 0) 15 8 = q → n ∈ cells →
        (fld (s.inDw k 0) 31 24 ≠ 0 → ∃ t, exec (.wardenAck n) s = .next t ∧ t.adm = rest ∧ t.admWait = .none ∧
          (∃ d, t.admDone = s.admDone ++ [d] ∧ d.cmd = a ∧ d.status = 0x0300)) ∧
        (fld (s.inDw k 0) 31 24 = 0 → (∃ m ∈ cells, m ≠ n) → ∃ t, exec (.wardenAck n) s = .next t ∧ t.adm = s.adm ∧
          t.admWait = .ack (cells.filter (· != n)) q ∧ t.inBusy k = false) ∧
        (fld (s.inDw k 0) 31 24 = 0 → (∀ m ∈ cells, m = n) → a.op = 0x13 → ∃ t, exec (.wardenAck n) s = .next t ∧ t.adm = s.adm ∧
          t.admWait = .startTick ∧ (t.part (a.target % 64)).startPend = true) ∧
        (fld (s.inDw k 0) 31 24 = 0 → (∀ m ∈ cells, m = n) → a.op = 0x15 → ∃ t, exec (.wardenAck n) s = .next t ∧ t.adm = rest ∧
          (t.part (a.target % 64)).st = 2 ∧ (t.part (a.target % 64)).imgVer = a.fieldLE 8 4) ∧
        (fld (s.inDw k 0) 31 24 = 0 → (∀ m ∈ cells, m = n) → a.op = 0x11 → ∃ t, exec (.wardenAck n) s = .next t ∧ t.adm = rest ∧
          t.part (a.target % 64) = {}) ∧
        (fld (s.inDw k 0) 31 24 = 0 → (∀ m ∈ cells, m = n) → a.op = 0x10 → ∃ t, exec (.wardenAck n) s = .next t ∧ t.adm = rest ∧
          (∃ d, t.admDone = s.admDone ++ [d] ∧ d.cmd = a ∧ d.status = 0))) ∧
      (s.ackLate n = false → exec (.wardenTimeout n) s = .next s) ∧
      (∀ f, (s.cell n).askFrm = some f → (s.ackLate n = true ↔ f + 1024 * max 1 (s.rdf .shdWdto 0 0 15 0) ≤ s.frame)) ∧
      (∀ cells q a rest, s.admWait = .ack cells q → s.adm = a :: rest → s.shedUp = true → n ∈ cells → s.ackLate n = true → ∃ t, exec (.wardenTimeout n) s = .next t ∧
        t.adm = rest ∧ (∃ d, t.admDone = s.admDone ++ [d] ∧ d.status = 0x0300) ∧ t.shd.logSeq = nextSeq24 s.shd.logSeq) ∧
      (s.inType k = some 0x12 → (fld (s.inDw k 1) 7 0 / 16 = 0xA → exec (.wardenLog n) s =
          .next ((s.inDone k).logEvent (fld (s.inDw k 1) 7 0) (fld (s.inDw k 1) 11 8) (fld (s.inDw k 1) 23 16) (s.inDw k 2))) ∧
        (fld (s.inDw k 1) 7 0 / 16 ≠ 0xA → exec (.wardenLog n) s = .next (s.inDone k))) ∧
      (s.inType k = some 0x13 → ∃ t, exec (.thrClear n) s = .next t ∧ t.inBusy k = false ∧ t.rd .monThf0 = s.rd .monThf0 &&& ~~~s.inDw k 1 ∧
        t.rd .monThf1 = s.rd .monThf1 &&& ~~~s.inDw k 2)) ∧
    (s.shedUp = false → exec .eventLogTake s = .next s) ∧
    (∀ c i a, s.shedUp = true → s.unitRecords = [] → s.shd.raised = [(c, i, a)] → unitReg c i = none → ∃ t, exec .eventLogTake s = .next t ∧
      t.shd.raised = [] ∧ t.shd.logSeq = nextSeq24 s.shd.logSeq ∧
      t.logRec t.shd.logSeq = eventRec t.shd.logSeq s.frame c (codeSev c a) i a ∧ t.mem = s.mem) ∧
    (∀ c i a r u, s.shedUp = true → s.unitRecords = [] → s.shd.raised = [(c, i, a)] → unitReg c i = some (r, u) → exec .eventLogTake s =
      .next (((s.modShd fun d => { d with raised := [] }).wr r u 0 (s.rd r u &&& 0x7FFFFFFF)).logCode c i
        (if (a ^^^ s.rd r u) &&& 0x9FFFFFFF = 0 then s.rd r u else a))) ∧
    (∀ c i r l, s.shedUp = true → s.shd.raised = [] → s.unitRecords = (c, i, r) :: l →
      exec .eventLogTake s = .next ((s.wr r 0 0 (s.rd r &&& 0x7FFFFFFF)).logCode c i (s.rd r))) ∧
    (s.shedUp = true →
      exec .getSensors s = .next (s.modShd fun d => { d with bmcOut := dwBytes ((List.range 24).map (fun i => s.rd .shdTemp 0 i) ++
        (List.range 16).map (fun i => s.rd .shdVmon 0 i) ++ (List.range 4).map (fun i => s.rd .shdClkmon 0 i)) }) ∧
      exec .getStatus s = .next (s.modShd fun d => { d with bmcOut := dwBytes ([s.hciStatus, s.frmStatus] ++ s.cellIds.map s.cellStateReg ++
        [s.almStat, BitVec.ofNat 32 s.shd.logSeq]) }) ∧
      (∀ f n, 1 ≤ n → n ≤ 32 → exec (.bmcGetLog f n) s = .next (s.modShd fun d => { d with bmcOut := logRecs s f.toNat n, ibi := false })) ∧
      (∀ f n, n = 0 ∨ 32 < n → exec (.bmcGetLog f n) s = .next (s.modShd fun d => { d with bmcOut := [0x05] })) ∧
      (∀ a, ∃ t, exec (.mctpControl 1 a) s = .next t ∧ t.shd.eid = a ∧ ∃ u, exec (.mctpControl 2 0) t = .next u ∧ u.shd.bmcOut = [0, a, 0, 0]) ∧
      (∀ a, exec (.mctpControl 4 a) s = .next (s.modShd fun d => { d with bmcOut := [0, 1, 0xF1, 0xF3, 0xF1, 0x00] }) ∧
        exec (.mctpControl 5 a) s = .next (s.modShd fun d => { d with bmcOut := [0, 1, 0x7E] })) ∧
      (∀ b, exec (.uartInput b) s = .next (if s.alm.dbg = true then s.modShd fun d => { d with uartIn := d.uartIn ++ [b] } else s))) ∧
    (∃ t, exec .shedLockup s = .next t ∧ t.shedUp = false ∧ t.pwr.lockupN = true ∧ t.mem = s.mem ∧ t.bar = s.bar)

/-- (R374, R379, R380, R381, R382, R383, R384, R387, R396) A conversion stores each reading with VALID, and a reading beyond
its limit logs code 0x80 once until it has come back. MONITOR_SAMPLE gives a live monitor a sample of a timed source,
which updates minimum, maximum and one bin of its staging; of another it is nothing. A snapshot write with START takes
the monitor into the bank of its writer; clears are noted for the next tick; a configuration write stores the writable
bits and clears the monitor, and is rejected with REASON 0 for a reserved source. GET_MON answers from the bank of the
Shed, 0x05 beyond monitor 47. LOG_FLASH_PROGRAM programs the waiting records; a failure marks the block bad and goes on
with the next, and below eight good blocks persistence ends with code 0x04. -/
def Obligations.ShedSensorsMonitorsAndFlash : Prop :=
  ∀ s : State,
    (s.shedUp = false → (∀ a b c, exec (.sensorConversion a b c) s = .next s) ∧ (∀ ok, exec (.logFlashProgram ok) s = .next s) ∧
      ∀ m, exec (.getMon m) s = .next s) ∧
    (s.shedUp = true → ∀ temps volts clks, ∃ t, exec (.sensorConversion temps volts clks) s = .next t ∧ t.mem = s.mem ∧
      (∀ i < 24, hasTemp s.build i = true → t.rd .shdTemp 0 i = 0x80000000 ||| (dwAt temps i &&& 0xFFFF) ∧
        (tempWarn (sext 16 (dwAt temps i).toNat) = true → i ∈ t.shd.warned) ∧
        (tempBack (sext 16 (dwAt temps i).toNat) = true → i ∉ t.shd.warned)) ∧
      (∀ i < 16, hasVmon s.build i = true → t.rd .shdVmon 0 i = 0x80000000 ||| (dwAt volts i &&& 0xFFFF) ∧
        (voltWarn i (fld (dwAt volts i) 15 0) = true → 32 + i ∈ t.shd.warned) ∧
        (voltBack i (fld (dwAt volts i) 15 0) = true → 32 + i ∉ t.shd.warned)) ∧
      (∀ i < 4, t.rd .shdClkmon 0 i = (0x80000000 ||| (dwAt clks i &&& 0xFFFF)) ||| (dwAt clks i &&& 0x40000000) ∧
        ((dwAt clks i).getLsbD 30 = true → 64 + i ∈ t.shd.warned))) ∧
    (∀ m v, fld (s.rd .monCfg 0 m) 27 24 ∉ [2, 4, 5] → exec (.monitorSample m v) s = .next s) ∧
    (∀ m v, m < 48 → fld (s.rd .monCfg 0 m) 27 24 ∈ [2, 4, 5] → let g := s.staging m
      let sh := fld (s.rd .monCfg 0 m) 12 8
      let b := if v.toNat / 2 ^ sh = 0 then 0 else min 15 (Nat.log2 (v.toNat / 2 ^ sh) + 1)
      (s.monLive m = false → exec (.monitorSample m v) s = .next s) ∧
      (s.monLive m = true → ∃ t, exec (.monitorSample m v) s = .next t ∧
        (t.staging m).min.toNat = min g.min.toNat v.toNat ∧ (t.staging m).max.toNat = max g.max.toNat v.toNat ∧
        Tab.get (fun _ => 0) (t.staging m).bins b = satInc 48 (Tab.get (fun _ => 0) g.bins b) ∧
        (∀ i, i ≠ b → Tab.get (fun _ => 0) (t.staging m).bins i = Tab.get (fun _ => 0) g.bins i) ∧ t.bar = s.bar)) ∧
    (∀ w v, (∃ r, s.target w (RegAt.key ⟨.monSnap, 0, 0⟩) = .reg r) → ∃ t, exec (.monSnapshot w v) s = .next t ∧
      t.rd .monSnap = v &&& 0x3F ∧
      (∀ b, snapBank w = some b → v.getLsbD 31 = true → fld v 5 0 < 48 → t.snapOf b = some (s.monitor (fld v 5 0))) ∧
      (∀ b, snapBank w ≠ some b ∨ v.getLsbD 31 = false → t.snapOf b = s.snapOf b)) ∧
    (∀ w v, (∃ r, s.target w (RegAt.key ⟨.monClr0, 0, 0⟩) = .reg r) → ∃ t, exec (.monClr w false v) s = .next t ∧
      (∀ m, m ∈ t.monClr ↔ m ∈ s.monClr ∨ (m < 32 ∧ v.getLsbD m = true)) ∧ t.bar = s.bar) ∧
    (∀ w v, (∃ r, s.target w (RegAt.key ⟨.monClr1, 0, 0⟩) = .reg r) → ∃ t, exec (.monClr w true v) s = .next t ∧
      (∀ m, m ∈ t.monClr ↔ m ∈ s.monClr ∨ (32 ≤ m ∧ m < 48 ∧ v.getLsbD (m - 32) = true)) ∧ t.bar = s.bar) ∧
    (∀ w m v, m < 48 → (∃ r, s.target w (RegAt.key ⟨.monCfg, 0, m⟩) = .reg r) →
      (9 ≤ fld v 27 24 → exec (.monCfgWrite w m v) s = .next (s.reject w 0 (RegAt.key ⟨.monCfg, 0, m⟩))) ∧
      (fld v 27 24 < 9 → ∃ t, exec (.monCfgWrite w m v) s = .next t ∧ m ∈ t.monClr ∧ fld (t.rd .monCfg 0 m) 27 24 = fld v 27 24 ∧
        fld (t.rd .monCfg 0 m) 12 8 = fld v 12 8 ∧ ∀ i < 48, i ≠ m → t.rd .monCfg 0 i = s.rd .monCfg 0 i)) ∧
    (s.shedUp = true →
      (∀ m, m < 48 → ∃ t, exec (.getMon m) s = .next t ∧ t.snapOf 1 = some (s.monitor m) ∧ t.shd.bmcOut = s.monBytes m (s.monitor m)) ∧
      (∀ m, 48 ≤ m → exec (.getMon m) s = .next (s.modShd fun d => { d with bmcOut := [0x05] })) ∧
      (s.shd.toFlash = [] ∨ s.shd.noPers = true → ∀ ok, exec (.logFlashProgram ok) s = .next s) ∧
      (∀ q, s.shd.noPers = false → s.shd.toFlash = [q] → 8 ≤ s.shd.goodBlocks → 1 ≤ s.shd.ent → s.shd.ent < 2048 →
        ∃ t, exec (.logFlashProgram true) s = .next t ∧ t.shd.toFlash = [] ∧ t.shd.ent = s.shd.ent + 1 ∧ t.shd.blk = s.shd.blk ∧
          t.flashRec s.shd.blk s.shd.ent = (if s.logRec q = BitVec.allOnes 128 then none else some (s.logRec q))) ∧
      (s.shd.noPers = false → s.shd.toFlash ≠ [] → s.shd.failBlk.goodBlocks < 8 → ∃ t, exec (.logFlashProgram false) s = .next t ∧
        t.shd.noPers = true ∧ t.shd.toFlash = [] ∧ t.shd.badBlk = s.shd.failBlk.badBlk ∧ t.shd.logSeq = nextSeq24 s.shd.logSeq))

/-- (R397, R398, R399, R400, R401, R402, R403, R404, R405, R406, R410, R414) ALARM_DECISION: every source that occurs (0 to
5) or is active, and whose latch is 0, sets its latch, all in one cycle; the highest class acts and, above the class in
force, ALM_REC takes its lowest source; class A0 goes no further, A1 leaves a freeze pending, A2 puts the alarm in
force, asserts ALM_OUT_N and begins the zeroization, which empties memory, key store, scratch, caches and coprocessors;
A3 also locks the part, and a burn is due where LOCKS can rise. Where every active source is latched nothing acts.
Sources 6 to 9 follow the tamper filter, three of four samples. The end of the zeroization leaves every cell DOWN, every
partition ABSENT and a new device DRBG. LOCKS_BURN starts the burn that is due, and its completion raises LOCKS by one.
LATCH_CLEAR keeps the latches of active sources; CLEAR is rejected with REASON 0 while refused and else lifts the alarm;
LIFT, DBGREQ and WINDOW do what R401, R410 and R406 say. -/
def Obligations.AlarmSourcesDecideRespondAndClear : Prop :=
  ∀ s : State,
    (∀ (src : Nat) (also : BitVec 6), src < 12 →
      let u := (List.range 6).foldl (fun t i => if i == src || also.getLsbD i then t.alarmInput i else t) s
      let d := u.deciding
      let cls := u.topClass d
      (∀ i < 12, (i ∈ d ↔ (s.alm.level.getLsbD i = true ∨ (i < 6 ∧ (i = src ∨ also.getLsbD i = true))) ∧ s.alm.latch.getLsbD i = false)) ∧
      (d = [] → exec (.alarmDecision src also) s = .next u) ∧
      (d ≠ [] → ∃ t, exec (.alarmDecision src also) s = .next t ∧
        (∀ i < 12, t.alm.latch.getLsbD i = (s.alm.latch.getLsbD i || decide (i ∈ d))) ∧
        cls ≤ 3 ∧ (∀ i ∈ d, s.almClass i ≤ cls) ∧ (∃ i ∈ d, s.almClass i = cls) ∧
        (∀ x ∈ d, s.almClass x = cls → (∀ i ∈ d, s.almClass i = cls → x ≤ i) → s.alm.cls < cls →
          (t.rd .almRec).getLsbD 31 = true ∧ fld (t.rd .almRec) 25 24 = cls ∧ fld (t.rd .almRec) 3 0 = x ∧
          t.rd .almRecfrm = BitVec.ofNat 32 s.frame ∧ t.alm.cls = cls) ∧
        (2 ≤ d.length → (t.rd .almRec).getLsbD 30 = true) ∧
        (cls = 0 → t.alm.inforce = s.alm.inforce ∧ t.alm.zbusy = s.alm.zbusy ∧ t.alm.freezePend = s.alm.freezePend ∧ t.mem = s.mem) ∧
        (cls = 1 → t.alm.inforce = s.alm.inforce ∧ t.mem = s.mem ∧ (s.alm.cls = 0 → t.alm.freezePend = true)) ∧
        (2 ≤ cls → t.alm.inforce = true ∧ t.alm.out = true ∧
          (s.alm.cls < 2 → s.alm.zbusy = false → t.alm.zbusy = true ∧ t.mem = [] ∧ t.scratch = [] ∧ t.slots = [] ∧ t.l2 = [] ∧
            t.dir = [] ∧ t.net = [] ∧ t.jobs = [] ∧ t.filled = [] ∧ t.drbgD = {})) ∧
        (cls = 3 → t.alm.lockedA3 = true ∧ (s.alm.cls < 3 → s.canBurn = true → t.alm.burnDue = true)) ∧
        (10 ∈ d → t.alm.dbgPend = true ∨ t.alm.dbg = true))) ∧
    (∀ src, src < 16 → exec (.alarmSourceInactive src) s =
      .next (if 6 ≤ src ∧ src ≤ 9 then s else s.modAlm fun a => { a with level := putBit a.level src false })) ∧
    (∀ k low, k < 4 → let p := Tab.get (fun _ => ({} : Pin)) s.tamper k
      let l := (low :: p.smp).take 4
      let n := (l.filter id).length
      ∃ t, exec (.tamperSample k low) s = .next t ∧
        (let q := Tab.get (fun _ => ({} : Pin)) t.tamper k
         q.smp = l ∧ q.lvl = (if 3 ≤ n then true else if n ≤ 1 then false else p.lvl) ∧
         t.alm.level.getLsbD (6 + k) = (q.lvl || decide (n = 2 ∧ 15 ≤ p.split)) ∧
         (n = 2 → 15 ≤ p.split → t.alm.chat.getLsbD (6 + k) = true)) ∧ t.mem = s.mem) ∧
    (s.alm.zbusy = false → exec .zeroizationComplete s = .next s) ∧
    (s.alm.zbusy = true → ∃ t, exec .zeroizationComplete s = .next t ∧ t.alm.zbusy = false ∧ (∀ n < s.build.cells, (t.cell n).st = 4) ∧
      (∀ p < s.build.parts, (t.part p).st = 0) ∧ t.drbgD.live = true ∧ (t.rd .kstStat).getLsbD 31 = true ∧ t.mem = s.mem ∧
      (s.alm.dbgPend = true → t.alm.dbg = true) ∧
      (s.alm.zwhy = 2 → t.pwr.pmicDropPend = true) ∧ (s.admWait = .none → t.adm = s.adm) ∧
      (∀ a rest, s.admWait = .zero → s.adm = a :: rest → t.adm = rest ∧ ∃ d, t.admDone = s.admDone ++ [d] ∧ d.cmd = a ∧ d.status = 0)) ∧
    (let due := s.alm.burnDue = true ∧ s.alm.zbusy = false ∧ s.alm.burn = false
     (¬ due → exec .locksBurn s = .next s) ∧
     (due → s.sbk.busy = false → (∀ k, s.admWait ≠ .sbk k) →
       exec .locksBurn s = .next (s.modAlm fun a => { a with burn := true, burnDue := false })) ∧
     (due → s.sbk.busy = true → ∃ t, exec .locksBurn s = .next t ∧ t.alm.burn = true ∧ t.sbk.busy = false ∧
       fld (t.rd .sbkCtl) 29 27 = 4 ∧ (t.rd .sbkCtl).getLsbD 30 = true)) ∧
    (∀ bad, (s.alm.burn = false → exec (.locksBurnComplete bad) s = .next s) ∧
      (s.alm.burn = true → winner s.sbk.otp 1 ≠ none → otpLocks s.sbk.otp + bad < 32 → ∃ t, exec (.locksBurnComplete bad) s = .next t ∧
        otpLocks t.sbk.otp = otpLocks s.sbk.otp + 1 ∧ otpProv t.sbk.otp = otpProv s.sbk.otp ∧ t.alm.burn = false ∧ t.alm.lockedA3 = false) ∧
      (s.alm.burn = true → 32 ≤ otpLocks s.sbk.otp + bad → exec (.locksBurnComplete bad) s = .next s)) ∧
    (∀ w v, (∃ r, s.target w (RegAt.key ⟨.almLatch, 0, 0⟩) = .reg r) → exec (.latchClear w v) s = .next (s.modAlm fun a =>
      let m := v.setWidth 16 &&& ~~~a.level
      { a with latch := a.latch &&& ~~~m, chat := a.chat &&& ~~~(m &&& a.latch) })) ∧
    (∀ w v, (∃ r, s.target w (RegAt.key ⟨.almCtl, 0, 0⟩) = .reg r) →
      let off := s.reject w 0 (RegAt.key ⟨.almCtl, 0, 0⟩)
      let close := fun (t : State) => (Host.Outcome.next (t.modAlm fun a =>
        { a with oldPol := if v.getLsbD 0 = true ∧ a.window = false then s.rd .almPolicy else a.oldPol, window := v.getLsbD 0 }) : Out)
      (v.getLsbD 2 = false → exec (.almCtlClear w v) s = .next s) ∧ (v.getLsbD 3 = false → exec (.dbgreq w v) s = .next s) ∧
      (v.getLsbD 1 = false → exec (.lift w v) s = .next s) ∧
      (v.getLsbD 2 = true → s.clearRefused = true → exec (.almCtlClear w v) s = .next off) ∧
      (v.getLsbD 2 = true → s.clearRefused = false → v.getLsbD 1 = false → v.getLsbD 3 = false →
        exec (.almCtlClear w v) s = close (s.modAlm fun a => { a with out := false, inforce := false, cls := if s.frozen = true then 1 else 0, freezePend := false, liftPend := true, latch := a.latch &&& a.level, chat := a.chat &&& a.level })) ∧
      (v.getLsbD 1 = true → v.getLsbD 2 = false → v.getLsbD 3 = false → exec (.lift w v) s = close (s.modAlm fun a =>
        { a with liftPend := true, freezePend := false, cls := if a.cls = 1 ∧ s.frozen = false then 0 else a.cls })) ∧
      (v.getLsbD 3 = true → v.getLsbD 1 = false → v.getLsbD 2 = false → exec (.dbgreq w v) s = close (s.modAlm fun a =>
        { a with level := putBit a.level 10 true })) ∧
      (v.getLsbD 1 = false → v.getLsbD 2 = false → v.getLsbD 3 = false → exec (.window w v) s = close s))

/-- (R411, R412, R413, R415, R418, R421, R422, R426, R431, R432, R433) A write of SBK_CTL with the OP of the command is
rejected with REASON 0 while an operation runs; else OP 1 begins for a group that can be programmed, OP 2 where an
anti-rollback generation exists or can be made, OP 3 where a lock generation exists, OP 4 always, and what is refused
sets ERR and ERRC. At the end the controller is idle: OP 1 has filled the next generation with data and seal, or, where
the verify failed, has left the winner unchanged with ERRC 2; OP 2 and OP 3 have raised their count by one; OP 4 has
read the view. FSTOP of a running partition of the cell fault-stops it, or loses the twin, at the next tick. CELL_ELOGRD
advances within the open records only. VOTER_DISAGREEMENT counts, names the unit and tells the Shed. -/
def Obligations.SeedbankOperationsAndErrorRecords : Prop :=
  ∀ s : State,
    (∀ w v, (∃ r, s.target w (RegAt.key ⟨.sbkCtl, 0, 0⟩) = .reg r) →
      let ops := [(Instr.program w v, 1), (.burnSvn w v, 2), (.burnProv w v, 3), (.reload w v, 4)]
      let g := fld v 11 8
      let begun := fun (t : State) (op gr : Nat) => t.sbk.busy = true ∧ t.sbk.op = op ∧ t.sbk.group = gr ∧ t.sbk.otp = s.sbk.otp ∧
        (∀ i < 15, Tab.get (fun _ => 0) t.sbk.data i = s.rd .sbkWdata 0 i) ∧ (t.rd .sbkCtl).getLsbD 30 = false
      let refused := fun (t : State) (e : Nat) => t.sbk = s.sbk ∧ (t.rd .sbkCtl).getLsbD 30 = true ∧ fld (t.rd .sbkCtl) 29 27 = e
      (∀ i n, (i, n) ∈ ops → (fld v 2 0 ≠ n → exec i s = .next s) ∧
        (fld v 2 0 = n → s.sbk.busy = true → exec i s = .next (s.reject w 0 (RegAt.key ⟨.sbkCtl, 0, 0⟩)))) ∧
      (s.sbk.busy = false →
        (fld v 2 0 = 1 → ∃ t, exec (.program w v) s = .next t ∧
          (programRefused s.sbk.otp g = 0 → begun t 1 g) ∧ (programRefused s.sbk.otp g ≠ 0 → refused t (programRefused s.sbk.otp g))) ∧
        (fld v 2 0 = 2 → ∃ t, exec (.burnSvn w v) s = .next t ∧
          (winner s.sbk.otp 4 = none ∧ groupFrozen s.sbk.otp 4 = true → refused t 1) ∧
          (winner s.sbk.otp 4 ≠ none ∨ groupFrozen s.sbk.otp 4 = false → begun t 2 4)) ∧
        (fld v 2 0 = 3 → ∃ t, exec (.burnProv w v) s = .next t ∧ (winner s.sbk.otp 1 = none → refused t 3) ∧
          (winner s.sbk.otp 1 ≠ none → begun t 3 1)) ∧
        (fld v 2 0 = 4 → ∃ t, exec (.reload w v) s = .next t ∧ begun t 4 g))) ∧
    (s.sbk.busy = false → ∀ n b, exec (.sbkOpComplete n b) s = .next s) ∧
    (s.sbk.busy = true → s.shd.svnGoal = 0 → ∀ bad ok, ∃ t, exec (.sbkOpComplete bad ok) s = .next t ∧
      t.sbk.busy = false ∧ t.sbk.op = 0 ∧ ((∀ k, s.admWait ≠ .sbk k) → t.adm = s.adm) ∧
      (∀ a rest, s.admWait = .sbk 5 → s.adm = a :: rest → t.adm = rest ∧ ∃ d, t.admDone = s.admDone ++ [d] ∧ d.cmd = a ∧
        d.status = (if ok = true then 0 else 0x0101)) ∧
      (s.sbk.op = 1 → ok = true → t.sbk.otp = otpProgram s.sbk.otp s.sbk.group s.sbk.dws) ∧
      (s.sbk.op = 1 → ok = false → winner t.sbk.otp s.sbk.group = winner s.sbk.otp s.sbk.group ∧ fld (t.rd .sbkCtl) 29 27 = 2 ∧
        (∀ h, h ≠ s.sbk.group → winner t.sbk.otp h = winner s.sbk.otp h)) ∧
      (s.sbk.op = 2 → winner s.sbk.otp 4 ≠ none → otpSvn s.sbk.otp + bad < 64 → otpSvn t.sbk.otp = otpSvn s.sbk.otp + 1) ∧
      (s.sbk.op = 3 → winner s.sbk.otp 1 ≠ none → otpProv s.sbk.otp + bad < 31 → otpProv t.sbk.otp = otpProv s.sbk.otp + 1 ∧
        otpLocks t.sbk.otp = otpLocks s.sbk.otp) ∧
      (s.sbk.op = 4 → t.sbk.view = s.sbk.otp ∧ t.sbk.otp = s.sbk.otp)) ∧
    (∀ c m (v : BitVec 32), m < s.build.clusters → (∃ r, s.target (.core c) (RegAt.key ⟨.cluFstop, m, 0⟩) = .reg r) →
      let p := fld v 5 0
      let n := s.build.cellOfClu m
      let q := s.part p
      let stops := v.getLsbD 31 = true ∧ q.st = 3 ∧ q.homedIn n = true
      (¬ stops → exec (.fstop (.core c) m v) s = .next s) ∧
      (stops → q.paired = false → q.faultPend = none → ∃ t, exec (.fstop (.core c) m v) s = .next t ∧
        t.part p = { q with faultPend := some 0x0300 } ∧ t.mem = s.mem) ∧
      (stops → q.paired = true → q.lost = 0 → ∃ t, exec (.fstop (.core c) m v) s = .next t ∧
        (t.part p).lost = q.sideIn n + 1 ∧ (t.part p).faultPend = q.faultPend ∧ t.mem = s.mem)) ∧
    (∀ w n (v : BitVec 32), n < s.build.cells → (∃ r, s.target w (RegAt.key ⟨.cellElogrd, n, 0⟩) = .reg r) →
      exec (.elogrdWrite w n v) s = .next (if v ≠ 0 ∧ seqDist (s.elogRd n) v.toNat ≤ s.elogOpen n then s.wr .cellElogrd n 0 v else s)) ∧
    (∀ u : BitVec 2, u ≠ 3 → ∃ t, exec (.voterDisagreement u) s = .next t ∧ t.rdf .glbVote 0 0 1 0 = u.toNat ∧
      t.rdf .glbVote 0 0 31 16 = min 65535 (s.rdf .glbVote 0 0 31 16 + 1) ∧
      t.shd.raised = s.shd.raised ++ [(0x15, u.toNat, t.rd .glbVote)] ∧ t.mem = s.mem)

/-- (R435, R436, R437, R438, R439, R440, R441, R443, R444, R446, R447, R451) VDD_AON_RISE leaves the part without memory or
registers, PMIC_ON high and not up; PWRGD_RISE lets it boot unless TEST0 or TEST1 reads high, PWRGD_FALL takes it down,
PWRGD_TIMEOUT drops PMIC_ON where PWRGD has not risen, WAKE_N_FALL raises it at least 50 ms later, PMIC_DROP drops it
once a SLEEP may; RESET_N and PWR_RESET with the key boot it cold with causes 2 and 4. A cold boot keeps the Seedbank,
the flash and the queue. Each BOOT_STAGE_COMPLETE ends the stage in progress; stage 5 starts the ticks; READY comes when
every cell is resolved. HELLO_WAIT_TIMEOUT stops the cell. A lost PLL clears its lock bit; the main PLL or the 25 MHz
reference is alarm source 2, the PCIe PLL or the 100 MHz reference takes the link down, the Shed PLL stops the Shed with
LOCKUP_N. Without lock in stage 1 the part stays in reset. TRST_N resets the TAP only. -/
def Obligations.PowerResetsClocksAndBoot : Prop :=
  ∀ s : State,
    let cold := fun (t : State) => t.mem = [] ∧ t.bar = [] ∧ t.slots = [] ∧ t.reqs = [] ∧ t.adm = [] ∧ t.frame = 0 ∧ t.ticking = false ∧
      t.shd.flash = s.shd.flash ∧ t.pending = s.pending ∧ t.pwr.stage = 1 ∧
      (s.sbk.busy = false → s.alm.burn = false → t.sbk.otp = s.sbk.otp)
    (∃ t, exec .vddAonRise s = .next t ∧ cold t ∧ t.pwr.aon = true ∧ t.pwr.pmicOn = true ∧ t.pwr.up = false ∧ t.pwr.cause = 1 ∧ t.pwr.pgSeen = false) ∧
    (let may := s.pwr.aon = true ∧ s.pwr.pmicOn = false
     ∀ ms, (may ∧ 50 ≤ ms → exec (.wakeNFall ms) s = .next (s.modPwr fun w => { w with wake := true, pmicOn := true, pgSeen := false, cause := 1 })) ∧
       (¬ (may ∧ 50 ≤ ms) → exec (.wakeNFall ms) s = .next s)) ∧
    (∀ t0 t1, (s.pwr.pmicOn = true → s.pwr.pwrgd = false → ∃ t, exec (.pwrgdRise t0 t1) s = .next t ∧ cold t ∧
        t.pwr.up = !(t0 || t1) ∧ t.pwr.pwrgd = true ∧ t.pwr.pgSeen = true ∧ t.pwr.cause = s.pwr.cause) ∧
      (s.pwr.pmicOn = false ∨ s.pwr.pwrgd = true → exec (.pwrgdRise t0 t1) s = .next s)) ∧
    (∀ b, (s.pwr.pwrgd = false → exec (.pwrgdFall b) s = .next s) ∧
      (s.pwr.pwrgd = true → ∃ t, exec (.pwrgdFall b) s = .next t ∧ cold t ∧ t.pwr.up = false ∧ t.pwr.cause = (if b = true then 3 else 1))) ∧
    exec .pwrgdTimeout s = .next (if s.pwr.pmicOn = true ∧ s.pwr.pgSeen = false then s.modPwr fun w => { w with pmicOn := false, wake := false } else s) ∧
    (s.mayDrop = false → exec .pmicDrop s = .next s) ∧
    (s.mayDrop = true → ∃ t, exec .pmicDrop s = .next t ∧ cold t ∧ t.pwr.pmicOn = false ∧ t.pwr.wake = false ∧ t.pwr.up = false) ∧
    (s.pwr.up = false → exec .resetN s = .next s) ∧
    (s.pwr.up = true → ∃ t, exec .resetN s = .next t ∧ cold t ∧ t.pwr.cause = 2 ∧ t.pwr.up = true) ∧
    (∀ w v, (∃ r, s.target w (RegAt.key ⟨.pwrReset, 0, 0⟩) = .reg r) →
      (v ≠ 0x434F4C44 → exec (.pwrReset w v) s = .next s) ∧
      (v = 0x434F4C44 → ∃ t, exec (.pwrReset w v) s = .next t ∧ cold t ∧ t.pwr.cause = 4)) ∧
    exec .trstN s = .next (s.modPwr fun w => { w with tapReset := true }) ∧
    (∀ r, (s.pwr.up = false ∨ s.pwr.dead = true ∨ 8 ≤ s.pwr.stage → exec (.bootStageComplete r) s = .next s) ∧
      (s.pwr.up = true → s.pwr.dead = false →
        (s.pwr.stage = 1 → ∃ t, exec (.bootStageComplete r) s = .next t ∧ t.pwr.stage = 2 ∧ t.pwr.lock = 0xFF ∧
          t.pwr.link = !s.pwr.perst ∧ t.rd .almPolicy = bootPolicy s.sbk.otp ∧ t.alm.nonce = r.nonce ∧
          t.alm.dbg = (otpDlevel s.sbk.otp == 0) ∧ t.sbk.view = s.sbk.otp ∧ t.mem = s.mem) ∧
        (s.pwr.stage = 2 → s.shd.ctlWins = none → ∃ t, exec (.bootStageComplete r) s = .next t ∧
          if s.slotOk 0 = true then t.pwr.stage = 3 ∧ t.shd.run = true ∧ t.shd.slot = 0 ∧ t.shd.trial = false
          else t.pwr.dead = true ∧ t.pwr.stage = 2) ∧
        (s.pwr.stage = 3 → ∃ t, exec (.bootStageComplete r) s = .next t ∧ t.pwr.stage = 4 ∧ t.trngOk = r.trngOk ∧
          (r.trngOk = true → t.drbgD.live = true) ∧
          (∀ c < s.build.channels, t.rd .memCfg c = r.memCfg.getD c 0 &&& 0x3313) ∧ t.mem = s.mem) ∧
        (s.pwr.stage = 4 → ∃ u : State, exec (.bootStageComplete r) s =
            .next ((s.cluIds.foldl (fun s m => csLoad m s) u).modPwr fun w => { w with stage := 5 }) ∧
          (∀ c < s.build.channels, u.rd .memStat c = (if c ∈ r.trainFail ∨ s.chanBreaks c = true then 0x40000000 else 0x80000000)) ∧
          u.mem = s.mem) ∧
        (s.pwr.stage = 5 → ∃ u : State, exec (.bootStageComplete r) s = .next (u.tick.modPwr fun w => { w with stage := 6 }) ∧
          u.ticking = true ∧ u.fc = u.period ∧ u.frame = s.frame ∧ u.mem = s.mem ∧
          ∀ m < s.build.clusters, u.rd .cpxCtl m = (if m ∈ r.katFail then 0 else 3)) ∧
        (s.pwr.stage = 6 → exec (.bootStageComplete r) s = .next ((s.cellIds.foldl bootCell s).modPwr fun w => { w with stage := 7 })) ∧
        (s.pwr.stage = 7 → exec (.bootStageComplete r) s = exec (.ready s.build.parts) s))) ∧
    (let now := s.pwr.dead = false ∧ s.pwr.stage = 7 ∧ ∀ n < s.build.cells, (s.cell n).resolved = true
     ∀ numVf, (¬ now → exec (.ready numVf) s = .next s) ∧
     (now → ∃ t, exec (.ready numVf) s = .next t ∧ t.pwr.ready = true ∧ t.pwr.stage = 8 ∧ t.frame = s.frame ∧
       (s.pwr.link = true → t.pwr.numVf = min numVf s.build.parts) ∧ (s.pwr.link = false → t.pwr.numVf = s.pwr.numVf))) ∧
    (∀ n, n < s.build.cells → ((s.cell n).helloWait = false → exec (.helloWaitTimeout n) s = .next s) ∧
      ((s.cell n).helloWait = true → ∃ t, exec (.helloWaitTimeout n) s = .next t ∧ (t.cell n).st = 3 ∧ (t.cell n).stopPend = true ∧
        (t.cell n).resolved = true ∧ (t.cell n).helloWait = false ∧ t.mem = s.mem)) ∧
    (∀ i : BitVec 4, i.toNat < 10 →
      (s.pwr.up = false ∨ s.pwr.stage < 2 → exec (.pllLossOfLock i) s = .next s) ∧
      (s.pwr.up = true → 2 ≤ s.pwr.stage → ∃ t, exec (.pllLossOfLock i) s = .next t ∧ t.mem = s.mem ∧
        (i.toNat < 8 → t.pwr.lock = putBit s.pwr.lock i.toNat false ∧ (t.rd .clkLoss).getLsbD i.toNat = true) ∧
        (i = 0 ∨ i = 8 → t.alm.level = putBit s.alm.level 2 true) ∧ (i = 2 ∨ i = 9 → t.pwr.link = false) ∧
        (i = 7 → t.shedUp = false ∧ t.pwr.lockupN = true) ∧
        (i = 1 ∨ (3 ≤ i.toNat ∧ i.toNat ≤ 6) → t = s.lockLost i.toNat))) ∧
    exec .mainPllLockTimeout s = .next (if s.pwr.up = true ∧ s.pwr.stage = 1 then s.modPwr fun w => { w with dead := true } else s)

/-- (R15) With a command at the front of the queue, the step is the execution of that command in the state whose queue is
the rest. On an empty queue the step answers the state in which one fabric cycle has passed: the model, not the spec,
chooses this (notes/assumptions/6.md); fc and the count of cycles since cold boot rise by one. The opcode table gives no
command any bits, so no word spells one, and withFetchWord changes nothing. -/
def Obligations.StepRunsTheFrontCommand : Prop :=
  (∀ (s : State) (c : Instr) (l : List Instr), step { s with pending := c :: l } = exec c { s with pending := l }) ∧
    (∀ s : State, s.pending = [] → ∃ t, step s = .next t ∧ t.clock = s.clock + 1 ∧ t.fc = s.fc + 1 ∧ t.pending = [] ∧
      t.frame = s.frame ∧ t.mem = s.mem ∧ t.bar = s.bar) ∧
    (∀ n w, decodeTableWord n w = none) ∧ (∀ (s : State) n w, s.withFetchWord n w = s)

/-- (R4, R10, R11) For every state and every command the execution answers a next state, whatever the command, the state and
the operands: no command is refused and none stops, and the block can always step. Where the command names a unit,
register set, function, line or agent that the build has not, it changes nothing, unless it is a register write that is
rejected, which changes only what a rejection records. (GRANT, RETRY and RETRY_BACKOFF_EXPIRY of an agent or a core name
a message that waits, and are shut out of the second clause alone.) -/
def Obligations.CommandsOfPresentUnitsNeverStop : Prop :=
  ∀ (i : Instr) (s : State),
    (∃ t, exec i s = .next t) ∧ (∃ t, step s = .next t) ∧
    (i.wf s.build = false → (∀ q line, i ∈ [Instr.grant q line, .retry q line, .retryBackoffExpiry q line] → ∃ m, q = .clu m) →
      exec i s = .next s ∨ ∃ w k a, exec i s = .next (s.reject w k a))

/-- (R207, R270) For every state whose external memory lists rising word addresses and no word equal to what an unlisted
address reads as, and every step that answers a next state, whatever the command, the memory of the next state has that
form too. Equal memories are therefore equal data. -/
def Obligations.EveryStepKeepsMemoryInItsForm : Prop :=
  ∀ s t : State, s.memWf = true → step s = .next t → t.memWf = true

/-- (R4, R10) For every command and state, where the execution answers a next state, that state has the same build and the
same queue of waiting commands; so a step that answers a next state takes exactly the front of a queue that is not
empty, and the queue stays well formed. -/
def Obligations.NoCommandChangesTheQueueOrTheBuild : Prop :=
  (∀ (i : Instr) (s t : State), exec i s = .next t → t.pending = s.pending ∧ t.build = s.build) ∧
    (∀ s t : State, step s = .next t → t.pending = s.pending.tail ∧ t.build = s.build ∧ (s.queueWf → t.queueWf))

/-- (R5, R13, R15, R21, R29, R41, R101, R229, R254, R270, R439) In the state after reset: the queue is empty; ticks do not
run and FRAME_NO is 0; FRM_PERIOD selects 2, FRM_CELL_ROWS is 1, FRM_PAIR_CFG is 16, FRM_CAL is 0x4040, ALM_POLICY is
0x006AAEAB, KST_RESEED is 1024; cells are STOPPED, partitions ABSENT, cores offline at rotation entry 0xFF with PSTAT 3
and LINK levels in their SPC and TVEC registers, CX registers EMPTY; no region is filled, no alarm in force, nothing
frozen, no job, request or key; memory lists nothing and is in its form. -/
def Obligations.ResetStateHoldsTheSpecsValues : Prop :=
  let s := State.reset
  s.pending = [] ∧ s.memWf = true ∧ s.mem = [] ∧ s.queueWf ∧ s.ticking = false ∧ s.frame = 0 ∧ s.frozen = false ∧ s.cutoff = false ∧
  s.rd .frmPeriod = 2 ∧ s.rd .frmCellRows = 1 ∧ s.rd .frmPairCfg = 0x10 ∧ s.rd .frmCal = 0x4040 ∧ s.rd .almPolicy = 0x006AAEAB ∧
  s.rd .kstReseed = 0x400 ∧ s.rd .shdWdto = 0x80 ∧ s.rd .glbLockerr = 0 ∧ s.alm.inforce = false ∧ s.alm.out = false ∧
  (∀ n, (s.cell n).st = 0) ∧ (∀ p, (s.part p).st = 0) ∧
  (∀ c, (s.core c).entry = 0xFF ∧ (s.core c).level = 3 ∧ (s.core c).spv 0x001 = 3 ∧ (s.core c).sp 0x020 = Word.link 1 0 ∧
    (s.core c).sp 0x028 = Word.link 2 0 ∧ (s.core c).sp 0x030 = Word.link 3 0 ∧ (s.core c).sp 0x100 = Word.empty ∧
    (s.core c).sb = [] ∧ s.rotEntry 0 c = 0xFF) ∧
  s.filled = [] ∧ s.slots = [] ∧ s.jobs = [] ∧ s.reqs = [] ∧ s.adm = [] ∧ s.net = [] ∧ s.l2 = []

/-- (R74, R88, R90, R188, R195, R204) The machine, tag and generic operations, the loads and the moves end in the state
wrote or wroteIn of their completion statements, and the stores, branches and tests in ends or in a retirement of the
state their accesses left. Without single step such an end changes nothing but the one core: in it, of the general
registers only rd, and register 0, which is hard-wired, not even then, of the special registers only PSTAT bits 3 and 6,
DIRTY, LCOUNT and the event counters 0x080 to 0x09F, then the PC, the wait and the entry mark. Every other core, all
memory, every register of the block, every buffer, queue and timer is as before; in particular an end stores nothing to
memory. -/
def Obligations.FramesOfInstructionEnds : Prop :=
  ∀ (s u : State) (c : Nat) (rd : Reg) (w : Word), (s.core c).pbit 4 = false →
    let only := fun (a b : State) => b = { a with cores := b.cores } ∧ (∀ d, d ≠ c → b.core d = a.core d) ∧
      (b.core c).rest = (a.core c).rest ∧
      (∀ n, n ∉ [0x001, 0x003, 0x010] → ¬ (0x080 ≤ n ∧ n ≤ 0x09F) → (b.core c).sp n = (a.core c).sp n) ∧
      (∀ i < 64, i ≠ 3 → i ≠ 6 → (b.core c).pbit i = (a.core c).pbit i)
    (let t := s.wrote c rd w
     only s t ∧ (∀ i, i ≠ (s.core c).phys rd → (t.core c).preg i = (s.core c).preg i) ∧
       ((s.core c).phys rd ≠ 0 → (t.core c).preg ((s.core c).phys rd) = w) ∧ (t.core c).preg 0 = (s.core c).preg 0 ∧
       (t.core c).wait = .none ∧ (t.core c).pbit 3 = false ∧ (t.core c).pbit 6 = false ∧
       ((s.core c).loopHere = false → (t.core c).pc = pcPlus (s.core c).pc 1 ∧ (t.core c).spv 0x010 = (s.core c).spv 0x010)) ∧
    (let t := s.wroteIn u c rd w
     only u t ∧ (∀ i, i ≠ (u.core c).phys rd → (t.core c).preg i = (u.core c).preg i) ∧
       ((u.core c).phys rd ≠ 0 → (t.core c).preg ((u.core c).phys rd) = w)) ∧
    (∀ f, (∀ p, f ≠ .shadow p) → let t := u.retire c (s.core c) f
      only u t ∧ (t.core c).regs = (u.core c).regs ∧ (t.core c).wait = .none)
end

