-- ==== Sys2Proof/Laws/Tab.lean ====
section
/-!
SUPPORT. Sparse tables: what an access finds after a change, and that every change keeps the canonical form.
-/
namespace Sys2Proof

theorem Tab.get_above {α : Type} (d : Nat → α) (k j : Nat) (t : Tab α) :
    Tab.get d (Tab.above k t) j = if j ≤ k then d j else Tab.get d t j := by
  induction t with
  | nil => simp [Tab.above, Tab.get]
  | cons e t ih =>
    obtain ⟨i, v⟩ := e
    by_cases h : i ≤ k
    · simp only [Tab.above, h, if_true, ih]
      by_cases hj : j ≤ k
      · simp [hj]
      · have : i < j := by omega
        simp [hj, Tab.get, this]
    · simp only [Tab.above, h, if_false]
      by_cases hj : j ≤ k
      · have h1 : ¬ i < j := by omega
        have h2 : ¬ i = j := by omega
        simp [hj, Tab.get, h1, h2]
      · simp [hj]

/-- What key `j` holds after a store at key `k`. -/
theorem Tab.get_set {α : Type} [DecidableEq α] (d : Nat → α) (t : Tab α) (k j : Nat) (v : α) :
    Tab.get d (Tab.set d t k v) j = if j = k then v else Tab.get d t j := by
  induction t with
  | nil =>
    by_cases hv : v = d k <;> by_cases hj : j = k
    · subst hj; simp [Tab.set, hv, Tab.get]
    · simp [Tab.set, hv, Tab.get, hj]
    · subst hj; simp [Tab.set, hv, Tab.get]
    · have : ¬ k = j := fun h => hj h.symm
      simp [Tab.set, hv, Tab.get, hj, this]
  | cons e t ih =>
    obtain ⟨i, w⟩ := e
    by_cases hi : i < k
    · simp only [Tab.set, hi, if_true, Tab.get, ih]
      by_cases hj : j = k
      · subst hj; simp [hi]
      · simp [hj]
    · have key : Tab.get d (Tab.above k ((i, w) :: t)) j = if j ≤ k then d j else Tab.get d ((i, w) :: t) j :=
        Tab.get_above d k j _
      by_cases hv : v = d k
      · simp only [Tab.set, hi, if_false, hv, if_true, key]
        by_cases hj : j = k
        · subst hj; simp
        · by_cases hl : j ≤ k
          · have h1 : ¬ i < j := by omega
            have h2 : ¬ i = j := by omega
            simp [hj, hl, Tab.get, h1, h2]
          · simp [hj, hl]
      · simp only [Tab.set, hi, if_false, hv, Tab.get, key]
        by_cases hj : j = k
        · subst hj; simp
        · by_cases hl : j ≤ k
          · have h0 : ¬ k < j := by omega
            have h1 : ¬ i < j := by omega
            have h2 : ¬ i = j := by omega
            have h3 : ¬ k = j := by omega
            simp [hj, h0, h1, h2, h3]
          · have h0 : k < j := by omega
            simp [hj, hl, h0]

@[simp] theorem Tab.get_set_same {α : Type} [DecidableEq α] (d : Nat → α) (t : Tab α) (k : Nat) (v : α) :
    Tab.get d (Tab.set d t k v) k = v := by simp [Tab.get_set]

theorem Tab.get_set_other {α : Type} [DecidableEq α] (d : Nat → α) (t : Tab α) {k j : Nat} (v : α) (h : j ≠ k) :
    Tab.get d (Tab.set d t k v) j = Tab.get d t j := by simp [Tab.get_set, h]

@[simp] theorem Tab.get_nil {α : Type} (d : Nat → α) (k : Nat) : Tab.get d [] k = d k := rfl

theorem Tab.above_above {α : Type} (k : Nat) (t : Tab α) : Tab.above k (Tab.above k t) = Tab.above k t := by
  induction t with
  | nil => rfl
  | cons e t ih =>
    obtain ⟨j, v⟩ := e
    simp only [Tab.above]; split
    · exact ih
    · rename_i h; simp [Tab.above, h]
theorem Tab.set_above {α : Type} [DecidableEq α] (d : Nat → α) (t : Tab α) (k : Nat) (v : α) :
    Tab.set d (Tab.above k t) k v = if v = d k then Tab.above k t else (k, v) :: Tab.above k t := by
  induction t with
  | nil => rfl
  | cons e t ih =>
    obtain ⟨j, w⟩ := e
    simp only [Tab.above]; split
    · exact ih
    · rename_i h
      simp [Tab.set, Tab.above, h, show ¬ j < k by omega]
/-- The last of two stores at one key counts. -/
@[simp] theorem Tab.set_set {α : Type} [DecidableEq α] (d : Nat → α) (t : Tab α) (k : Nat) (v w : α) :
    Tab.set d (Tab.set d t k v) k w = Tab.set d t k w := by
  induction t with
  | nil => by_cases h : v = d k <;> simp [Tab.set, Tab.above, h]
  | cons e t ih =>
    obtain ⟨j, x⟩ := e
    by_cases hj : j < k
    · simp [Tab.set, hj, ih]
    · by_cases hv : v = d k
      · simp only [Tab.set, hj, hv, if_true, if_false, Tab.set_above]
      · have e : Tab.set d ((j, x) :: t) k v = (k, v) :: Tab.above k ((j, x) :: t) := by simp [Tab.set, hj, hv]
        have f : Tab.set d ((j, x) :: t) k w = if w = d k then Tab.above k ((j, x) :: t)
            else (k, w) :: Tab.above k ((j, x) :: t) := by simp [Tab.set, hj]
        have g : ∀ u : Tab α, Tab.set d ((k, v) :: u) k w = if w = d k then Tab.above k u else (k, w) :: Tab.above k u := by
          intro u; simp [Tab.set, Tab.above]
        rw [e, f, g, Tab.above_above]

/-! ### The canonical form -/

/-- The canonical form as a property: every entry differs from its default and is followed by higher keys only. -/
theorem Tab.wf_cons {α : Type} [DecidableEq α] (d : Nat → α) (j : Nat) (v : α) (t : Tab α) :
    Tab.wf d ((j, v) :: t) = true ↔ v ≠ d j ∧ (∀ e ∈ t, j < e.1) ∧ Tab.wf d t = true := by
  induction t generalizing j v with
  | nil => simp [Tab.wf]
  | cons e t ih =>
    obtain ⟨k, w⟩ := e
    constructor
    · intro h
      simp only [Tab.wf, Bool.and_eq_true, decide_eq_true_eq] at h
      obtain ⟨⟨h1, h2⟩, h3⟩ := h
      refine ⟨h1, ?_, h3⟩
      intro e he
      rcases List.mem_cons.mp he with rfl | he
      · exact h2
      · exact Nat.lt_trans h2 (((ih k w).mp h3).2.1 e he)
    · rintro ⟨h1, h2, h3⟩
      simp only [Tab.wf, Bool.and_eq_true, decide_eq_true_eq]
      exact ⟨⟨h1, h2 (k, w) (List.mem_cons_self ..)⟩, h3⟩

theorem Tab.above_spec {α : Type} [DecidableEq α] (d : Nat → α) (k : Nat) (t : Tab α) (h : Tab.wf d t = true) :
    Tab.wf d (Tab.above k t) = true ∧ (∀ e ∈ Tab.above k t, k < e.1 ∧ e ∈ t) := by
  induction t with
  | nil => simp [Tab.above, Tab.wf]
  | cons e t ih =>
    obtain ⟨i, w⟩ := e
    obtain ⟨_, h2, h3⟩ := (Tab.wf_cons d i w t).mp h
    by_cases hi : i ≤ k
    · simp only [Tab.above, hi, if_true]
      exact ⟨(ih h3).1, fun e he => ⟨((ih h3).2 e he).1, List.mem_cons_of_mem _ ((ih h3).2 e he).2⟩⟩
    · simp only [Tab.above, hi, if_false]
      refine ⟨h, fun e he => ⟨?_, he⟩⟩
      rcases List.mem_cons.mp he with rfl | he
      · simpa using hi
      · have := h2 e he
        omega

theorem Tab.mem_set {α : Type} [DecidableEq α] (d : Nat → α) (t : Tab α) (k : Nat) (v : α) (h : Tab.wf d t = true)
    (e : Nat × α) (he : e ∈ Tab.set d t k v) : e.1 = k ∨ e ∈ t := by
  induction t with
  | nil =>
    by_cases hv : v = d k <;> simp [Tab.set, hv] at he
    left; rw [he]
  | cons x t ih =>
    obtain ⟨i, w⟩ := x
    by_cases hi : i < k
    · simp only [Tab.set, hi, if_true] at he
      rcases List.mem_cons.mp he with rfl | he
      · right; exact List.mem_cons_self ..
      · rcases ih ((Tab.wf_cons d i w t).mp h).2.2 he with h1 | h1
        · left; exact h1
        · right; exact List.mem_cons_of_mem _ h1
    · by_cases hv : v = d k
      · simp only [Tab.set, hi, if_false, hv, if_true] at he
        right; exact ((Tab.above_spec d k _ h).2 e he).2
      · simp only [Tab.set, hi, if_false, hv] at he
        rcases List.mem_cons.mp he with rfl | he
        · left; rfl
        · right; exact ((Tab.above_spec d k _ h).2 e he).2

/-- A store keeps the canonical form. -/
theorem Tab.wf_set {α : Type} [DecidableEq α] (d : Nat → α) (t : Tab α) (k : Nat) (v : α) (h : Tab.wf d t = true) :
    Tab.wf d (Tab.set d t k v) = true := by
  induction t with
  | nil => by_cases hv : v = d k <;> simp [Tab.set, hv, Tab.wf]
  | cons x t ih =>
    obtain ⟨i, w⟩ := x
    obtain ⟨h1, h2, h3⟩ := (Tab.wf_cons d i w t).mp h
    by_cases hi : i < k
    · simp only [Tab.set, hi, if_true]
      refine (Tab.wf_cons d i w _).mpr ⟨h1, ?_, ih h3⟩
      intro e he
      rcases Tab.mem_set d t k v h3 e he with h4 | h4
      · omega
      · exact h2 e h4
    · by_cases hv : v = d k
      · simp only [Tab.set, hi, if_false, hv, if_true]
        exact (Tab.above_spec d k _ h).1
      · simp only [Tab.set, hi, if_false, hv]
        exact (Tab.wf_cons d k v _).mpr ⟨hv, fun e he => ((Tab.above_spec d k _ h).2 e he).1, (Tab.above_spec d k _ h).1⟩

/-- So does taking keys out. -/
theorem Tab.wf_drop {α : Type} [DecidableEq α] (d : Nat → α) (p : Nat → Bool) (t : Tab α) (h : Tab.wf d t = true) :
    Tab.wf d (Tab.drop p t) = true := by
  induction t with
  | nil => rfl
  | cons x t ih =>
    obtain ⟨i, w⟩ := x
    obtain ⟨h1, h2, h3⟩ := (Tab.wf_cons d i w t).mp h
    have ih' : Tab.wf d (List.filter (fun e => !p e.1) t) = true := ih h3
    by_cases hp : p i
    · simpa [Tab.drop, List.filter, hp] using ih'
    · have hd : Tab.drop p ((i, w) :: t) = (i, w) :: Tab.drop p t := by simp [Tab.drop, List.filter, hp]
      rw [hd]
      refine (Tab.wf_cons d i w _).mpr ⟨h1, ?_, ih h3⟩
      intro e he
      exact h2 e (List.mem_filter.mp he).1

/-- Tables in canonical form that hold the same are equal. -/
theorem Tab.wf_ext {α : Type} [DecidableEq α] (d : Nat → α) (t u : Tab α) (ht : Tab.wf d t = true) (hu : Tab.wf d u = true)
    (h : ∀ k, Tab.get d t k = Tab.get d u k) : t = u := by
  have low : ∀ (t : Tab α) (k : Nat), (∀ e ∈ t, k < e.1) → Tab.get d t k = d k := by
    intro t k hk
    cases t with
    | nil => rfl
    | cons x t =>
      obtain ⟨i, w⟩ := x
      have : k < i := hk (i, w) (List.mem_cons_self ..)
      have h1 : ¬ i < k := by omega
      have h2 : ¬ i = k := by omega
      simp [Tab.get, h1, h2]
  induction t generalizing u with
  | nil =>
    cases u with
    | nil => rfl
    | cons x u =>
      obtain ⟨i, w⟩ := x
      have := h i
      simp [Tab.get] at this
      exact absurd this.symm ((Tab.wf_cons d i w u).mp hu).1
  | cons x t ih =>
    obtain ⟨i, v⟩ := x
    obtain ⟨h1, h2, h3⟩ := (Tab.wf_cons d i v t).mp ht
    cases u with
    | nil =>
      have := h i
      simp [Tab.get] at this
      exact absurd this h1
    | cons y u =>
      obtain ⟨j, w⟩ := y
      obtain ⟨g1, g2, g3⟩ := (Tab.wf_cons d j w u).mp hu
      rcases Nat.lt_trichotomy i j with hij | hij | hij
      · have := h i
        rw [low ((j, w) :: u) i (fun e he => by rcases List.mem_cons.mp he with rfl | he; exact hij; exact Nat.lt_trans hij (g2 e he))] at this
        simp [Tab.get] at this
        exact absurd this h1
      · subst hij
        have hv := h i
        simp [Tab.get] at hv
        subst hv
        have : t = u := by
          apply ih u h3 g3
          intro k
          rcases Nat.lt_trichotomy i k with hk | hk | hk
          · have := h k
            simpa [Tab.get, hk] using this
          · subst hk; rw [low t i h2, low u i g2]
          · rw [low t k (fun e he => Nat.lt_trans hk (h2 e he)), low u k (fun e he => Nat.lt_trans hk (g2 e he))]
        rw [this]
      · have := h j
        rw [low ((i, v) :: t) j (fun e he => by rcases List.mem_cons.mp he with rfl | he; exact hij; exact Nat.lt_trans hij (h2 e he))] at this
        simp [Tab.get] at this
        exact absurd this.symm g1

end Sys2Proof
end

