-- ==== Sys2Proof/Laws/State.lean ====
section
/-!
SUPPORT. What each named update of the state leaves as it is, and what the accessors find after it.
-/
namespace Sys2Proof.Machine

/-! ### setCore -/

@[simp] theorem State.setCore_build (s : State) (c : Nat) (k : Core) : (s.setCore c k).build = s.build := rfl
@[simp] theorem State.setCore_pending (s : State) (c : Nat) (k : Core) : (s.setCore c k).pending = s.pending := rfl
@[simp] theorem State.setCore_free (s : State) (c : Nat) (k : Core) : (s.setCore c k).free = s.free := rfl
@[simp] theorem State.setCore_clock (s : State) (c : Nat) (k : Core) : (s.setCore c k).clock = s.clock := rfl
@[simp] theorem State.setCore_frame (s : State) (c : Nat) (k : Core) : (s.setCore c k).frame = s.frame := rfl
@[simp] theorem State.setCore_ticking (s : State) (c : Nat) (k : Core) : (s.setCore c k).ticking = s.ticking := rfl
@[simp] theorem State.setCore_fc (s : State) (c : Nat) (k : Core) : (s.setCore c k).fc = s.fc := rfl
@[simp] theorem State.setCore_sel (s : State) (c : Nat) (k : Core) : (s.setCore c k).sel = s.sel := rfl
@[simp] theorem State.setCore_cutoff (s : State) (c : Nat) (k : Core) : (s.setCore c k).cutoff = s.cutoff := rfl
@[simp] theorem State.setCore_frozen (s : State) (c : Nat) (k : Core) : (s.setCore c k).frozen = s.frozen := rfl
@[simp] theorem State.setCore_rot (s : State) (c : Nat) (k : Core) : (s.setCore c k).rot = s.rot := rfl
@[simp] theorem State.setCore_rotAttr (s : State) (c : Nat) (k : Core) : (s.setCore c k).rotAttr = s.rotAttr := rfl
@[simp] theorem State.setCore_offPend (s : State) (c : Nat) (k : Core) : (s.setCore c k).offPend = s.offPend := rfl
@[simp] theorem State.setCore_bar (s : State) (c : Nat) (k : Core) : (s.setCore c k).bar = s.bar := rfl
@[simp] theorem State.setCore_vfbar (s : State) (c : Nat) (k : Core) : (s.setCore c k).vfbar = s.vfbar := rfl
@[simp] theorem State.setCore_lockFc (s : State) (c : Nat) (k : Core) : (s.setCore c k).lockFc = s.lockFc := rfl
@[simp] theorem State.setCore_clus (s : State) (c : Nat) (k : Core) : (s.setCore c k).clus = s.clus := rfl
@[simp] theorem State.setCore_cells (s : State) (c : Nat) (k : Core) : (s.setCore c k).cells = s.cells := rfl
@[simp] theorem State.setCore_parts (s : State) (c : Nat) (k : Core) : (s.setCore c k).parts = s.parts := rfl
@[simp] theorem State.setCore_strands (s : State) (c : Nat) (k : Core) : (s.setCore c k).strands = s.strands := rfl
@[simp] theorem State.setCore_mem (s : State) (c : Nat) (k : Core) : (s.setCore c k).mem = s.mem := rfl
@[simp] theorem State.setCore_memErr (s : State) (c : Nat) (k : Core) : (s.setCore c k).memErr = s.memErr := rfl
@[simp] theorem State.setCore_filled (s : State) (c : Nat) (k : Core) : (s.setCore c k).filled = s.filled := rfl
@[simp] theorem State.setCore_scratch (s : State) (c : Nat) (k : Core) : (s.setCore c k).scratch = s.scratch := rfl
@[simp] theorem State.setCore_l2 (s : State) (c : Nat) (k : Core) : (s.setCore c k).l2 = s.l2 := rfl
@[simp] theorem State.setCore_dir (s : State) (c : Nat) (k : Core) : (s.setCore c k).dir = s.dir := rfl
@[simp] theorem State.setCore_net (s : State) (c : Nat) (k : Core) : (s.setCore c k).net = s.net := rfl
@[simp] theorem State.setCore_ncNet (s : State) (c : Nat) (k : Core) : (s.setCore c k).ncNet = s.ncNet := rfl
@[simp] theorem State.setCore_ncAsk (s : State) (c : Nat) (k : Core) : (s.setCore c k).ncAsk = s.ncAsk := rfl
@[simp] theorem State.setCore_ncGot (s : State) (c : Nat) (k : Core) : (s.setCore c k).ncGot = s.ncGot := rfl
@[simp] theorem State.setCore_dirP (s : State) (c : Nat) (k : Core) : (s.setCore c k).dirP = s.dirP := rfl
@[simp] theorem State.setCore_dirRes (s : State) (c : Nat) (k : Core) : (s.setCore c k).dirRes = s.dirRes := rfl
@[simp] theorem State.setCore_mshr (s : State) (c : Nat) (k : Core) : (s.setCore c k).mshr = s.mshr := rfl
@[simp] theorem State.setCore_slots (s : State) (c : Nat) (k : Core) : (s.setCore c k).slots = s.slots := rfl
@[simp] theorem State.setCore_drbgD (s : State) (c : Nat) (k : Core) : (s.setCore c k).drbgD = s.drbgD := rfl
@[simp] theorem State.setCore_jobs (s : State) (c : Nat) (k : Core) : (s.setCore c k).jobs = s.jobs := rfl
@[simp] theorem State.setCore_jobNo (s : State) (c : Nat) (k : Core) : (s.setCore c k).jobNo = s.jobNo := rfl
@[simp] theorem State.setCore_qps (s : State) (c : Nat) (k : Core) : (s.setCore c k).qps = s.qps := rfl
@[simp] theorem State.setCore_rrFunc (s : State) (c : Nat) (k : Core) : (s.setCore c k).rrFunc = s.rrFunc := rfl
@[simp] theorem State.setCore_rrQ (s : State) (c : Nat) (k : Core) : (s.setCore c k).rrQ = s.rrQ := rfl
@[simp] theorem State.setCore_reqs (s : State) (c : Nat) (k : Core) : (s.setCore c k).reqs = s.reqs := rfl
@[simp] theorem State.setCore_reqNo (s : State) (c : Nat) (k : Core) : (s.setCore c k).reqNo = s.reqNo := rfl
@[simp] theorem State.setCore_adm (s : State) (c : Nat) (k : Core) : (s.setCore c k).adm = s.adm := rfl
@[simp] theorem State.setCore_admWait (s : State) (c : Nat) (k : Core) : (s.setCore c k).admWait = s.admWait := rfl
@[simp] theorem State.setCore_admDone (s : State) (c : Nat) (k : Core) : (s.setCore c k).admDone = s.admDone := rfl
@[simp] theorem State.setCore_hostMem (s : State) (c : Nat) (k : Core) : (s.setCore c k).hostMem = s.hostMem := rfl
@[simp] theorem State.setCore_msix (s : State) (c : Nat) (k : Core) : (s.setCore c k).msix = s.msix := rfl
@[simp] theorem State.setCore_msixTab (s : State) (c : Nat) (k : Core) : (s.setCore c k).msixTab = s.msixTab := rfl
@[simp] theorem State.setCore_pba (s : State) (c : Nat) (k : Core) : (s.setCore c k).pba = s.pba := rfl
@[simp] theorem State.setCore_rdata (s : State) (c : Nat) (k : Core) : (s.setCore c k).rdata = s.rdata := rfl
@[simp] theorem State.setCore_tch (s : State) (c : Nat) (k : Core) : (s.setCore c k).tch = s.tch := rfl
@[simp] theorem State.setCore_tpin (s : State) (c : Nat) (k : Core) : (s.setCore c k).tpin = s.tpin := rfl
@[simp] theorem State.setCore_shadow (s : State) (c : Nat) (k : Core) : (s.setCore c k).shadow = s.shadow := rfl
@[simp] theorem State.setCore_shd (s : State) (c : Nat) (k : Core) : (s.setCore c k).shd = s.shd := rfl
@[simp] theorem State.setCore_mon (s : State) (c : Nat) (k : Core) : (s.setCore c k).mon = s.mon := rfl
@[simp] theorem State.setCore_monStage (s : State) (c : Nat) (k : Core) : (s.setCore c k).monStage = s.monStage := rfl
@[simp] theorem State.setCore_monClr (s : State) (c : Nat) (k : Core) : (s.setCore c k).monClr = s.monClr := rfl
@[simp] theorem State.setCore_snap (s : State) (c : Nat) (k : Core) : (s.setCore c k).snap = s.snap := rfl
@[simp] theorem State.setCore_alm (s : State) (c : Nat) (k : Core) : (s.setCore c k).alm = s.alm := rfl
@[simp] theorem State.setCore_tamper (s : State) (c : Nat) (k : Core) : (s.setCore c k).tamper = s.tamper := rfl
@[simp] theorem State.setCore_sbk (s : State) (c : Nat) (k : Core) : (s.setCore c k).sbk = s.sbk := rfl
@[simp] theorem State.setCore_pwr (s : State) (c : Nat) (k : Core) : (s.setCore c k).pwr = s.pwr := rfl
@[simp] theorem State.setCore_trngOk (s : State) (c : Nat) (k : Core) : (s.setCore c k).trngOk = s.trngOk := rfl
@[simp] theorem State.setCore_reseeded (s : State) (c : Nat) (k : Core) : (s.setCore c k).reseeded = s.reseeded := rfl
@[simp] theorem State.setCore_clu (s : State) (c : Nat) (k : Core) (y : Nat) : (s.setCore c k).clu y = s.clu y := rfl
@[simp] theorem State.setCore_cell (s : State) (c : Nat) (k : Core) (y : Nat) : (s.setCore c k).cell y = s.cell y := rfl
@[simp] theorem State.setCore_part (s : State) (c : Nat) (k : Core) (y : Nat) : (s.setCore c k).part y = s.part y := rfl
@[simp] theorem State.setCore_strand (s : State) (c : Nat) (k : Core) (y : Nat) : (s.setCore c k).strand y = s.strand y := rfl
@[simp] theorem State.setCore_slot (s : State) (c : Nat) (k : Core) (y : Nat) : (s.setCore c k).slot y = s.slot y := rfl
@[simp] theorem State.setCore_qp (s : State) (c : Nat) (k : Core) (y : Nat) : (s.setCore c k).qp y = s.qp y := rfl
@[simp] theorem State.setCore_req (s : State) (c : Nat) (k : Core) (y : Nat) : (s.setCore c k).req y = s.req y := rfl
@[simp] theorem State.setCore_job (s : State) (c : Nat) (k : Core) (y : Nat) : (s.setCore c k).job y = s.job y := rfl
@[simp] theorem State.setCore_chan (s : State) (c : Nat) (k : Core) (y : Nat) : (s.setCore c k).chan y = s.chan y := rfl
@[simp] theorem State.setCore_monitor (s : State) (c : Nat) (k : Core) (y : Nat) : (s.setCore c k).monitor y = s.monitor y := rfl
@[simp] theorem State.setCore_staging (s : State) (c : Nat) (k : Core) (y : Nat) : (s.setCore c k).staging y = s.staging y := rfl
@[simp] theorem State.setCore_shadowOf (s : State) (c : Nat) (k : Core) (y : Nat) : (s.setCore c k).shadowOf y = s.shadowOf y := rfl
@[simp] theorem State.setCore_rd (s : State) (c : Nat) (k : Core) (nm : RegName) (un ix : Nat) : (s.setCore c k).rd nm un ix = s.rd nm un ix := rfl

/-! ### setClu -/

@[simp] theorem State.setClu_build (s : State) (m : Nat) (k : Clu) : (s.setClu m k).build = s.build := rfl
@[simp] theorem State.setClu_pending (s : State) (m : Nat) (k : Clu) : (s.setClu m k).pending = s.pending := rfl
@[simp] theorem State.setClu_free (s : State) (m : Nat) (k : Clu) : (s.setClu m k).free = s.free := rfl
@[simp] theorem State.setClu_clock (s : State) (m : Nat) (k : Clu) : (s.setClu m k).clock = s.clock := rfl
@[simp] theorem State.setClu_frame (s : State) (m : Nat) (k : Clu) : (s.setClu m k).frame = s.frame := rfl
@[simp] theorem State.setClu_ticking (s : State) (m : Nat) (k : Clu) : (s.setClu m k).ticking = s.ticking := rfl
@[simp] theorem State.setClu_fc (s : State) (m : Nat) (k : Clu) : (s.setClu m k).fc = s.fc := rfl
@[simp] theorem State.setClu_sel (s : State) (m : Nat) (k : Clu) : (s.setClu m k).sel = s.sel := rfl
@[simp] theorem State.setClu_cutoff (s : State) (m : Nat) (k : Clu) : (s.setClu m k).cutoff = s.cutoff := rfl
@[simp] theorem State.setClu_frozen (s : State) (m : Nat) (k : Clu) : (s.setClu m k).frozen = s.frozen := rfl
@[simp] theorem State.setClu_rot (s : State) (m : Nat) (k : Clu) : (s.setClu m k).rot = s.rot := rfl
@[simp] theorem State.setClu_rotAttr (s : State) (m : Nat) (k : Clu) : (s.setClu m k).rotAttr = s.rotAttr := rfl
@[simp] theorem State.setClu_offPend (s : State) (m : Nat) (k : Clu) : (s.setClu m k).offPend = s.offPend := rfl
@[simp] theorem State.setClu_bar (s : State) (m : Nat) (k : Clu) : (s.setClu m k).bar = s.bar := rfl
@[simp] theorem State.setClu_vfbar (s : State) (m : Nat) (k : Clu) : (s.setClu m k).vfbar = s.vfbar := rfl
@[simp] theorem State.setClu_lockFc (s : State) (m : Nat) (k : Clu) : (s.setClu m k).lockFc = s.lockFc := rfl
@[simp] theorem State.setClu_cores (s : State) (m : Nat) (k : Clu) : (s.setClu m k).cores = s.cores := rfl
@[simp] theorem State.setClu_cells (s : State) (m : Nat) (k : Clu) : (s.setClu m k).cells = s.cells := rfl
@[simp] theorem State.setClu_parts (s : State) (m : Nat) (k : Clu) : (s.setClu m k).parts = s.parts := rfl
@[simp] theorem State.setClu_strands (s : State) (m : Nat) (k : Clu) : (s.setClu m k).strands = s.strands := rfl
@[simp] theorem State.setClu_mem (s : State) (m : Nat) (k : Clu) : (s.setClu m k).mem = s.mem := rfl
@[simp] theorem State.setClu_memErr (s : State) (m : Nat) (k : Clu) : (s.setClu m k).memErr = s.memErr := rfl
@[simp] theorem State.setClu_filled (s : State) (m : Nat) (k : Clu) : (s.setClu m k).filled = s.filled := rfl
@[simp] theorem State.setClu_scratch (s : State) (m : Nat) (k : Clu) : (s.setClu m k).scratch = s.scratch := rfl
@[simp] theorem State.setClu_l2 (s : State) (m : Nat) (k : Clu) : (s.setClu m k).l2 = s.l2 := rfl
@[simp] theorem State.setClu_dir (s : State) (m : Nat) (k : Clu) : (s.setClu m k).dir = s.dir := rfl
@[simp] theorem State.setClu_net (s : State) (m : Nat) (k : Clu) : (s.setClu m k).net = s.net := rfl
@[simp] theorem State.setClu_ncNet (s : State) (m : Nat) (k : Clu) : (s.setClu m k).ncNet = s.ncNet := rfl
@[simp] theorem State.setClu_ncAsk (s : State) (m : Nat) (k : Clu) : (s.setClu m k).ncAsk = s.ncAsk := rfl
@[simp] theorem State.setClu_ncGot (s : State) (m : Nat) (k : Clu) : (s.setClu m k).ncGot = s.ncGot := rfl
@[simp] theorem State.setClu_dirP (s : State) (m : Nat) (k : Clu) : (s.setClu m k).dirP = s.dirP := rfl
@[simp] theorem State.setClu_dirRes (s : State) (m : Nat) (k : Clu) : (s.setClu m k).dirRes = s.dirRes := rfl
@[simp] theorem State.setClu_mshr (s : State) (m : Nat) (k : Clu) : (s.setClu m k).mshr = s.mshr := rfl
@[simp] theorem State.setClu_slots (s : State) (m : Nat) (k : Clu) : (s.setClu m k).slots = s.slots := rfl
@[simp] theorem State.setClu_drbgD (s : State) (m : Nat) (k : Clu) : (s.setClu m k).drbgD = s.drbgD := rfl
@[simp] theorem State.setClu_jobs (s : State) (m : Nat) (k : Clu) : (s.setClu m k).jobs = s.jobs := rfl
@[simp] theorem State.setClu_jobNo (s : State) (m : Nat) (k : Clu) : (s.setClu m k).jobNo = s.jobNo := rfl
@[simp] theorem State.setClu_qps (s : State) (m : Nat) (k : Clu) : (s.setClu m k).qps = s.qps := rfl
@[simp] theorem State.setClu_rrFunc (s : State) (m : Nat) (k : Clu) : (s.setClu m k).rrFunc = s.rrFunc := rfl
@[simp] theorem State.setClu_rrQ (s : State) (m : Nat) (k : Clu) : (s.setClu m k).rrQ = s.rrQ := rfl
@[simp] theorem State.setClu_reqs (s : State) (m : Nat) (k : Clu) : (s.setClu m k).reqs = s.reqs := rfl
@[simp] theorem State.setClu_reqNo (s : State) (m : Nat) (k : Clu) : (s.setClu m k).reqNo = s.reqNo := rfl
@[simp] theorem State.setClu_adm (s : State) (m : Nat) (k : Clu) : (s.setClu m k).adm = s.adm := rfl
@[simp] theorem State.setClu_admWait (s : State) (m : Nat) (k : Clu) : (s.setClu m k).admWait = s.admWait := rfl
@[simp] theorem State.setClu_admDone (s : State) (m : Nat) (k : Clu) : (s.setClu m k).admDone = s.admDone := rfl
@[simp] theorem State.setClu_hostMem (s : State) (m : Nat) (k : Clu) : (s.setClu m k).hostMem = s.hostMem := rfl
@[simp] theorem State.setClu_msix (s : State) (m : Nat) (k : Clu) : (s.setClu m k).msix = s.msix := rfl
@[simp] theorem State.setClu_msixTab (s : State) (m : Nat) (k : Clu) : (s.setClu m k).msixTab = s.msixTab := rfl
@[simp] theorem State.setClu_pba (s : State) (m : Nat) (k : Clu) : (s.setClu m k).pba = s.pba := rfl
@[simp] theorem State.setClu_rdata (s : State) (m : Nat) (k : Clu) : (s.setClu m k).rdata = s.rdata := rfl
@[simp] theorem State.setClu_tch (s : State) (m : Nat) (k : Clu) : (s.setClu m k).tch = s.tch := rfl
@[simp] theorem State.setClu_tpin (s : State) (m : Nat) (k : Clu) : (s.setClu m k).tpin = s.tpin := rfl
@[simp] theorem State.setClu_shadow (s : State) (m : Nat) (k : Clu) : (s.setClu m k).shadow = s.shadow := rfl
@[simp] theorem State.setClu_shd (s : State) (m : Nat) (k : Clu) : (s.setClu m k).shd = s.shd := rfl
@[simp] theorem State.setClu_mon (s : State) (m : Nat) (k : Clu) : (s.setClu m k).mon = s.mon := rfl
@[simp] theorem State.setClu_monStage (s : State) (m : Nat) (k : Clu) : (s.setClu m k).monStage = s.monStage := rfl
@[simp] theorem State.setClu_monClr (s : State) (m : Nat) (k : Clu) : (s.setClu m k).monClr = s.monClr := rfl
@[simp] theorem State.setClu_snap (s : State) (m : Nat) (k : Clu) : (s.setClu m k).snap = s.snap := rfl
@[simp] theorem State.setClu_alm (s : State) (m : Nat) (k : Clu) : (s.setClu m k).alm = s.alm := rfl
@[simp] theorem State.setClu_tamper (s : State) (m : Nat) (k : Clu) : (s.setClu m k).tamper = s.tamper := rfl
@[simp] theorem State.setClu_sbk (s : State) (m : Nat) (k : Clu) : (s.setClu m k).sbk = s.sbk := rfl
@[simp] theorem State.setClu_pwr (s : State) (m : Nat) (k : Clu) : (s.setClu m k).pwr = s.pwr := rfl
@[simp] theorem State.setClu_trngOk (s : State) (m : Nat) (k : Clu) : (s.setClu m k).trngOk = s.trngOk := rfl
@[simp] theorem State.setClu_reseeded (s : State) (m : Nat) (k : Clu) : (s.setClu m k).reseeded = s.reseeded := rfl
@[simp] theorem State.setClu_core (s : State) (m : Nat) (k : Clu) (y : Nat) : (s.setClu m k).core y = s.core y := rfl
@[simp] theorem State.setClu_cell (s : State) (m : Nat) (k : Clu) (y : Nat) : (s.setClu m k).cell y = s.cell y := rfl
@[simp] theorem State.setClu_part (s : State) (m : Nat) (k : Clu) (y : Nat) : (s.setClu m k).part y = s.part y := rfl
@[simp] theorem State.setClu_strand (s : State) (m : Nat) (k : Clu) (y : Nat) : (s.setClu m k).strand y = s.strand y := rfl
@[simp] theorem State.setClu_slot (s : State) (m : Nat) (k : Clu) (y : Nat) : (s.setClu m k).slot y = s.slot y := rfl
@[simp] theorem State.setClu_qp (s : State) (m : Nat) (k : Clu) (y : Nat) : (s.setClu m k).qp y = s.qp y := rfl
@[simp] theorem State.setClu_req (s : State) (m : Nat) (k : Clu) (y : Nat) : (s.setClu m k).req y = s.req y := rfl
@[simp] theorem State.setClu_job (s : State) (m : Nat) (k : Clu) (y : Nat) : (s.setClu m k).job y = s.job y := rfl
@[simp] theorem State.setClu_chan (s : State) (m : Nat) (k : Clu) (y : Nat) : (s.setClu m k).chan y = s.chan y := rfl
@[simp] theorem State.setClu_monitor (s : State) (m : Nat) (k : Clu) (y : Nat) : (s.setClu m k).monitor y = s.monitor y := rfl
@[simp] theorem State.setClu_staging (s : State) (m : Nat) (k : Clu) (y : Nat) : (s.setClu m k).staging y = s.staging y := rfl
@[simp] theorem State.setClu_shadowOf (s : State) (m : Nat) (k : Clu) (y : Nat) : (s.setClu m k).shadowOf y = s.shadowOf y := rfl
@[simp] theorem State.setClu_rd (s : State) (m : Nat) (k : Clu) (nm : RegName) (un ix : Nat) : (s.setClu m k).rd nm un ix = s.rd nm un ix := rfl

/-! ### setCell -/

@[simp] theorem State.setCell_build (s : State) (n : Nat) (k : Cell) : (s.setCell n k).build = s.build := rfl
@[simp] theorem State.setCell_pending (s : State) (n : Nat) (k : Cell) : (s.setCell n k).pending = s.pending := rfl
@[simp] theorem State.setCell_free (s : State) (n : Nat) (k : Cell) : (s.setCell n k).free = s.free := rfl
@[simp] theorem State.setCell_clock (s : State) (n : Nat) (k : Cell) : (s.setCell n k).clock = s.clock := rfl
@[simp] theorem State.setCell_frame (s : State) (n : Nat) (k : Cell) : (s.setCell n k).frame = s.frame := rfl
@[simp] theorem State.setCell_ticking (s : State) (n : Nat) (k : Cell) : (s.setCell n k).ticking = s.ticking := rfl
@[simp] theorem State.setCell_fc (s : State) (n : Nat) (k : Cell) : (s.setCell n k).fc = s.fc := rfl
@[simp] theorem State.setCell_sel (s : State) (n : Nat) (k : Cell) : (s.setCell n k).sel = s.sel := rfl
@[simp] theorem State.setCell_cutoff (s : State) (n : Nat) (k : Cell) : (s.setCell n k).cutoff = s.cutoff := rfl
@[simp] theorem State.setCell_frozen (s : State) (n : Nat) (k : Cell) : (s.setCell n k).frozen = s.frozen := rfl
@[simp] theorem State.setCell_rot (s : State) (n : Nat) (k : Cell) : (s.setCell n k).rot = s.rot := rfl
@[simp] theorem State.setCell_rotAttr (s : State) (n : Nat) (k : Cell) : (s.setCell n k).rotAttr = s.rotAttr := rfl
@[simp] theorem State.setCell_offPend (s : State) (n : Nat) (k : Cell) : (s.setCell n k).offPend = s.offPend := rfl
@[simp] theorem State.setCell_bar (s : State) (n : Nat) (k : Cell) : (s.setCell n k).bar = s.bar := rfl
@[simp] theorem State.setCell_vfbar (s : State) (n : Nat) (k : Cell) : (s.setCell n k).vfbar = s.vfbar := rfl
@[simp] theorem State.setCell_lockFc (s : State) (n : Nat) (k : Cell) : (s.setCell n k).lockFc = s.lockFc := rfl
@[simp] theorem State.setCell_cores (s : State) (n : Nat) (k : Cell) : (s.setCell n k).cores = s.cores := rfl
@[simp] theorem State.setCell_clus (s : State) (n : Nat) (k : Cell) : (s.setCell n k).clus = s.clus := rfl
@[simp] theorem State.setCell_parts (s : State) (n : Nat) (k : Cell) : (s.setCell n k).parts = s.parts := rfl
@[simp] theorem State.setCell_strands (s : State) (n : Nat) (k : Cell) : (s.setCell n k).strands = s.strands := rfl
@[simp] theorem State.setCell_mem (s : State) (n : Nat) (k : Cell) : (s.setCell n k).mem = s.mem := rfl
@[simp] theorem State.setCell_memErr (s : State) (n : Nat) (k : Cell) : (s.setCell n k).memErr = s.memErr := rfl
@[simp] theorem State.setCell_filled (s : State) (n : Nat) (k : Cell) : (s.setCell n k).filled = s.filled := rfl
@[simp] theorem State.setCell_scratch (s : State) (n : Nat) (k : Cell) : (s.setCell n k).scratch = s.scratch := rfl
@[simp] theorem State.setCell_l2 (s : State) (n : Nat) (k : Cell) : (s.setCell n k).l2 = s.l2 := rfl
@[simp] theorem State.setCell_dir (s : State) (n : Nat) (k : Cell) : (s.setCell n k).dir = s.dir := rfl
@[simp] theorem State.setCell_net (s : State) (n : Nat) (k : Cell) : (s.setCell n k).net = s.net := rfl
@[simp] theorem State.setCell_ncNet (s : State) (n : Nat) (k : Cell) : (s.setCell n k).ncNet = s.ncNet := rfl
@[simp] theorem State.setCell_ncAsk (s : State) (n : Nat) (k : Cell) : (s.setCell n k).ncAsk = s.ncAsk := rfl
@[simp] theorem State.setCell_ncGot (s : State) (n : Nat) (k : Cell) : (s.setCell n k).ncGot = s.ncGot := rfl
@[simp] theorem State.setCell_dirP (s : State) (n : Nat) (k : Cell) : (s.setCell n k).dirP = s.dirP := rfl
@[simp] theorem State.setCell_dirRes (s : State) (n : Nat) (k : Cell) : (s.setCell n k).dirRes = s.dirRes := rfl
@[simp] theorem State.setCell_mshr (s : State) (n : Nat) (k : Cell) : (s.setCell n k).mshr = s.mshr := rfl
@[simp] theorem State.setCell_slots (s : State) (n : Nat) (k : Cell) : (s.setCell n k).slots = s.slots := rfl
@[simp] theorem State.setCell_drbgD (s : State) (n : Nat) (k : Cell) : (s.setCell n k).drbgD = s.drbgD := rfl
@[simp] theorem State.setCell_jobs (s : State) (n : Nat) (k : Cell) : (s.setCell n k).jobs = s.jobs := rfl
@[simp] theorem State.setCell_jobNo (s : State) (n : Nat) (k : Cell) : (s.setCell n k).jobNo = s.jobNo := rfl
@[simp] theorem State.setCell_qps (s : State) (n : Nat) (k : Cell) : (s.setCell n k).qps = s.qps := rfl
@[simp] theorem State.setCell_rrFunc (s : State) (n : Nat) (k : Cell) : (s.setCell n k).rrFunc = s.rrFunc := rfl
@[simp] theorem State.setCell_rrQ (s : State) (n : Nat) (k : Cell) : (s.setCell n k).rrQ = s.rrQ := rfl
@[simp] theorem State.setCell_reqs (s : State) (n : Nat) (k : Cell) : (s.setCell n k).reqs = s.reqs := rfl
@[simp] theorem State.setCell_reqNo (s : State) (n : Nat) (k : Cell) : (s.setCell n k).reqNo = s.reqNo := rfl
@[simp] theorem State.setCell_adm (s : State) (n : Nat) (k : Cell) : (s.setCell n k).adm = s.adm := rfl
@[simp] theorem State.setCell_admWait (s : State) (n : Nat) (k : Cell) : (s.setCell n k).admWait = s.admWait := rfl
@[simp] theorem State.setCell_admDone (s : State) (n : Nat) (k : Cell) : (s.setCell n k).admDone = s.admDone := rfl
@[simp] theorem State.setCell_hostMem (s : State) (n : Nat) (k : Cell) : (s.setCell n k).hostMem = s.hostMem := rfl
@[simp] theorem State.setCell_msix (s : State) (n : Nat) (k : Cell) : (s.setCell n k).msix = s.msix := rfl
@[simp] theorem State.setCell_msixTab (s : State) (n : Nat) (k : Cell) : (s.setCell n k).msixTab = s.msixTab := rfl
@[simp] theorem State.setCell_pba (s : State) (n : Nat) (k : Cell) : (s.setCell n k).pba = s.pba := rfl
@[simp] theorem State.setCell_rdata (s : State) (n : Nat) (k : Cell) : (s.setCell n k).rdata = s.rdata := rfl
@[simp] theorem State.setCell_tch (s : State) (n : Nat) (k : Cell) : (s.setCell n k).tch = s.tch := rfl
@[simp] theorem State.setCell_tpin (s : State) (n : Nat) (k : Cell) : (s.setCell n k).tpin = s.tpin := rfl
@[simp] theorem State.setCell_shadow (s : State) (n : Nat) (k : Cell) : (s.setCell n k).shadow = s.shadow := rfl
@[simp] theorem State.setCell_shd (s : State) (n : Nat) (k : Cell) : (s.setCell n k).shd = s.shd := rfl
@[simp] theorem State.setCell_mon (s : State) (n : Nat) (k : Cell) : (s.setCell n k).mon = s.mon := rfl
@[simp] theorem State.setCell_monStage (s : State) (n : Nat) (k : Cell) : (s.setCell n k).monStage = s.monStage := rfl
@[simp] theorem State.setCell_monClr (s : State) (n : Nat) (k : Cell) : (s.setCell n k).monClr = s.monClr := rfl
@[simp] theorem State.setCell_snap (s : State) (n : Nat) (k : Cell) : (s.setCell n k).snap = s.snap := rfl
@[simp] theorem State.setCell_alm (s : State) (n : Nat) (k : Cell) : (s.setCell n k).alm = s.alm := rfl
@[simp] theorem State.setCell_tamper (s : State) (n : Nat) (k : Cell) : (s.setCell n k).tamper = s.tamper := rfl
@[simp] theorem State.setCell_sbk (s : State) (n : Nat) (k : Cell) : (s.setCell n k).sbk = s.sbk := rfl
@[simp] theorem State.setCell_pwr (s : State) (n : Nat) (k : Cell) : (s.setCell n k).pwr = s.pwr := rfl
@[simp] theorem State.setCell_trngOk (s : State) (n : Nat) (k : Cell) : (s.setCell n k).trngOk = s.trngOk := rfl
@[simp] theorem State.setCell_reseeded (s : State) (n : Nat) (k : Cell) : (s.setCell n k).reseeded = s.reseeded := rfl
@[simp] theorem State.setCell_core (s : State) (n : Nat) (k : Cell) (y : Nat) : (s.setCell n k).core y = s.core y := rfl
@[simp] theorem State.setCell_clu (s : State) (n : Nat) (k : Cell) (y : Nat) : (s.setCell n k).clu y = s.clu y := rfl
@[simp] theorem State.setCell_part (s : State) (n : Nat) (k : Cell) (y : Nat) : (s.setCell n k).part y = s.part y := rfl
@[simp] theorem State.setCell_strand (s : State) (n : Nat) (k : Cell) (y : Nat) : (s.setCell n k).strand y = s.strand y := rfl
@[simp] theorem State.setCell_slot (s : State) (n : Nat) (k : Cell) (y : Nat) : (s.setCell n k).slot y = s.slot y := rfl
@[simp] theorem State.setCell_qp (s : State) (n : Nat) (k : Cell) (y : Nat) : (s.setCell n k).qp y = s.qp y := rfl
@[simp] theorem State.setCell_req (s : State) (n : Nat) (k : Cell) (y : Nat) : (s.setCell n k).req y = s.req y := rfl
@[simp] theorem State.setCell_job (s : State) (n : Nat) (k : Cell) (y : Nat) : (s.setCell n k).job y = s.job y := rfl
@[simp] theorem State.setCell_chan (s : State) (n : Nat) (k : Cell) (y : Nat) : (s.setCell n k).chan y = s.chan y := rfl
@[simp] theorem State.setCell_monitor (s : State) (n : Nat) (k : Cell) (y : Nat) : (s.setCell n k).monitor y = s.monitor y := rfl
@[simp] theorem State.setCell_staging (s : State) (n : Nat) (k : Cell) (y : Nat) : (s.setCell n k).staging y = s.staging y := rfl
@[simp] theorem State.setCell_shadowOf (s : State) (n : Nat) (k : Cell) (y : Nat) : (s.setCell n k).shadowOf y = s.shadowOf y := rfl
@[simp] theorem State.setCell_rd (s : State) (n : Nat) (k : Cell) (nm : RegName) (un ix : Nat) : (s.setCell n k).rd nm un ix = s.rd nm un ix := rfl

/-! ### setPart -/

@[simp] theorem State.setPart_build (s : State) (p : Nat) (k : Part) : (s.setPart p k).build = s.build := rfl
@[simp] theorem State.setPart_pending (s : State) (p : Nat) (k : Part) : (s.setPart p k).pending = s.pending := rfl
@[simp] theorem State.setPart_free (s : State) (p : Nat) (k : Part) : (s.setPart p k).free = s.free := rfl
@[simp] theorem State.setPart_clock (s : State) (p : Nat) (k : Part) : (s.setPart p k).clock = s.clock := rfl
@[simp] theorem State.setPart_frame (s : State) (p : Nat) (k : Part) : (s.setPart p k).frame = s.frame := rfl
@[simp] theorem State.setPart_ticking (s : State) (p : Nat) (k : Part) : (s.setPart p k).ticking = s.ticking := rfl
@[simp] theorem State.setPart_fc (s : State) (p : Nat) (k : Part) : (s.setPart p k).fc = s.fc := rfl
@[simp] theorem State.setPart_sel (s : State) (p : Nat) (k : Part) : (s.setPart p k).sel = s.sel := rfl
@[simp] theorem State.setPart_cutoff (s : State) (p : Nat) (k : Part) : (s.setPart p k).cutoff = s.cutoff := rfl
@[simp] theorem State.setPart_frozen (s : State) (p : Nat) (k : Part) : (s.setPart p k).frozen = s.frozen := rfl
@[simp] theorem State.setPart_rot (s : State) (p : Nat) (k : Part) : (s.setPart p k).rot = s.rot := rfl
@[simp] theorem State.setPart_rotAttr (s : State) (p : Nat) (k : Part) : (s.setPart p k).rotAttr = s.rotAttr := rfl
@[simp] theorem State.setPart_offPend (s : State) (p : Nat) (k : Part) : (s.setPart p k).offPend = s.offPend := rfl
@[simp] theorem State.setPart_bar (s : State) (p : Nat) (k : Part) : (s.setPart p k).bar = s.bar := rfl
@[simp] theorem State.setPart_vfbar (s : State) (p : Nat) (k : Part) : (s.setPart p k).vfbar = s.vfbar := rfl
@[simp] theorem State.setPart_lockFc (s : State) (p : Nat) (k : Part) : (s.setPart p k).lockFc = s.lockFc := rfl
@[simp] theorem State.setPart_cores (s : State) (p : Nat) (k : Part) : (s.setPart p k).cores = s.cores := rfl
@[simp] theorem State.setPart_clus (s : State) (p : Nat) (k : Part) : (s.setPart p k).clus = s.clus := rfl
@[simp] theorem State.setPart_cells (s : State) (p : Nat) (k : Part) : (s.setPart p k).cells = s.cells := rfl
@[simp] theorem State.setPart_strands (s : State) (p : Nat) (k : Part) : (s.setPart p k).strands = s.strands := rfl
@[simp] theorem State.setPart_mem (s : State) (p : Nat) (k : Part) : (s.setPart p k).mem = s.mem := rfl
@[simp] theorem State.setPart_memErr (s : State) (p : Nat) (k : Part) : (s.setPart p k).memErr = s.memErr := rfl
@[simp] theorem State.setPart_filled (s : State) (p : Nat) (k : Part) : (s.setPart p k).filled = s.filled := rfl
@[simp] theorem State.setPart_scratch (s : State) (p : Nat) (k : Part) : (s.setPart p k).scratch = s.scratch := rfl
@[simp] theorem State.setPart_l2 (s : State) (p : Nat) (k : Part) : (s.setPart p k).l2 = s.l2 := rfl
@[simp] theorem State.setPart_dir (s : State) (p : Nat) (k : Part) : (s.setPart p k).dir = s.dir := rfl
@[simp] theorem State.setPart_net (s : State) (p : Nat) (k : Part) : (s.setPart p k).net = s.net := rfl
@[simp] theorem State.setPart_ncNet (s : State) (p : Nat) (k : Part) : (s.setPart p k).ncNet = s.ncNet := rfl
@[simp] theorem State.setPart_ncAsk (s : State) (p : Nat) (k : Part) : (s.setPart p k).ncAsk = s.ncAsk := rfl
@[simp] theorem State.setPart_ncGot (s : State) (p : Nat) (k : Part) : (s.setPart p k).ncGot = s.ncGot := rfl
@[simp] theorem State.setPart_dirP (s : State) (p : Nat) (k : Part) : (s.setPart p k).dirP = s.dirP := rfl
@[simp] theorem State.setPart_dirRes (s : State) (p : Nat) (k : Part) : (s.setPart p k).dirRes = s.dirRes := rfl
@[simp] theorem State.setPart_mshr (s : State) (p : Nat) (k : Part) : (s.setPart p k).mshr = s.mshr := rfl
@[simp] theorem State.setPart_slots (s : State) (p : Nat) (k : Part) : (s.setPart p k).slots = s.slots := rfl
@[simp] theorem State.setPart_drbgD (s : State) (p : Nat) (k : Part) : (s.setPart p k).drbgD = s.drbgD := rfl
@[simp] theorem State.setPart_jobs (s : State) (p : Nat) (k : Part) : (s.setPart p k).jobs = s.jobs := rfl
@[simp] theorem State.setPart_jobNo (s : State) (p : Nat) (k : Part) : (s.setPart p k).jobNo = s.jobNo := rfl
@[simp] theorem State.setPart_qps (s : State) (p : Nat) (k : Part) : (s.setPart p k).qps = s.qps := rfl
@[simp] theorem State.setPart_rrFunc (s : State) (p : Nat) (k : Part) : (s.setPart p k).rrFunc = s.rrFunc := rfl
@[simp] theorem State.setPart_rrQ (s : State) (p : Nat) (k : Part) : (s.setPart p k).rrQ = s.rrQ := rfl
@[simp] theorem State.setPart_reqs (s : State) (p : Nat) (k : Part) : (s.setPart p k).reqs = s.reqs := rfl
@[simp] theorem State.setPart_reqNo (s : State) (p : Nat) (k : Part) : (s.setPart p k).reqNo = s.reqNo := rfl
@[simp] theorem State.setPart_adm (s : State) (p : Nat) (k : Part) : (s.setPart p k).adm = s.adm := rfl
@[simp] theorem State.setPart_admWait (s : State) (p : Nat) (k : Part) : (s.setPart p k).admWait = s.admWait := rfl
@[simp] theorem State.setPart_admDone (s : State) (p : Nat) (k : Part) : (s.setPart p k).admDone = s.admDone := rfl
@[simp] theorem State.setPart_hostMem (s : State) (p : Nat) (k : Part) : (s.setPart p k).hostMem = s.hostMem := rfl
@[simp] theorem State.setPart_msix (s : State) (p : Nat) (k : Part) : (s.setPart p k).msix = s.msix := rfl
@[simp] theorem State.setPart_msixTab (s : State) (p : Nat) (k : Part) : (s.setPart p k).msixTab = s.msixTab := rfl
@[simp] theorem State.setPart_pba (s : State) (p : Nat) (k : Part) : (s.setPart p k).pba = s.pba := rfl
@[simp] theorem State.setPart_rdata (s : State) (p : Nat) (k : Part) : (s.setPart p k).rdata = s.rdata := rfl
@[simp] theorem State.setPart_tch (s : State) (p : Nat) (k : Part) : (s.setPart p k).tch = s.tch := rfl
@[simp] theorem State.setPart_tpin (s : State) (p : Nat) (k : Part) : (s.setPart p k).tpin = s.tpin := rfl
@[simp] theorem State.setPart_shadow (s : State) (p : Nat) (k : Part) : (s.setPart p k).shadow = s.shadow := rfl
@[simp] theorem State.setPart_shd (s : State) (p : Nat) (k : Part) : (s.setPart p k).shd = s.shd := rfl
@[simp] theorem State.setPart_mon (s : State) (p : Nat) (k : Part) : (s.setPart p k).mon = s.mon := rfl
@[simp] theorem State.setPart_monStage (s : State) (p : Nat) (k : Part) : (s.setPart p k).monStage = s.monStage := rfl
@[simp] theorem State.setPart_monClr (s : State) (p : Nat) (k : Part) : (s.setPart p k).monClr = s.monClr := rfl
@[simp] theorem State.setPart_snap (s : State) (p : Nat) (k : Part) : (s.setPart p k).snap = s.snap := rfl
@[simp] theorem State.setPart_alm (s : State) (p : Nat) (k : Part) : (s.setPart p k).alm = s.alm := rfl
@[simp] theorem State.setPart_tamper (s : State) (p : Nat) (k : Part) : (s.setPart p k).tamper = s.tamper := rfl
@[simp] theorem State.setPart_sbk (s : State) (p : Nat) (k : Part) : (s.setPart p k).sbk = s.sbk := rfl
@[simp] theorem State.setPart_pwr (s : State) (p : Nat) (k : Part) : (s.setPart p k).pwr = s.pwr := rfl
@[simp] theorem State.setPart_trngOk (s : State) (p : Nat) (k : Part) : (s.setPart p k).trngOk = s.trngOk := rfl
@[simp] theorem State.setPart_reseeded (s : State) (p : Nat) (k : Part) : (s.setPart p k).reseeded = s.reseeded := rfl
@[simp] theorem State.setPart_core (s : State) (p : Nat) (k : Part) (y : Nat) : (s.setPart p k).core y = s.core y := rfl
@[simp] theorem State.setPart_clu (s : State) (p : Nat) (k : Part) (y : Nat) : (s.setPart p k).clu y = s.clu y := rfl
@[simp] theorem State.setPart_cell (s : State) (p : Nat) (k : Part) (y : Nat) : (s.setPart p k).cell y = s.cell y := rfl
@[simp] theorem State.setPart_strand (s : State) (p : Nat) (k : Part) (y : Nat) : (s.setPart p k).strand y = s.strand y := rfl
@[simp] theorem State.setPart_slot (s : State) (p : Nat) (k : Part) (y : Nat) : (s.setPart p k).slot y = s.slot y := rfl
@[simp] theorem State.setPart_qp (s : State) (p : Nat) (k : Part) (y : Nat) : (s.setPart p k).qp y = s.qp y := rfl
@[simp] theorem State.setPart_req (s : State) (p : Nat) (k : Part) (y : Nat) : (s.setPart p k).req y = s.req y := rfl
@[simp] theorem State.setPart_job (s : State) (p : Nat) (k : Part) (y : Nat) : (s.setPart p k).job y = s.job y := rfl
@[simp] theorem State.setPart_chan (s : State) (p : Nat) (k : Part) (y : Nat) : (s.setPart p k).chan y = s.chan y := rfl
@[simp] theorem State.setPart_monitor (s : State) (p : Nat) (k : Part) (y : Nat) : (s.setPart p k).monitor y = s.monitor y := rfl
@[simp] theorem State.setPart_staging (s : State) (p : Nat) (k : Part) (y : Nat) : (s.setPart p k).staging y = s.staging y := rfl
@[simp] theorem State.setPart_shadowOf (s : State) (p : Nat) (k : Part) (y : Nat) : (s.setPart p k).shadowOf y = s.shadowOf y := rfl
@[simp] theorem State.setPart_rd (s : State) (p : Nat) (k : Part) (nm : RegName) (un ix : Nat) : (s.setPart p k).rd nm un ix = s.rd nm un ix := rfl

/-! ### modStrand -/

@[simp] theorem State.modStrand_build (s : State) (j : Nat) (f : Strand → Strand) : (s.modStrand j f).build = s.build := rfl
@[simp] theorem State.modStrand_pending (s : State) (j : Nat) (f : Strand → Strand) : (s.modStrand j f).pending = s.pending := rfl
@[simp] theorem State.modStrand_free (s : State) (j : Nat) (f : Strand → Strand) : (s.modStrand j f).free = s.free := rfl
@[simp] theorem State.modStrand_clock (s : State) (j : Nat) (f : Strand → Strand) : (s.modStrand j f).clock = s.clock := rfl
@[simp] theorem State.modStrand_frame (s : State) (j : Nat) (f : Strand → Strand) : (s.modStrand j f).frame = s.frame := rfl
@[simp] theorem State.modStrand_ticking (s : State) (j : Nat) (f : Strand → Strand) : (s.modStrand j f).ticking = s.ticking := rfl
@[simp] theorem State.modStrand_fc (s : State) (j : Nat) (f : Strand → Strand) : (s.modStrand j f).fc = s.fc := rfl
@[simp] theorem State.modStrand_sel (s : State) (j : Nat) (f : Strand → Strand) : (s.modStrand j f).sel = s.sel := rfl
@[simp] theorem State.modStrand_cutoff (s : State) (j : Nat) (f : Strand → Strand) : (s.modStrand j f).cutoff = s.cutoff := rfl
@[simp] theorem State.modStrand_frozen (s : State) (j : Nat) (f : Strand → Strand) : (s.modStrand j f).frozen = s.frozen := rfl
@[simp] theorem State.modStrand_rot (s : State) (j : Nat) (f : Strand → Strand) : (s.modStrand j f).rot = s.rot := rfl
@[simp] theorem State.modStrand_rotAttr (s : State) (j : Nat) (f : Strand → Strand) : (s.modStrand j f).rotAttr = s.rotAttr := rfl
@[simp] theorem State.modStrand_offPend (s : State) (j : Nat) (f : Strand → Strand) : (s.modStrand j f).offPend = s.offPend := rfl
@[simp] theorem State.modStrand_bar (s : State) (j : Nat) (f : Strand → Strand) : (s.modStrand j f).bar = s.bar := rfl
@[simp] theorem State.modStrand_vfbar (s : State) (j : Nat) (f : Strand → Strand) : (s.modStrand j f).vfbar = s.vfbar := rfl
@[simp] theorem State.modStrand_lockFc (s : State) (j : Nat) (f : Strand → Strand) : (s.modStrand j f).lockFc = s.lockFc := rfl
@[simp] theorem State.modStrand_cores (s : State) (j : Nat) (f : Strand → Strand) : (s.modStrand j f).cores = s.cores := rfl
@[simp] theorem State.modStrand_clus (s : State) (j : Nat) (f : Strand → Strand) : (s.modStrand j f).clus = s.clus := rfl
@[simp] theorem State.modStrand_cells (s : State) (j : Nat) (f : Strand → Strand) : (s.modStrand j f).cells = s.cells := rfl
@[simp] theorem State.modStrand_parts (s : State) (j : Nat) (f : Strand → Strand) : (s.modStrand j f).parts = s.parts := rfl
@[simp] theorem State.modStrand_mem (s : State) (j : Nat) (f : Strand → Strand) : (s.modStrand j f).mem = s.mem := rfl
@[simp] theorem State.modStrand_memErr (s : State) (j : Nat) (f : Strand → Strand) : (s.modStrand j f).memErr = s.memErr := rfl
@[simp] theorem State.modStrand_filled (s : State) (j : Nat) (f : Strand → Strand) : (s.modStrand j f).filled = s.filled := rfl
@[simp] theorem State.modStrand_scratch (s : State) (j : Nat) (f : Strand → Strand) : (s.modStrand j f).scratch = s.scratch := rfl
@[simp] theorem State.modStrand_l2 (s : State) (j : Nat) (f : Strand → Strand) : (s.modStrand j f).l2 = s.l2 := rfl
@[simp] theorem State.modStrand_dir (s : State) (j : Nat) (f : Strand → Strand) : (s.modStrand j f).dir = s.dir := rfl
@[simp] theorem State.modStrand_net (s : State) (j : Nat) (f : Strand → Strand) : (s.modStrand j f).net = s.net := rfl
@[simp] theorem State.modStrand_ncNet (s : State) (j : Nat) (f : Strand → Strand) : (s.modStrand j f).ncNet = s.ncNet := rfl
@[simp] theorem State.modStrand_ncAsk (s : State) (j : Nat) (f : Strand → Strand) : (s.modStrand j f).ncAsk = s.ncAsk := rfl
@[simp] theorem State.modStrand_ncGot (s : State) (j : Nat) (f : Strand → Strand) : (s.modStrand j f).ncGot = s.ncGot := rfl
@[simp] theorem State.modStrand_dirP (s : State) (j : Nat) (f : Strand → Strand) : (s.modStrand j f).dirP = s.dirP := rfl
@[simp] theorem State.modStrand_dirRes (s : State) (j : Nat) (f : Strand → Strand) : (s.modStrand j f).dirRes = s.dirRes := rfl
@[simp] theorem State.modStrand_mshr (s : State) (j : Nat) (f : Strand → Strand) : (s.modStrand j f).mshr = s.mshr := rfl
@[simp] theorem State.modStrand_slots (s : State) (j : Nat) (f : Strand → Strand) : (s.modStrand j f).slots = s.slots := rfl
@[simp] theorem State.modStrand_drbgD (s : State) (j : Nat) (f : Strand → Strand) : (s.modStrand j f).drbgD = s.drbgD := rfl
@[simp] theorem State.modStrand_jobs (s : State) (j : Nat) (f : Strand → Strand) : (s.modStrand j f).jobs = s.jobs := rfl
@[simp] theorem State.modStrand_jobNo (s : State) (j : Nat) (f : Strand → Strand) : (s.modStrand j f).jobNo = s.jobNo := rfl
@[simp] theorem State.modStrand_qps (s : State) (j : Nat) (f : Strand → Strand) : (s.modStrand j f).qps = s.qps := rfl
@[simp] theorem State.modStrand_rrFunc (s : State) (j : Nat) (f : Strand → Strand) : (s.modStrand j f).rrFunc = s.rrFunc := rfl
@[simp] theorem State.modStrand_rrQ (s : State) (j : Nat) (f : Strand → Strand) : (s.modStrand j f).rrQ = s.rrQ := rfl
@[simp] theorem State.modStrand_reqs (s : State) (j : Nat) (f : Strand → Strand) : (s.modStrand j f).reqs = s.reqs := rfl
@[simp] theorem State.modStrand_reqNo (s : State) (j : Nat) (f : Strand → Strand) : (s.modStrand j f).reqNo = s.reqNo := rfl
@[simp] theorem State.modStrand_adm (s : State) (j : Nat) (f : Strand → Strand) : (s.modStrand j f).adm = s.adm := rfl
@[simp] theorem State.modStrand_admWait (s : State) (j : Nat) (f : Strand → Strand) : (s.modStrand j f).admWait = s.admWait := rfl
@[simp] theorem State.modStrand_admDone (s : State) (j : Nat) (f : Strand → Strand) : (s.modStrand j f).admDone = s.admDone := rfl
@[simp] theorem State.modStrand_hostMem (s : State) (j : Nat) (f : Strand → Strand) : (s.modStrand j f).hostMem = s.hostMem := rfl
@[simp] theorem State.modStrand_msix (s : State) (j : Nat) (f : Strand → Strand) : (s.modStrand j f).msix = s.msix := rfl
@[simp] theorem State.modStrand_msixTab (s : State) (j : Nat) (f : Strand → Strand) : (s.modStrand j f).msixTab = s.msixTab := rfl
@[simp] theorem State.modStrand_pba (s : State) (j : Nat) (f : Strand → Strand) : (s.modStrand j f).pba = s.pba := rfl
@[simp] theorem State.modStrand_rdata (s : State) (j : Nat) (f : Strand → Strand) : (s.modStrand j f).rdata = s.rdata := rfl
@[simp] theorem State.modStrand_tch (s : State) (j : Nat) (f : Strand → Strand) : (s.modStrand j f).tch = s.tch := rfl
@[simp] theorem State.modStrand_tpin (s : State) (j : Nat) (f : Strand → Strand) : (s.modStrand j f).tpin = s.tpin := rfl
@[simp] theorem State.modStrand_shadow (s : State) (j : Nat) (f : Strand → Strand) : (s.modStrand j f).shadow = s.shadow := rfl
@[simp] theorem State.modStrand_shd (s : State) (j : Nat) (f : Strand → Strand) : (s.modStrand j f).shd = s.shd := rfl
@[simp] theorem State.modStrand_mon (s : State) (j : Nat) (f : Strand → Strand) : (s.modStrand j f).mon = s.mon := rfl
@[simp] theorem State.modStrand_monStage (s : State) (j : Nat) (f : Strand → Strand) : (s.modStrand j f).monStage = s.monStage := rfl
@[simp] theorem State.modStrand_monClr (s : State) (j : Nat) (f : Strand → Strand) : (s.modStrand j f).monClr = s.monClr := rfl
@[simp] theorem State.modStrand_snap (s : State) (j : Nat) (f : Strand → Strand) : (s.modStrand j f).snap = s.snap := rfl
@[simp] theorem State.modStrand_alm (s : State) (j : Nat) (f : Strand → Strand) : (s.modStrand j f).alm = s.alm := rfl
@[simp] theorem State.modStrand_tamper (s : State) (j : Nat) (f : Strand → Strand) : (s.modStrand j f).tamper = s.tamper := rfl
@[simp] theorem State.modStrand_sbk (s : State) (j : Nat) (f : Strand → Strand) : (s.modStrand j f).sbk = s.sbk := rfl
@[simp] theorem State.modStrand_pwr (s : State) (j : Nat) (f : Strand → Strand) : (s.modStrand j f).pwr = s.pwr := rfl
@[simp] theorem State.modStrand_trngOk (s : State) (j : Nat) (f : Strand → Strand) : (s.modStrand j f).trngOk = s.trngOk := rfl
@[simp] theorem State.modStrand_reseeded (s : State) (j : Nat) (f : Strand → Strand) : (s.modStrand j f).reseeded = s.reseeded := rfl
@[simp] theorem State.modStrand_core (s : State) (j : Nat) (f : Strand → Strand) (y : Nat) : (s.modStrand j f).core y = s.core y := rfl
@[simp] theorem State.modStrand_clu (s : State) (j : Nat) (f : Strand → Strand) (y : Nat) : (s.modStrand j f).clu y = s.clu y := rfl
@[simp] theorem State.modStrand_cell (s : State) (j : Nat) (f : Strand → Strand) (y : Nat) : (s.modStrand j f).cell y = s.cell y := rfl
@[simp] theorem State.modStrand_part (s : State) (j : Nat) (f : Strand → Strand) (y : Nat) : (s.modStrand j f).part y = s.part y := rfl
@[simp] theorem State.modStrand_slot (s : State) (j : Nat) (f : Strand → Strand) (y : Nat) : (s.modStrand j f).slot y = s.slot y := rfl
@[simp] theorem State.modStrand_qp (s : State) (j : Nat) (f : Strand → Strand) (y : Nat) : (s.modStrand j f).qp y = s.qp y := rfl
@[simp] theorem State.modStrand_req (s : State) (j : Nat) (f : Strand → Strand) (y : Nat) : (s.modStrand j f).req y = s.req y := rfl
@[simp] theorem State.modStrand_job (s : State) (j : Nat) (f : Strand → Strand) (y : Nat) : (s.modStrand j f).job y = s.job y := rfl
@[simp] theorem State.modStrand_chan (s : State) (j : Nat) (f : Strand → Strand) (y : Nat) : (s.modStrand j f).chan y = s.chan y := rfl
@[simp] theorem State.modStrand_monitor (s : State) (j : Nat) (f : Strand → Strand) (y : Nat) : (s.modStrand j f).monitor y = s.monitor y := rfl
@[simp] theorem State.modStrand_staging (s : State) (j : Nat) (f : Strand → Strand) (y : Nat) : (s.modStrand j f).staging y = s.staging y := rfl
@[simp] theorem State.modStrand_shadowOf (s : State) (j : Nat) (f : Strand → Strand) (y : Nat) : (s.modStrand j f).shadowOf y = s.shadowOf y := rfl
@[simp] theorem State.modStrand_rd (s : State) (j : Nat) (f : Strand → Strand) (nm : RegName) (un ix : Nat) : (s.modStrand j f).rd nm un ix = s.rd nm un ix := rfl

/-! ### setSlot -/

@[simp] theorem State.setSlot_build (s : State) (i : Nat) (k : Slot) : (s.setSlot i k).build = s.build := rfl
@[simp] theorem State.setSlot_pending (s : State) (i : Nat) (k : Slot) : (s.setSlot i k).pending = s.pending := rfl
@[simp] theorem State.setSlot_free (s : State) (i : Nat) (k : Slot) : (s.setSlot i k).free = s.free := rfl
@[simp] theorem State.setSlot_clock (s : State) (i : Nat) (k : Slot) : (s.setSlot i k).clock = s.clock := rfl
@[simp] theorem State.setSlot_frame (s : State) (i : Nat) (k : Slot) : (s.setSlot i k).frame = s.frame := rfl
@[simp] theorem State.setSlot_ticking (s : State) (i : Nat) (k : Slot) : (s.setSlot i k).ticking = s.ticking := rfl
@[simp] theorem State.setSlot_fc (s : State) (i : Nat) (k : Slot) : (s.setSlot i k).fc = s.fc := rfl
@[simp] theorem State.setSlot_sel (s : State) (i : Nat) (k : Slot) : (s.setSlot i k).sel = s.sel := rfl
@[simp] theorem State.setSlot_cutoff (s : State) (i : Nat) (k : Slot) : (s.setSlot i k).cutoff = s.cutoff := rfl
@[simp] theorem State.setSlot_frozen (s : State) (i : Nat) (k : Slot) : (s.setSlot i k).frozen = s.frozen := rfl
@[simp] theorem State.setSlot_rot (s : State) (i : Nat) (k : Slot) : (s.setSlot i k).rot = s.rot := rfl
@[simp] theorem State.setSlot_rotAttr (s : State) (i : Nat) (k : Slot) : (s.setSlot i k).rotAttr = s.rotAttr := rfl
@[simp] theorem State.setSlot_offPend (s : State) (i : Nat) (k : Slot) : (s.setSlot i k).offPend = s.offPend := rfl
@[simp] theorem State.setSlot_bar (s : State) (i : Nat) (k : Slot) : (s.setSlot i k).bar = s.bar := rfl
@[simp] theorem State.setSlot_vfbar (s : State) (i : Nat) (k : Slot) : (s.setSlot i k).vfbar = s.vfbar := rfl
@[simp] theorem State.setSlot_lockFc (s : State) (i : Nat) (k : Slot) : (s.setSlot i k).lockFc = s.lockFc := rfl
@[simp] theorem State.setSlot_cores (s : State) (i : Nat) (k : Slot) : (s.setSlot i k).cores = s.cores := rfl
@[simp] theorem State.setSlot_clus (s : State) (i : Nat) (k : Slot) : (s.setSlot i k).clus = s.clus := rfl
@[simp] theorem State.setSlot_cells (s : State) (i : Nat) (k : Slot) : (s.setSlot i k).cells = s.cells := rfl
@[simp] theorem State.setSlot_parts (s : State) (i : Nat) (k : Slot) : (s.setSlot i k).parts = s.parts := rfl
@[simp] theorem State.setSlot_strands (s : State) (i : Nat) (k : Slot) : (s.setSlot i k).strands = s.strands := rfl
@[simp] theorem State.setSlot_mem (s : State) (i : Nat) (k : Slot) : (s.setSlot i k).mem = s.mem := rfl
@[simp] theorem State.setSlot_memErr (s : State) (i : Nat) (k : Slot) : (s.setSlot i k).memErr = s.memErr := rfl
@[simp] theorem State.setSlot_filled (s : State) (i : Nat) (k : Slot) : (s.setSlot i k).filled = s.filled := rfl
@[simp] theorem State.setSlot_scratch (s : State) (i : Nat) (k : Slot) : (s.setSlot i k).scratch = s.scratch := rfl
@[simp] theorem State.setSlot_l2 (s : State) (i : Nat) (k : Slot) : (s.setSlot i k).l2 = s.l2 := rfl
@[simp] theorem State.setSlot_dir (s : State) (i : Nat) (k : Slot) : (s.setSlot i k).dir = s.dir := rfl
@[simp] theorem State.setSlot_net (s : State) (i : Nat) (k : Slot) : (s.setSlot i k).net = s.net := rfl
@[simp] theorem State.setSlot_ncNet (s : State) (i : Nat) (k : Slot) : (s.setSlot i k).ncNet = s.ncNet := rfl
@[simp] theorem State.setSlot_ncAsk (s : State) (i : Nat) (k : Slot) : (s.setSlot i k).ncAsk = s.ncAsk := rfl
@[simp] theorem State.setSlot_ncGot (s : State) (i : Nat) (k : Slot) : (s.setSlot i k).ncGot = s.ncGot := rfl
@[simp] theorem State.setSlot_dirP (s : State) (i : Nat) (k : Slot) : (s.setSlot i k).dirP = s.dirP := rfl
@[simp] theorem State.setSlot_dirRes (s : State) (i : Nat) (k : Slot) : (s.setSlot i k).dirRes = s.dirRes := rfl
@[simp] theorem State.setSlot_mshr (s : State) (i : Nat) (k : Slot) : (s.setSlot i k).mshr = s.mshr := rfl
@[simp] theorem State.setSlot_drbgD (s : State) (i : Nat) (k : Slot) : (s.setSlot i k).drbgD = s.drbgD := rfl
@[simp] theorem State.setSlot_jobs (s : State) (i : Nat) (k : Slot) : (s.setSlot i k).jobs = s.jobs := rfl
@[simp] theorem State.setSlot_jobNo (s : State) (i : Nat) (k : Slot) : (s.setSlot i k).jobNo = s.jobNo := rfl
@[simp] theorem State.setSlot_qps (s : State) (i : Nat) (k : Slot) : (s.setSlot i k).qps = s.qps := rfl
@[simp] theorem State.setSlot_rrFunc (s : State) (i : Nat) (k : Slot) : (s.setSlot i k).rrFunc = s.rrFunc := rfl
@[simp] theorem State.setSlot_rrQ (s : State) (i : Nat) (k : Slot) : (s.setSlot i k).rrQ = s.rrQ := rfl
@[simp] theorem State.setSlot_reqs (s : State) (i : Nat) (k : Slot) : (s.setSlot i k).reqs = s.reqs := rfl
@[simp] theorem State.setSlot_reqNo (s : State) (i : Nat) (k : Slot) : (s.setSlot i k).reqNo = s.reqNo := rfl
@[simp] theorem State.setSlot_adm (s : State) (i : Nat) (k : Slot) : (s.setSlot i k).adm = s.adm := rfl
@[simp] theorem State.setSlot_admWait (s : State) (i : Nat) (k : Slot) : (s.setSlot i k).admWait = s.admWait := rfl
@[simp] theorem State.setSlot_admDone (s : State) (i : Nat) (k : Slot) : (s.setSlot i k).admDone = s.admDone := rfl
@[simp] theorem State.setSlot_hostMem (s : State) (i : Nat) (k : Slot) : (s.setSlot i k).hostMem = s.hostMem := rfl
@[simp] theorem State.setSlot_msix (s : State) (i : Nat) (k : Slot) : (s.setSlot i k).msix = s.msix := rfl
@[simp] theorem State.setSlot_msixTab (s : State) (i : Nat) (k : Slot) : (s.setSlot i k).msixTab = s.msixTab := rfl
@[simp] theorem State.setSlot_pba (s : State) (i : Nat) (k : Slot) : (s.setSlot i k).pba = s.pba := rfl
@[simp] theorem State.setSlot_rdata (s : State) (i : Nat) (k : Slot) : (s.setSlot i k).rdata = s.rdata := rfl
@[simp] theorem State.setSlot_tch (s : State) (i : Nat) (k : Slot) : (s.setSlot i k).tch = s.tch := rfl
@[simp] theorem State.setSlot_tpin (s : State) (i : Nat) (k : Slot) : (s.setSlot i k).tpin = s.tpin := rfl
@[simp] theorem State.setSlot_shadow (s : State) (i : Nat) (k : Slot) : (s.setSlot i k).shadow = s.shadow := rfl
@[simp] theorem State.setSlot_shd (s : State) (i : Nat) (k : Slot) : (s.setSlot i k).shd = s.shd := rfl
@[simp] theorem State.setSlot_mon (s : State) (i : Nat) (k : Slot) : (s.setSlot i k).mon = s.mon := rfl
@[simp] theorem State.setSlot_monStage (s : State) (i : Nat) (k : Slot) : (s.setSlot i k).monStage = s.monStage := rfl
@[simp] theorem State.setSlot_monClr (s : State) (i : Nat) (k : Slot) : (s.setSlot i k).monClr = s.monClr := rfl
@[simp] theorem State.setSlot_snap (s : State) (i : Nat) (k : Slot) : (s.setSlot i k).snap = s.snap := rfl
@[simp] theorem State.setSlot_alm (s : State) (i : Nat) (k : Slot) : (s.setSlot i k).alm = s.alm := rfl
@[simp] theorem State.setSlot_tamper (s : State) (i : Nat) (k : Slot) : (s.setSlot i k).tamper = s.tamper := rfl
@[simp] theorem State.setSlot_sbk (s : State) (i : Nat) (k : Slot) : (s.setSlot i k).sbk = s.sbk := rfl
@[simp] theorem State.setSlot_pwr (s : State) (i : Nat) (k : Slot) : (s.setSlot i k).pwr = s.pwr := rfl
@[simp] theorem State.setSlot_trngOk (s : State) (i : Nat) (k : Slot) : (s.setSlot i k).trngOk = s.trngOk := rfl
@[simp] theorem State.setSlot_reseeded (s : State) (i : Nat) (k : Slot) : (s.setSlot i k).reseeded = s.reseeded := rfl
@[simp] theorem State.setSlot_core (s : State) (i : Nat) (k : Slot) (y : Nat) : (s.setSlot i k).core y = s.core y := rfl
@[simp] theorem State.setSlot_clu (s : State) (i : Nat) (k : Slot) (y : Nat) : (s.setSlot i k).clu y = s.clu y := rfl
@[simp] theorem State.setSlot_cell (s : State) (i : Nat) (k : Slot) (y : Nat) : (s.setSlot i k).cell y = s.cell y := rfl
@[simp] theorem State.setSlot_part (s : State) (i : Nat) (k : Slot) (y : Nat) : (s.setSlot i k).part y = s.part y := rfl
@[simp] theorem State.setSlot_strand (s : State) (i : Nat) (k : Slot) (y : Nat) : (s.setSlot i k).strand y = s.strand y := rfl
@[simp] theorem State.setSlot_qp (s : State) (i : Nat) (k : Slot) (y : Nat) : (s.setSlot i k).qp y = s.qp y := rfl
@[simp] theorem State.setSlot_req (s : State) (i : Nat) (k : Slot) (y : Nat) : (s.setSlot i k).req y = s.req y := rfl
@[simp] theorem State.setSlot_job (s : State) (i : Nat) (k : Slot) (y : Nat) : (s.setSlot i k).job y = s.job y := rfl
@[simp] theorem State.setSlot_chan (s : State) (i : Nat) (k : Slot) (y : Nat) : (s.setSlot i k).chan y = s.chan y := rfl
@[simp] theorem State.setSlot_monitor (s : State) (i : Nat) (k : Slot) (y : Nat) : (s.setSlot i k).monitor y = s.monitor y := rfl
@[simp] theorem State.setSlot_staging (s : State) (i : Nat) (k : Slot) (y : Nat) : (s.setSlot i k).staging y = s.staging y := rfl
@[simp] theorem State.setSlot_shadowOf (s : State) (i : Nat) (k : Slot) (y : Nat) : (s.setSlot i k).shadowOf y = s.shadowOf y := rfl
@[simp] theorem State.setSlot_rd (s : State) (i : Nat) (k : Slot) (nm : RegName) (un ix : Nat) : (s.setSlot i k).rd nm un ix = s.rd nm un ix := rfl

/-! ### setQp -/

@[simp] theorem State.setQp_build (s : State) (j : Nat) (q : Qp) : (s.setQp j q).build = s.build := rfl
@[simp] theorem State.setQp_pending (s : State) (j : Nat) (q : Qp) : (s.setQp j q).pending = s.pending := rfl
@[simp] theorem State.setQp_free (s : State) (j : Nat) (q : Qp) : (s.setQp j q).free = s.free := rfl
@[simp] theorem State.setQp_clock (s : State) (j : Nat) (q : Qp) : (s.setQp j q).clock = s.clock := rfl
@[simp] theorem State.setQp_frame (s : State) (j : Nat) (q : Qp) : (s.setQp j q).frame = s.frame := rfl
@[simp] theorem State.setQp_ticking (s : State) (j : Nat) (q : Qp) : (s.setQp j q).ticking = s.ticking := rfl
@[simp] theorem State.setQp_fc (s : State) (j : Nat) (q : Qp) : (s.setQp j q).fc = s.fc := rfl
@[simp] theorem State.setQp_sel (s : State) (j : Nat) (q : Qp) : (s.setQp j q).sel = s.sel := rfl
@[simp] theorem State.setQp_cutoff (s : State) (j : Nat) (q : Qp) : (s.setQp j q).cutoff = s.cutoff := rfl
@[simp] theorem State.setQp_frozen (s : State) (j : Nat) (q : Qp) : (s.setQp j q).frozen = s.frozen := rfl
@[simp] theorem State.setQp_rot (s : State) (j : Nat) (q : Qp) : (s.setQp j q).rot = s.rot := rfl
@[simp] theorem State.setQp_rotAttr (s : State) (j : Nat) (q : Qp) : (s.setQp j q).rotAttr = s.rotAttr := rfl
@[simp] theorem State.setQp_offPend (s : State) (j : Nat) (q : Qp) : (s.setQp j q).offPend = s.offPend := rfl
@[simp] theorem State.setQp_bar (s : State) (j : Nat) (q : Qp) : (s.setQp j q).bar = s.bar := rfl
@[simp] theorem State.setQp_vfbar (s : State) (j : Nat) (q : Qp) : (s.setQp j q).vfbar = s.vfbar := rfl
@[simp] theorem State.setQp_lockFc (s : State) (j : Nat) (q : Qp) : (s.setQp j q).lockFc = s.lockFc := rfl
@[simp] theorem State.setQp_cores (s : State) (j : Nat) (q : Qp) : (s.setQp j q).cores = s.cores := rfl
@[simp] theorem State.setQp_clus (s : State) (j : Nat) (q : Qp) : (s.setQp j q).clus = s.clus := rfl
@[simp] theorem State.setQp_cells (s : State) (j : Nat) (q : Qp) : (s.setQp j q).cells = s.cells := rfl
@[simp] theorem State.setQp_parts (s : State) (j : Nat) (q : Qp) : (s.setQp j q).parts = s.parts := rfl
@[simp] theorem State.setQp_strands (s : State) (j : Nat) (q : Qp) : (s.setQp j q).strands = s.strands := rfl
@[simp] theorem State.setQp_mem (s : State) (j : Nat) (q : Qp) : (s.setQp j q).mem = s.mem := rfl
@[simp] theorem State.setQp_memErr (s : State) (j : Nat) (q : Qp) : (s.setQp j q).memErr = s.memErr := rfl
@[simp] theorem State.setQp_filled (s : State) (j : Nat) (q : Qp) : (s.setQp j q).filled = s.filled := rfl
@[simp] theorem State.setQp_scratch (s : State) (j : Nat) (q : Qp) : (s.setQp j q).scratch = s.scratch := rfl
@[simp] theorem State.setQp_l2 (s : State) (j : Nat) (q : Qp) : (s.setQp j q).l2 = s.l2 := rfl
@[simp] theorem State.setQp_dir (s : State) (j : Nat) (q : Qp) : (s.setQp j q).dir = s.dir := rfl
@[simp] theorem State.setQp_net (s : State) (j : Nat) (q : Qp) : (s.setQp j q).net = s.net := rfl
@[simp] theorem State.setQp_ncNet (s : State) (j : Nat) (q : Qp) : (s.setQp j q).ncNet = s.ncNet := rfl
@[simp] theorem State.setQp_ncAsk (s : State) (j : Nat) (q : Qp) : (s.setQp j q).ncAsk = s.ncAsk := rfl
@[simp] theorem State.setQp_ncGot (s : State) (j : Nat) (q : Qp) : (s.setQp j q).ncGot = s.ncGot := rfl
@[simp] theorem State.setQp_dirP (s : State) (j : Nat) (q : Qp) : (s.setQp j q).dirP = s.dirP := rfl
@[simp] theorem State.setQp_dirRes (s : State) (j : Nat) (q : Qp) : (s.setQp j q).dirRes = s.dirRes := rfl
@[simp] theorem State.setQp_mshr (s : State) (j : Nat) (q : Qp) : (s.setQp j q).mshr = s.mshr := rfl
@[simp] theorem State.setQp_slots (s : State) (j : Nat) (q : Qp) : (s.setQp j q).slots = s.slots := rfl
@[simp] theorem State.setQp_drbgD (s : State) (j : Nat) (q : Qp) : (s.setQp j q).drbgD = s.drbgD := rfl
@[simp] theorem State.setQp_jobs (s : State) (j : Nat) (q : Qp) : (s.setQp j q).jobs = s.jobs := rfl
@[simp] theorem State.setQp_jobNo (s : State) (j : Nat) (q : Qp) : (s.setQp j q).jobNo = s.jobNo := rfl
@[simp] theorem State.setQp_rrFunc (s : State) (j : Nat) (q : Qp) : (s.setQp j q).rrFunc = s.rrFunc := rfl
@[simp] theorem State.setQp_rrQ (s : State) (j : Nat) (q : Qp) : (s.setQp j q).rrQ = s.rrQ := rfl
@[simp] theorem State.setQp_reqs (s : State) (j : Nat) (q : Qp) : (s.setQp j q).reqs = s.reqs := rfl
@[simp] theorem State.setQp_reqNo (s : State) (j : Nat) (q : Qp) : (s.setQp j q).reqNo = s.reqNo := rfl
@[simp] theorem State.setQp_adm (s : State) (j : Nat) (q : Qp) : (s.setQp j q).adm = s.adm := rfl
@[simp] theorem State.setQp_admWait (s : State) (j : Nat) (q : Qp) : (s.setQp j q).admWait = s.admWait := rfl
@[simp] theorem State.setQp_admDone (s : State) (j : Nat) (q : Qp) : (s.setQp j q).admDone = s.admDone := rfl
@[simp] theorem State.setQp_hostMem (s : State) (j : Nat) (q : Qp) : (s.setQp j q).hostMem = s.hostMem := rfl
@[simp] theorem State.setQp_msix (s : State) (j : Nat) (q : Qp) : (s.setQp j q).msix = s.msix := rfl
@[simp] theorem State.setQp_msixTab (s : State) (j : Nat) (q : Qp) : (s.setQp j q).msixTab = s.msixTab := rfl
@[simp] theorem State.setQp_pba (s : State) (j : Nat) (q : Qp) : (s.setQp j q).pba = s.pba := rfl
@[simp] theorem State.setQp_rdata (s : State) (j : Nat) (q : Qp) : (s.setQp j q).rdata = s.rdata := rfl
@[simp] theorem State.setQp_tch (s : State) (j : Nat) (q : Qp) : (s.setQp j q).tch = s.tch := rfl
@[simp] theorem State.setQp_tpin (s : State) (j : Nat) (q : Qp) : (s.setQp j q).tpin = s.tpin := rfl
@[simp] theorem State.setQp_shadow (s : State) (j : Nat) (q : Qp) : (s.setQp j q).shadow = s.shadow := rfl
@[simp] theorem State.setQp_shd (s : State) (j : Nat) (q : Qp) : (s.setQp j q).shd = s.shd := rfl
@[simp] theorem State.setQp_mon (s : State) (j : Nat) (q : Qp) : (s.setQp j q).mon = s.mon := rfl
@[simp] theorem State.setQp_monStage (s : State) (j : Nat) (q : Qp) : (s.setQp j q).monStage = s.monStage := rfl
@[simp] theorem State.setQp_monClr (s : State) (j : Nat) (q : Qp) : (s.setQp j q).monClr = s.monClr := rfl
@[simp] theorem State.setQp_snap (s : State) (j : Nat) (q : Qp) : (s.setQp j q).snap = s.snap := rfl
@[simp] theorem State.setQp_alm (s : State) (j : Nat) (q : Qp) : (s.setQp j q).alm = s.alm := rfl
@[simp] theorem State.setQp_tamper (s : State) (j : Nat) (q : Qp) : (s.setQp j q).tamper = s.tamper := rfl
@[simp] theorem State.setQp_sbk (s : State) (j : Nat) (q : Qp) : (s.setQp j q).sbk = s.sbk := rfl
@[simp] theorem State.setQp_pwr (s : State) (j : Nat) (q : Qp) : (s.setQp j q).pwr = s.pwr := rfl
@[simp] theorem State.setQp_trngOk (s : State) (j : Nat) (q : Qp) : (s.setQp j q).trngOk = s.trngOk := rfl
@[simp] theorem State.setQp_reseeded (s : State) (j : Nat) (q : Qp) : (s.setQp j q).reseeded = s.reseeded := rfl
@[simp] theorem State.setQp_core (s : State) (j : Nat) (q : Qp) (y : Nat) : (s.setQp j q).core y = s.core y := rfl
@[simp] theorem State.setQp_clu (s : State) (j : Nat) (q : Qp) (y : Nat) : (s.setQp j q).clu y = s.clu y := rfl
@[simp] theorem State.setQp_cell (s : State) (j : Nat) (q : Qp) (y : Nat) : (s.setQp j q).cell y = s.cell y := rfl
@[simp] theorem State.setQp_part (s : State) (j : Nat) (q : Qp) (y : Nat) : (s.setQp j q).part y = s.part y := rfl
@[simp] theorem State.setQp_strand (s : State) (j : Nat) (q : Qp) (y : Nat) : (s.setQp j q).strand y = s.strand y := rfl
@[simp] theorem State.setQp_slot (s : State) (j : Nat) (q : Qp) (y : Nat) : (s.setQp j q).slot y = s.slot y := rfl
@[simp] theorem State.setQp_req (s : State) (j : Nat) (q : Qp) (y : Nat) : (s.setQp j q).req y = s.req y := rfl
@[simp] theorem State.setQp_job (s : State) (j : Nat) (q : Qp) (y : Nat) : (s.setQp j q).job y = s.job y := rfl
@[simp] theorem State.setQp_chan (s : State) (j : Nat) (q : Qp) (y : Nat) : (s.setQp j q).chan y = s.chan y := rfl
@[simp] theorem State.setQp_monitor (s : State) (j : Nat) (q : Qp) (y : Nat) : (s.setQp j q).monitor y = s.monitor y := rfl
@[simp] theorem State.setQp_staging (s : State) (j : Nat) (q : Qp) (y : Nat) : (s.setQp j q).staging y = s.staging y := rfl
@[simp] theorem State.setQp_shadowOf (s : State) (j : Nat) (q : Qp) (y : Nat) : (s.setQp j q).shadowOf y = s.shadowOf y := rfl
@[simp] theorem State.setQp_rd (s : State) (j : Nat) (q : Qp) (nm : RegName) (un ix : Nat) : (s.setQp j q).rd nm un ix = s.rd nm un ix := rfl

/-! ### setReq -/

@[simp] theorem State.setReq_build (s : State) (r : Nat) (q : Option Req) : (s.setReq r q).build = s.build := rfl
@[simp] theorem State.setReq_pending (s : State) (r : Nat) (q : Option Req) : (s.setReq r q).pending = s.pending := rfl
@[simp] theorem State.setReq_free (s : State) (r : Nat) (q : Option Req) : (s.setReq r q).free = s.free := rfl
@[simp] theorem State.setReq_clock (s : State) (r : Nat) (q : Option Req) : (s.setReq r q).clock = s.clock := rfl
@[simp] theorem State.setReq_frame (s : State) (r : Nat) (q : Option Req) : (s.setReq r q).frame = s.frame := rfl
@[simp] theorem State.setReq_ticking (s : State) (r : Nat) (q : Option Req) : (s.setReq r q).ticking = s.ticking := rfl
@[simp] theorem State.setReq_fc (s : State) (r : Nat) (q : Option Req) : (s.setReq r q).fc = s.fc := rfl
@[simp] theorem State.setReq_sel (s : State) (r : Nat) (q : Option Req) : (s.setReq r q).sel = s.sel := rfl
@[simp] theorem State.setReq_cutoff (s : State) (r : Nat) (q : Option Req) : (s.setReq r q).cutoff = s.cutoff := rfl
@[simp] theorem State.setReq_frozen (s : State) (r : Nat) (q : Option Req) : (s.setReq r q).frozen = s.frozen := rfl
@[simp] theorem State.setReq_rot (s : State) (r : Nat) (q : Option Req) : (s.setReq r q).rot = s.rot := rfl
@[simp] theorem State.setReq_rotAttr (s : State) (r : Nat) (q : Option Req) : (s.setReq r q).rotAttr = s.rotAttr := rfl
@[simp] theorem State.setReq_offPend (s : State) (r : Nat) (q : Option Req) : (s.setReq r q).offPend = s.offPend := rfl
@[simp] theorem State.setReq_bar (s : State) (r : Nat) (q : Option Req) : (s.setReq r q).bar = s.bar := rfl
@[simp] theorem State.setReq_vfbar (s : State) (r : Nat) (q : Option Req) : (s.setReq r q).vfbar = s.vfbar := rfl
@[simp] theorem State.setReq_lockFc (s : State) (r : Nat) (q : Option Req) : (s.setReq r q).lockFc = s.lockFc := rfl
@[simp] theorem State.setReq_cores (s : State) (r : Nat) (q : Option Req) : (s.setReq r q).cores = s.cores := rfl
@[simp] theorem State.setReq_clus (s : State) (r : Nat) (q : Option Req) : (s.setReq r q).clus = s.clus := rfl
@[simp] theorem State.setReq_cells (s : State) (r : Nat) (q : Option Req) : (s.setReq r q).cells = s.cells := rfl
@[simp] theorem State.setReq_parts (s : State) (r : Nat) (q : Option Req) : (s.setReq r q).parts = s.parts := rfl
@[simp] theorem State.setReq_strands (s : State) (r : Nat) (q : Option Req) : (s.setReq r q).strands = s.strands := rfl
@[simp] theorem State.setReq_mem (s : State) (r : Nat) (q : Option Req) : (s.setReq r q).mem = s.mem := rfl
@[simp] theorem State.setReq_memErr (s : State) (r : Nat) (q : Option Req) : (s.setReq r q).memErr = s.memErr := rfl
@[simp] theorem State.setReq_filled (s : State) (r : Nat) (q : Option Req) : (s.setReq r q).filled = s.filled := rfl
@[simp] theorem State.setReq_scratch (s : State) (r : Nat) (q : Option Req) : (s.setReq r q).scratch = s.scratch := rfl
@[simp] theorem State.setReq_l2 (s : State) (r : Nat) (q : Option Req) : (s.setReq r q).l2 = s.l2 := rfl
@[simp] theorem State.setReq_dir (s : State) (r : Nat) (q : Option Req) : (s.setReq r q).dir = s.dir := rfl
@[simp] theorem State.setReq_net (s : State) (r : Nat) (q : Option Req) : (s.setReq r q).net = s.net := rfl
@[simp] theorem State.setReq_ncNet (s : State) (r : Nat) (q : Option Req) : (s.setReq r q).ncNet = s.ncNet := rfl
@[simp] theorem State.setReq_ncAsk (s : State) (r : Nat) (q : Option Req) : (s.setReq r q).ncAsk = s.ncAsk := rfl
@[simp] theorem State.setReq_ncGot (s : State) (r : Nat) (q : Option Req) : (s.setReq r q).ncGot = s.ncGot := rfl
@[simp] theorem State.setReq_dirP (s : State) (r : Nat) (q : Option Req) : (s.setReq r q).dirP = s.dirP := rfl
@[simp] theorem State.setReq_dirRes (s : State) (r : Nat) (q : Option Req) : (s.setReq r q).dirRes = s.dirRes := rfl
@[simp] theorem State.setReq_mshr (s : State) (r : Nat) (q : Option Req) : (s.setReq r q).mshr = s.mshr := rfl
@[simp] theorem State.setReq_slots (s : State) (r : Nat) (q : Option Req) : (s.setReq r q).slots = s.slots := rfl
@[simp] theorem State.setReq_drbgD (s : State) (r : Nat) (q : Option Req) : (s.setReq r q).drbgD = s.drbgD := rfl
@[simp] theorem State.setReq_jobs (s : State) (r : Nat) (q : Option Req) : (s.setReq r q).jobs = s.jobs := rfl
@[simp] theorem State.setReq_jobNo (s : State) (r : Nat) (q : Option Req) : (s.setReq r q).jobNo = s.jobNo := rfl
@[simp] theorem State.setReq_qps (s : State) (r : Nat) (q : Option Req) : (s.setReq r q).qps = s.qps := rfl
@[simp] theorem State.setReq_rrFunc (s : State) (r : Nat) (q : Option Req) : (s.setReq r q).rrFunc = s.rrFunc := rfl
@[simp] theorem State.setReq_rrQ (s : State) (r : Nat) (q : Option Req) : (s.setReq r q).rrQ = s.rrQ := rfl
@[simp] theorem State.setReq_reqNo (s : State) (r : Nat) (q : Option Req) : (s.setReq r q).reqNo = s.reqNo := rfl
@[simp] theorem State.setReq_adm (s : State) (r : Nat) (q : Option Req) : (s.setReq r q).adm = s.adm := rfl
@[simp] theorem State.setReq_admWait (s : State) (r : Nat) (q : Option Req) : (s.setReq r q).admWait = s.admWait := rfl
@[simp] theorem State.setReq_admDone (s : State) (r : Nat) (q : Option Req) : (s.setReq r q).admDone = s.admDone := rfl
@[simp] theorem State.setReq_hostMem (s : State) (r : Nat) (q : Option Req) : (s.setReq r q).hostMem = s.hostMem := rfl
@[simp] theorem State.setReq_msix (s : State) (r : Nat) (q : Option Req) : (s.setReq r q).msix = s.msix := rfl
@[simp] theorem State.setReq_msixTab (s : State) (r : Nat) (q : Option Req) : (s.setReq r q).msixTab = s.msixTab := rfl
@[simp] theorem State.setReq_pba (s : State) (r : Nat) (q : Option Req) : (s.setReq r q).pba = s.pba := rfl
@[simp] theorem State.setReq_rdata (s : State) (r : Nat) (q : Option Req) : (s.setReq r q).rdata = s.rdata := rfl
@[simp] theorem State.setReq_tch (s : State) (r : Nat) (q : Option Req) : (s.setReq r q).tch = s.tch := rfl
@[simp] theorem State.setReq_tpin (s : State) (r : Nat) (q : Option Req) : (s.setReq r q).tpin = s.tpin := rfl
@[simp] theorem State.setReq_shadow (s : State) (r : Nat) (q : Option Req) : (s.setReq r q).shadow = s.shadow := rfl
@[simp] theorem State.setReq_shd (s : State) (r : Nat) (q : Option Req) : (s.setReq r q).shd = s.shd := rfl
@[simp] theorem State.setReq_mon (s : State) (r : Nat) (q : Option Req) : (s.setReq r q).mon = s.mon := rfl
@[simp] theorem State.setReq_monStage (s : State) (r : Nat) (q : Option Req) : (s.setReq r q).monStage = s.monStage := rfl
@[simp] theorem State.setReq_monClr (s : State) (r : Nat) (q : Option Req) : (s.setReq r q).monClr = s.monClr := rfl
@[simp] theorem State.setReq_snap (s : State) (r : Nat) (q : Option Req) : (s.setReq r q).snap = s.snap := rfl
@[simp] theorem State.setReq_alm (s : State) (r : Nat) (q : Option Req) : (s.setReq r q).alm = s.alm := rfl
@[simp] theorem State.setReq_tamper (s : State) (r : Nat) (q : Option Req) : (s.setReq r q).tamper = s.tamper := rfl
@[simp] theorem State.setReq_sbk (s : State) (r : Nat) (q : Option Req) : (s.setReq r q).sbk = s.sbk := rfl
@[simp] theorem State.setReq_pwr (s : State) (r : Nat) (q : Option Req) : (s.setReq r q).pwr = s.pwr := rfl
@[simp] theorem State.setReq_trngOk (s : State) (r : Nat) (q : Option Req) : (s.setReq r q).trngOk = s.trngOk := rfl
@[simp] theorem State.setReq_reseeded (s : State) (r : Nat) (q : Option Req) : (s.setReq r q).reseeded = s.reseeded := rfl
@[simp] theorem State.setReq_core (s : State) (r : Nat) (q : Option Req) (y : Nat) : (s.setReq r q).core y = s.core y := rfl
@[simp] theorem State.setReq_clu (s : State) (r : Nat) (q : Option Req) (y : Nat) : (s.setReq r q).clu y = s.clu y := rfl
@[simp] theorem State.setReq_cell (s : State) (r : Nat) (q : Option Req) (y : Nat) : (s.setReq r q).cell y = s.cell y := rfl
@[simp] theorem State.setReq_part (s : State) (r : Nat) (q : Option Req) (y : Nat) : (s.setReq r q).part y = s.part y := rfl
@[simp] theorem State.setReq_strand (s : State) (r : Nat) (q : Option Req) (y : Nat) : (s.setReq r q).strand y = s.strand y := rfl
@[simp] theorem State.setReq_slot (s : State) (r : Nat) (q : Option Req) (y : Nat) : (s.setReq r q).slot y = s.slot y := rfl
@[simp] theorem State.setReq_qp (s : State) (r : Nat) (q : Option Req) (y : Nat) : (s.setReq r q).qp y = s.qp y := rfl
@[simp] theorem State.setReq_job (s : State) (r : Nat) (q : Option Req) (y : Nat) : (s.setReq r q).job y = s.job y := rfl
@[simp] theorem State.setReq_chan (s : State) (r : Nat) (q : Option Req) (y : Nat) : (s.setReq r q).chan y = s.chan y := rfl
@[simp] theorem State.setReq_monitor (s : State) (r : Nat) (q : Option Req) (y : Nat) : (s.setReq r q).monitor y = s.monitor y := rfl
@[simp] theorem State.setReq_staging (s : State) (r : Nat) (q : Option Req) (y : Nat) : (s.setReq r q).staging y = s.staging y := rfl
@[simp] theorem State.setReq_shadowOf (s : State) (r : Nat) (q : Option Req) (y : Nat) : (s.setReq r q).shadowOf y = s.shadowOf y := rfl
@[simp] theorem State.setReq_rd (s : State) (r : Nat) (q : Option Req) (nm : RegName) (un ix : Nat) : (s.setReq r q).rd nm un ix = s.rd nm un ix := rfl

/-! ### setJob -/

@[simp] theorem State.setJob_build (s : State) (j : Nat) (q : Option Job) : (s.setJob j q).build = s.build := rfl
@[simp] theorem State.setJob_pending (s : State) (j : Nat) (q : Option Job) : (s.setJob j q).pending = s.pending := rfl
@[simp] theorem State.setJob_free (s : State) (j : Nat) (q : Option Job) : (s.setJob j q).free = s.free := rfl
@[simp] theorem State.setJob_clock (s : State) (j : Nat) (q : Option Job) : (s.setJob j q).clock = s.clock := rfl
@[simp] theorem State.setJob_frame (s : State) (j : Nat) (q : Option Job) : (s.setJob j q).frame = s.frame := rfl
@[simp] theorem State.setJob_ticking (s : State) (j : Nat) (q : Option Job) : (s.setJob j q).ticking = s.ticking := rfl
@[simp] theorem State.setJob_fc (s : State) (j : Nat) (q : Option Job) : (s.setJob j q).fc = s.fc := rfl
@[simp] theorem State.setJob_sel (s : State) (j : Nat) (q : Option Job) : (s.setJob j q).sel = s.sel := rfl
@[simp] theorem State.setJob_cutoff (s : State) (j : Nat) (q : Option Job) : (s.setJob j q).cutoff = s.cutoff := rfl
@[simp] theorem State.setJob_frozen (s : State) (j : Nat) (q : Option Job) : (s.setJob j q).frozen = s.frozen := rfl
@[simp] theorem State.setJob_rot (s : State) (j : Nat) (q : Option Job) : (s.setJob j q).rot = s.rot := rfl
@[simp] theorem State.setJob_rotAttr (s : State) (j : Nat) (q : Option Job) : (s.setJob j q).rotAttr = s.rotAttr := rfl
@[simp] theorem State.setJob_offPend (s : State) (j : Nat) (q : Option Job) : (s.setJob j q).offPend = s.offPend := rfl
@[simp] theorem State.setJob_bar (s : State) (j : Nat) (q : Option Job) : (s.setJob j q).bar = s.bar := rfl
@[simp] theorem State.setJob_vfbar (s : State) (j : Nat) (q : Option Job) : (s.setJob j q).vfbar = s.vfbar := rfl
@[simp] theorem State.setJob_lockFc (s : State) (j : Nat) (q : Option Job) : (s.setJob j q).lockFc = s.lockFc := rfl
@[simp] theorem State.setJob_cores (s : State) (j : Nat) (q : Option Job) : (s.setJob j q).cores = s.cores := rfl
@[simp] theorem State.setJob_clus (s : State) (j : Nat) (q : Option Job) : (s.setJob j q).clus = s.clus := rfl
@[simp] theorem State.setJob_cells (s : State) (j : Nat) (q : Option Job) : (s.setJob j q).cells = s.cells := rfl
@[simp] theorem State.setJob_parts (s : State) (j : Nat) (q : Option Job) : (s.setJob j q).parts = s.parts := rfl
@[simp] theorem State.setJob_strands (s : State) (j : Nat) (q : Option Job) : (s.setJob j q).strands = s.strands := rfl
@[simp] theorem State.setJob_mem (s : State) (j : Nat) (q : Option Job) : (s.setJob j q).mem = s.mem := rfl
@[simp] theorem State.setJob_memErr (s : State) (j : Nat) (q : Option Job) : (s.setJob j q).memErr = s.memErr := rfl
@[simp] theorem State.setJob_filled (s : State) (j : Nat) (q : Option Job) : (s.setJob j q).filled = s.filled := rfl
@[simp] theorem State.setJob_scratch (s : State) (j : Nat) (q : Option Job) : (s.setJob j q).scratch = s.scratch := rfl
@[simp] theorem State.setJob_l2 (s : State) (j : Nat) (q : Option Job) : (s.setJob j q).l2 = s.l2 := rfl
@[simp] theorem State.setJob_dir (s : State) (j : Nat) (q : Option Job) : (s.setJob j q).dir = s.dir := rfl
@[simp] theorem State.setJob_net (s : State) (j : Nat) (q : Option Job) : (s.setJob j q).net = s.net := rfl
@[simp] theorem State.setJob_ncNet (s : State) (j : Nat) (q : Option Job) : (s.setJob j q).ncNet = s.ncNet := rfl
@[simp] theorem State.setJob_ncAsk (s : State) (j : Nat) (q : Option Job) : (s.setJob j q).ncAsk = s.ncAsk := rfl
@[simp] theorem State.setJob_ncGot (s : State) (j : Nat) (q : Option Job) : (s.setJob j q).ncGot = s.ncGot := rfl
@[simp] theorem State.setJob_dirP (s : State) (j : Nat) (q : Option Job) : (s.setJob j q).dirP = s.dirP := rfl
@[simp] theorem State.setJob_dirRes (s : State) (j : Nat) (q : Option Job) : (s.setJob j q).dirRes = s.dirRes := rfl
@[simp] theorem State.setJob_mshr (s : State) (j : Nat) (q : Option Job) : (s.setJob j q).mshr = s.mshr := rfl
@[simp] theorem State.setJob_slots (s : State) (j : Nat) (q : Option Job) : (s.setJob j q).slots = s.slots := rfl
@[simp] theorem State.setJob_drbgD (s : State) (j : Nat) (q : Option Job) : (s.setJob j q).drbgD = s.drbgD := rfl
@[simp] theorem State.setJob_jobNo (s : State) (j : Nat) (q : Option Job) : (s.setJob j q).jobNo = s.jobNo := rfl
@[simp] theorem State.setJob_qps (s : State) (j : Nat) (q : Option Job) : (s.setJob j q).qps = s.qps := rfl
@[simp] theorem State.setJob_rrFunc (s : State) (j : Nat) (q : Option Job) : (s.setJob j q).rrFunc = s.rrFunc := rfl
@[simp] theorem State.setJob_rrQ (s : State) (j : Nat) (q : Option Job) : (s.setJob j q).rrQ = s.rrQ := rfl
@[simp] theorem State.setJob_reqs (s : State) (j : Nat) (q : Option Job) : (s.setJob j q).reqs = s.reqs := rfl
@[simp] theorem State.setJob_reqNo (s : State) (j : Nat) (q : Option Job) : (s.setJob j q).reqNo = s.reqNo := rfl
@[simp] theorem State.setJob_adm (s : State) (j : Nat) (q : Option Job) : (s.setJob j q).adm = s.adm := rfl
@[simp] theorem State.setJob_admWait (s : State) (j : Nat) (q : Option Job) : (s.setJob j q).admWait = s.admWait := rfl
@[simp] theorem State.setJob_admDone (s : State) (j : Nat) (q : Option Job) : (s.setJob j q).admDone = s.admDone := rfl
@[simp] theorem State.setJob_hostMem (s : State) (j : Nat) (q : Option Job) : (s.setJob j q).hostMem = s.hostMem := rfl
@[simp] theorem State.setJob_msix (s : State) (j : Nat) (q : Option Job) : (s.setJob j q).msix = s.msix := rfl
@[simp] theorem State.setJob_msixTab (s : State) (j : Nat) (q : Option Job) : (s.setJob j q).msixTab = s.msixTab := rfl
@[simp] theorem State.setJob_pba (s : State) (j : Nat) (q : Option Job) : (s.setJob j q).pba = s.pba := rfl
@[simp] theorem State.setJob_rdata (s : State) (j : Nat) (q : Option Job) : (s.setJob j q).rdata = s.rdata := rfl
@[simp] theorem State.setJob_tch (s : State) (j : Nat) (q : Option Job) : (s.setJob j q).tch = s.tch := rfl
@[simp] theorem State.setJob_tpin (s : State) (j : Nat) (q : Option Job) : (s.setJob j q).tpin = s.tpin := rfl
@[simp] theorem State.setJob_shadow (s : State) (j : Nat) (q : Option Job) : (s.setJob j q).shadow = s.shadow := rfl
@[simp] theorem State.setJob_shd (s : State) (j : Nat) (q : Option Job) : (s.setJob j q).shd = s.shd := rfl
@[simp] theorem State.setJob_mon (s : State) (j : Nat) (q : Option Job) : (s.setJob j q).mon = s.mon := rfl
@[simp] theorem State.setJob_monStage (s : State) (j : Nat) (q : Option Job) : (s.setJob j q).monStage = s.monStage := rfl
@[simp] theorem State.setJob_monClr (s : State) (j : Nat) (q : Option Job) : (s.setJob j q).monClr = s.monClr := rfl
@[simp] theorem State.setJob_snap (s : State) (j : Nat) (q : Option Job) : (s.setJob j q).snap = s.snap := rfl
@[simp] theorem State.setJob_alm (s : State) (j : Nat) (q : Option Job) : (s.setJob j q).alm = s.alm := rfl
@[simp] theorem State.setJob_tamper (s : State) (j : Nat) (q : Option Job) : (s.setJob j q).tamper = s.tamper := rfl
@[simp] theorem State.setJob_sbk (s : State) (j : Nat) (q : Option Job) : (s.setJob j q).sbk = s.sbk := rfl
@[simp] theorem State.setJob_pwr (s : State) (j : Nat) (q : Option Job) : (s.setJob j q).pwr = s.pwr := rfl
@[simp] theorem State.setJob_trngOk (s : State) (j : Nat) (q : Option Job) : (s.setJob j q).trngOk = s.trngOk := rfl
@[simp] theorem State.setJob_reseeded (s : State) (j : Nat) (q : Option Job) : (s.setJob j q).reseeded = s.reseeded := rfl
@[simp] theorem State.setJob_core (s : State) (j : Nat) (q : Option Job) (y : Nat) : (s.setJob j q).core y = s.core y := rfl
@[simp] theorem State.setJob_clu (s : State) (j : Nat) (q : Option Job) (y : Nat) : (s.setJob j q).clu y = s.clu y := rfl
@[simp] theorem State.setJob_cell (s : State) (j : Nat) (q : Option Job) (y : Nat) : (s.setJob j q).cell y = s.cell y := rfl
@[simp] theorem State.setJob_part (s : State) (j : Nat) (q : Option Job) (y : Nat) : (s.setJob j q).part y = s.part y := rfl
@[simp] theorem State.setJob_strand (s : State) (j : Nat) (q : Option Job) (y : Nat) : (s.setJob j q).strand y = s.strand y := rfl
@[simp] theorem State.setJob_slot (s : State) (j : Nat) (q : Option Job) (y : Nat) : (s.setJob j q).slot y = s.slot y := rfl
@[simp] theorem State.setJob_qp (s : State) (j : Nat) (q : Option Job) (y : Nat) : (s.setJob j q).qp y = s.qp y := rfl
@[simp] theorem State.setJob_req (s : State) (j : Nat) (q : Option Job) (y : Nat) : (s.setJob j q).req y = s.req y := rfl
@[simp] theorem State.setJob_chan (s : State) (j : Nat) (q : Option Job) (y : Nat) : (s.setJob j q).chan y = s.chan y := rfl
@[simp] theorem State.setJob_monitor (s : State) (j : Nat) (q : Option Job) (y : Nat) : (s.setJob j q).monitor y = s.monitor y := rfl
@[simp] theorem State.setJob_staging (s : State) (j : Nat) (q : Option Job) (y : Nat) : (s.setJob j q).staging y = s.staging y := rfl
@[simp] theorem State.setJob_shadowOf (s : State) (j : Nat) (q : Option Job) (y : Nat) : (s.setJob j q).shadowOf y = s.shadowOf y := rfl
@[simp] theorem State.setJob_rd (s : State) (j : Nat) (q : Option Job) (nm : RegName) (un ix : Nat) : (s.setJob j q).rd nm un ix = s.rd nm un ix := rfl

/-! ### setChan -/

@[simp] theorem State.setChan_build (s : State) (n : Nat) (k : Tch) : (s.setChan n k).build = s.build := rfl
@[simp] theorem State.setChan_pending (s : State) (n : Nat) (k : Tch) : (s.setChan n k).pending = s.pending := rfl
@[simp] theorem State.setChan_free (s : State) (n : Nat) (k : Tch) : (s.setChan n k).free = s.free := rfl
@[simp] theorem State.setChan_clock (s : State) (n : Nat) (k : Tch) : (s.setChan n k).clock = s.clock := rfl
@[simp] theorem State.setChan_frame (s : State) (n : Nat) (k : Tch) : (s.setChan n k).frame = s.frame := rfl
@[simp] theorem State.setChan_ticking (s : State) (n : Nat) (k : Tch) : (s.setChan n k).ticking = s.ticking := rfl
@[simp] theorem State.setChan_fc (s : State) (n : Nat) (k : Tch) : (s.setChan n k).fc = s.fc := rfl
@[simp] theorem State.setChan_sel (s : State) (n : Nat) (k : Tch) : (s.setChan n k).sel = s.sel := rfl
@[simp] theorem State.setChan_cutoff (s : State) (n : Nat) (k : Tch) : (s.setChan n k).cutoff = s.cutoff := rfl
@[simp] theorem State.setChan_frozen (s : State) (n : Nat) (k : Tch) : (s.setChan n k).frozen = s.frozen := rfl
@[simp] theorem State.setChan_rot (s : State) (n : Nat) (k : Tch) : (s.setChan n k).rot = s.rot := rfl
@[simp] theorem State.setChan_rotAttr (s : State) (n : Nat) (k : Tch) : (s.setChan n k).rotAttr = s.rotAttr := rfl
@[simp] theorem State.setChan_offPend (s : State) (n : Nat) (k : Tch) : (s.setChan n k).offPend = s.offPend := rfl
@[simp] theorem State.setChan_bar (s : State) (n : Nat) (k : Tch) : (s.setChan n k).bar = s.bar := rfl
@[simp] theorem State.setChan_vfbar (s : State) (n : Nat) (k : Tch) : (s.setChan n k).vfbar = s.vfbar := rfl
@[simp] theorem State.setChan_lockFc (s : State) (n : Nat) (k : Tch) : (s.setChan n k).lockFc = s.lockFc := rfl
@[simp] theorem State.setChan_cores (s : State) (n : Nat) (k : Tch) : (s.setChan n k).cores = s.cores := rfl
@[simp] theorem State.setChan_clus (s : State) (n : Nat) (k : Tch) : (s.setChan n k).clus = s.clus := rfl
@[simp] theorem State.setChan_cells (s : State) (n : Nat) (k : Tch) : (s.setChan n k).cells = s.cells := rfl
@[simp] theorem State.setChan_parts (s : State) (n : Nat) (k : Tch) : (s.setChan n k).parts = s.parts := rfl
@[simp] theorem State.setChan_strands (s : State) (n : Nat) (k : Tch) : (s.setChan n k).strands = s.strands := rfl
@[simp] theorem State.setChan_mem (s : State) (n : Nat) (k : Tch) : (s.setChan n k).mem = s.mem := rfl
@[simp] theorem State.setChan_memErr (s : State) (n : Nat) (k : Tch) : (s.setChan n k).memErr = s.memErr := rfl
@[simp] theorem State.setChan_filled (s : State) (n : Nat) (k : Tch) : (s.setChan n k).filled = s.filled := rfl
@[simp] theorem State.setChan_scratch (s : State) (n : Nat) (k : Tch) : (s.setChan n k).scratch = s.scratch := rfl
@[simp] theorem State.setChan_l2 (s : State) (n : Nat) (k : Tch) : (s.setChan n k).l2 = s.l2 := rfl
@[simp] theorem State.setChan_dir (s : State) (n : Nat) (k : Tch) : (s.setChan n k).dir = s.dir := rfl
@[simp] theorem State.setChan_net (s : State) (n : Nat) (k : Tch) : (s.setChan n k).net = s.net := rfl
@[simp] theorem State.setChan_ncNet (s : State) (n : Nat) (k : Tch) : (s.setChan n k).ncNet = s.ncNet := rfl
@[simp] theorem State.setChan_ncAsk (s : State) (n : Nat) (k : Tch) : (s.setChan n k).ncAsk = s.ncAsk := rfl
@[simp] theorem State.setChan_ncGot (s : State) (n : Nat) (k : Tch) : (s.setChan n k).ncGot = s.ncGot := rfl
@[simp] theorem State.setChan_dirP (s : State) (n : Nat) (k : Tch) : (s.setChan n k).dirP = s.dirP := rfl
@[simp] theorem State.setChan_dirRes (s : State) (n : Nat) (k : Tch) : (s.setChan n k).dirRes = s.dirRes := rfl
@[simp] theorem State.setChan_mshr (s : State) (n : Nat) (k : Tch) : (s.setChan n k).mshr = s.mshr := rfl
@[simp] theorem State.setChan_slots (s : State) (n : Nat) (k : Tch) : (s.setChan n k).slots = s.slots := rfl
@[simp] theorem State.setChan_drbgD (s : State) (n : Nat) (k : Tch) : (s.setChan n k).drbgD = s.drbgD := rfl
@[simp] theorem State.setChan_jobs (s : State) (n : Nat) (k : Tch) : (s.setChan n k).jobs = s.jobs := rfl
@[simp] theorem State.setChan_jobNo (s : State) (n : Nat) (k : Tch) : (s.setChan n k).jobNo = s.jobNo := rfl
@[simp] theorem State.setChan_qps (s : State) (n : Nat) (k : Tch) : (s.setChan n k).qps = s.qps := rfl
@[simp] theorem State.setChan_rrFunc (s : State) (n : Nat) (k : Tch) : (s.setChan n k).rrFunc = s.rrFunc := rfl
@[simp] theorem State.setChan_rrQ (s : State) (n : Nat) (k : Tch) : (s.setChan n k).rrQ = s.rrQ := rfl
@[simp] theorem State.setChan_reqs (s : State) (n : Nat) (k : Tch) : (s.setChan n k).reqs = s.reqs := rfl
@[simp] theorem State.setChan_reqNo (s : State) (n : Nat) (k : Tch) : (s.setChan n k).reqNo = s.reqNo := rfl
@[simp] theorem State.setChan_adm (s : State) (n : Nat) (k : Tch) : (s.setChan n k).adm = s.adm := rfl
@[simp] theorem State.setChan_admWait (s : State) (n : Nat) (k : Tch) : (s.setChan n k).admWait = s.admWait := rfl
@[simp] theorem State.setChan_admDone (s : State) (n : Nat) (k : Tch) : (s.setChan n k).admDone = s.admDone := rfl
@[simp] theorem State.setChan_hostMem (s : State) (n : Nat) (k : Tch) : (s.setChan n k).hostMem = s.hostMem := rfl
@[simp] theorem State.setChan_msix (s : State) (n : Nat) (k : Tch) : (s.setChan n k).msix = s.msix := rfl
@[simp] theorem State.setChan_msixTab (s : State) (n : Nat) (k : Tch) : (s.setChan n k).msixTab = s.msixTab := rfl
@[simp] theorem State.setChan_pba (s : State) (n : Nat) (k : Tch) : (s.setChan n k).pba = s.pba := rfl
@[simp] theorem State.setChan_rdata (s : State) (n : Nat) (k : Tch) : (s.setChan n k).rdata = s.rdata := rfl
@[simp] theorem State.setChan_tpin (s : State) (n : Nat) (k : Tch) : (s.setChan n k).tpin = s.tpin := rfl
@[simp] theorem State.setChan_shadow (s : State) (n : Nat) (k : Tch) : (s.setChan n k).shadow = s.shadow := rfl
@[simp] theorem State.setChan_shd (s : State) (n : Nat) (k : Tch) : (s.setChan n k).shd = s.shd := rfl
@[simp] theorem State.setChan_mon (s : State) (n : Nat) (k : Tch) : (s.setChan n k).mon = s.mon := rfl
@[simp] theorem State.setChan_monStage (s : State) (n : Nat) (k : Tch) : (s.setChan n k).monStage = s.monStage := rfl
@[simp] theorem State.setChan_monClr (s : State) (n : Nat) (k : Tch) : (s.setChan n k).monClr = s.monClr := rfl
@[simp] theorem State.setChan_snap (s : State) (n : Nat) (k : Tch) : (s.setChan n k).snap = s.snap := rfl
@[simp] theorem State.setChan_alm (s : State) (n : Nat) (k : Tch) : (s.setChan n k).alm = s.alm := rfl
@[simp] theorem State.setChan_tamper (s : State) (n : Nat) (k : Tch) : (s.setChan n k).tamper = s.tamper := rfl
@[simp] theorem State.setChan_sbk (s : State) (n : Nat) (k : Tch) : (s.setChan n k).sbk = s.sbk := rfl
@[simp] theorem State.setChan_pwr (s : State) (n : Nat) (k : Tch) : (s.setChan n k).pwr = s.pwr := rfl
@[simp] theorem State.setChan_trngOk (s : State) (n : Nat) (k : Tch) : (s.setChan n k).trngOk = s.trngOk := rfl
@[simp] theorem State.setChan_reseeded (s : State) (n : Nat) (k : Tch) : (s.setChan n k).reseeded = s.reseeded := rfl
@[simp] theorem State.setChan_core (s : State) (n : Nat) (k : Tch) (y : Nat) : (s.setChan n k).core y = s.core y := rfl
@[simp] theorem State.setChan_clu (s : State) (n : Nat) (k : Tch) (y : Nat) : (s.setChan n k).clu y = s.clu y := rfl
@[simp] theorem State.setChan_cell (s : State) (n : Nat) (k : Tch) (y : Nat) : (s.setChan n k).cell y = s.cell y := rfl
@[simp] theorem State.setChan_part (s : State) (n : Nat) (k : Tch) (y : Nat) : (s.setChan n k).part y = s.part y := rfl
@[simp] theorem State.setChan_strand (s : State) (n : Nat) (k : Tch) (y : Nat) : (s.setChan n k).strand y = s.strand y := rfl
@[simp] theorem State.setChan_slot (s : State) (n : Nat) (k : Tch) (y : Nat) : (s.setChan n k).slot y = s.slot y := rfl
@[simp] theorem State.setChan_qp (s : State) (n : Nat) (k : Tch) (y : Nat) : (s.setChan n k).qp y = s.qp y := rfl
@[simp] theorem State.setChan_req (s : State) (n : Nat) (k : Tch) (y : Nat) : (s.setChan n k).req y = s.req y := rfl
@[simp] theorem State.setChan_job (s : State) (n : Nat) (k : Tch) (y : Nat) : (s.setChan n k).job y = s.job y := rfl
@[simp] theorem State.setChan_monitor (s : State) (n : Nat) (k : Tch) (y : Nat) : (s.setChan n k).monitor y = s.monitor y := rfl
@[simp] theorem State.setChan_staging (s : State) (n : Nat) (k : Tch) (y : Nat) : (s.setChan n k).staging y = s.staging y := rfl
@[simp] theorem State.setChan_shadowOf (s : State) (n : Nat) (k : Tch) (y : Nat) : (s.setChan n k).shadowOf y = s.shadowOf y := rfl
@[simp] theorem State.setChan_rd (s : State) (n : Nat) (k : Tch) (nm : RegName) (un ix : Nat) : (s.setChan n k).rd nm un ix = s.rd nm un ix := rfl

/-! ### setMonitor -/

@[simp] theorem State.setMonitor_build (s : State) (m : Nat) (k : Mon) : (s.setMonitor m k).build = s.build := rfl
@[simp] theorem State.setMonitor_pending (s : State) (m : Nat) (k : Mon) : (s.setMonitor m k).pending = s.pending := rfl
@[simp] theorem State.setMonitor_free (s : State) (m : Nat) (k : Mon) : (s.setMonitor m k).free = s.free := rfl
@[simp] theorem State.setMonitor_clock (s : State) (m : Nat) (k : Mon) : (s.setMonitor m k).clock = s.clock := rfl
@[simp] theorem State.setMonitor_frame (s : State) (m : Nat) (k : Mon) : (s.setMonitor m k).frame = s.frame := rfl
@[simp] theorem State.setMonitor_ticking (s : State) (m : Nat) (k : Mon) : (s.setMonitor m k).ticking = s.ticking := rfl
@[simp] theorem State.setMonitor_fc (s : State) (m : Nat) (k : Mon) : (s.setMonitor m k).fc = s.fc := rfl
@[simp] theorem State.setMonitor_sel (s : State) (m : Nat) (k : Mon) : (s.setMonitor m k).sel = s.sel := rfl
@[simp] theorem State.setMonitor_cutoff (s : State) (m : Nat) (k : Mon) : (s.setMonitor m k).cutoff = s.cutoff := rfl
@[simp] theorem State.setMonitor_frozen (s : State) (m : Nat) (k : Mon) : (s.setMonitor m k).frozen = s.frozen := rfl
@[simp] theorem State.setMonitor_rot (s : State) (m : Nat) (k : Mon) : (s.setMonitor m k).rot = s.rot := rfl
@[simp] theorem State.setMonitor_rotAttr (s : State) (m : Nat) (k : Mon) : (s.setMonitor m k).rotAttr = s.rotAttr := rfl
@[simp] theorem State.setMonitor_offPend (s : State) (m : Nat) (k : Mon) : (s.setMonitor m k).offPend = s.offPend := rfl
@[simp] theorem State.setMonitor_bar (s : State) (m : Nat) (k : Mon) : (s.setMonitor m k).bar = s.bar := rfl
@[simp] theorem State.setMonitor_vfbar (s : State) (m : Nat) (k : Mon) : (s.setMonitor m k).vfbar = s.vfbar := rfl
@[simp] theorem State.setMonitor_lockFc (s : State) (m : Nat) (k : Mon) : (s.setMonitor m k).lockFc = s.lockFc := rfl
@[simp] theorem State.setMonitor_cores (s : State) (m : Nat) (k : Mon) : (s.setMonitor m k).cores = s.cores := rfl
@[simp] theorem State.setMonitor_clus (s : State) (m : Nat) (k : Mon) : (s.setMonitor m k).clus = s.clus := rfl
@[simp] theorem State.setMonitor_cells (s : State) (m : Nat) (k : Mon) : (s.setMonitor m k).cells = s.cells := rfl
@[simp] theorem State.setMonitor_parts (s : State) (m : Nat) (k : Mon) : (s.setMonitor m k).parts = s.parts := rfl
@[simp] theorem State.setMonitor_strands (s : State) (m : Nat) (k : Mon) : (s.setMonitor m k).strands = s.strands := rfl
@[simp] theorem State.setMonitor_mem (s : State) (m : Nat) (k : Mon) : (s.setMonitor m k).mem = s.mem := rfl
@[simp] theorem State.setMonitor_memErr (s : State) (m : Nat) (k : Mon) : (s.setMonitor m k).memErr = s.memErr := rfl
@[simp] theorem State.setMonitor_filled (s : State) (m : Nat) (k : Mon) : (s.setMonitor m k).filled = s.filled := rfl
@[simp] theorem State.setMonitor_scratch (s : State) (m : Nat) (k : Mon) : (s.setMonitor m k).scratch = s.scratch := rfl
@[simp] theorem State.setMonitor_l2 (s : State) (m : Nat) (k : Mon) : (s.setMonitor m k).l2 = s.l2 := rfl
@[simp] theorem State.setMonitor_dir (s : State) (m : Nat) (k : Mon) : (s.setMonitor m k).dir = s.dir := rfl
@[simp] theorem State.setMonitor_net (s : State) (m : Nat) (k : Mon) : (s.setMonitor m k).net = s.net := rfl
@[simp] theorem State.setMonitor_ncNet (s : State) (m : Nat) (k : Mon) : (s.setMonitor m k).ncNet = s.ncNet := rfl
@[simp] theorem State.setMonitor_ncAsk (s : State) (m : Nat) (k : Mon) : (s.setMonitor m k).ncAsk = s.ncAsk := rfl
@[simp] theorem State.setMonitor_ncGot (s : State) (m : Nat) (k : Mon) : (s.setMonitor m k).ncGot = s.ncGot := rfl
@[simp] theorem State.setMonitor_dirP (s : State) (m : Nat) (k : Mon) : (s.setMonitor m k).dirP = s.dirP := rfl
@[simp] theorem State.setMonitor_dirRes (s : State) (m : Nat) (k : Mon) : (s.setMonitor m k).dirRes = s.dirRes := rfl
@[simp] theorem State.setMonitor_mshr (s : State) (m : Nat) (k : Mon) : (s.setMonitor m k).mshr = s.mshr := rfl
@[simp] theorem State.setMonitor_slots (s : State) (m : Nat) (k : Mon) : (s.setMonitor m k).slots = s.slots := rfl
@[simp] theorem State.setMonitor_drbgD (s : State) (m : Nat) (k : Mon) : (s.setMonitor m k).drbgD = s.drbgD := rfl
@[simp] theorem State.setMonitor_jobs (s : State) (m : Nat) (k : Mon) : (s.setMonitor m k).jobs = s.jobs := rfl
@[simp] theorem State.setMonitor_jobNo (s : State) (m : Nat) (k : Mon) : (s.setMonitor m k).jobNo = s.jobNo := rfl
@[simp] theorem State.setMonitor_qps (s : State) (m : Nat) (k : Mon) : (s.setMonitor m k).qps = s.qps := rfl
@[simp] theorem State.setMonitor_rrFunc (s : State) (m : Nat) (k : Mon) : (s.setMonitor m k).rrFunc = s.rrFunc := rfl
@[simp] theorem State.setMonitor_rrQ (s : State) (m : Nat) (k : Mon) : (s.setMonitor m k).rrQ = s.rrQ := rfl
@[simp] theorem State.setMonitor_reqs (s : State) (m : Nat) (k : Mon) : (s.setMonitor m k).reqs = s.reqs := rfl
@[simp] theorem State.setMonitor_reqNo (s : State) (m : Nat) (k : Mon) : (s.setMonitor m k).reqNo = s.reqNo := rfl
@[simp] theorem State.setMonitor_adm (s : State) (m : Nat) (k : Mon) : (s.setMonitor m k).adm = s.adm := rfl
@[simp] theorem State.setMonitor_admWait (s : State) (m : Nat) (k : Mon) : (s.setMonitor m k).admWait = s.admWait := rfl
@[simp] theorem State.setMonitor_admDone (s : State) (m : Nat) (k : Mon) : (s.setMonitor m k).admDone = s.admDone := rfl
@[simp] theorem State.setMonitor_hostMem (s : State) (m : Nat) (k : Mon) : (s.setMonitor m k).hostMem = s.hostMem := rfl
@[simp] theorem State.setMonitor_msix (s : State) (m : Nat) (k : Mon) : (s.setMonitor m k).msix = s.msix := rfl
@[simp] theorem State.setMonitor_msixTab (s : State) (m : Nat) (k : Mon) : (s.setMonitor m k).msixTab = s.msixTab := rfl
@[simp] theorem State.setMonitor_pba (s : State) (m : Nat) (k : Mon) : (s.setMonitor m k).pba = s.pba := rfl
@[simp] theorem State.setMonitor_rdata (s : State) (m : Nat) (k : Mon) : (s.setMonitor m k).rdata = s.rdata := rfl
@[simp] theorem State.setMonitor_tch (s : State) (m : Nat) (k : Mon) : (s.setMonitor m k).tch = s.tch := rfl
@[simp] theorem State.setMonitor_tpin (s : State) (m : Nat) (k : Mon) : (s.setMonitor m k).tpin = s.tpin := rfl
@[simp] theorem State.setMonitor_shadow (s : State) (m : Nat) (k : Mon) : (s.setMonitor m k).shadow = s.shadow := rfl
@[simp] theorem State.setMonitor_shd (s : State) (m : Nat) (k : Mon) : (s.setMonitor m k).shd = s.shd := rfl
@[simp] theorem State.setMonitor_monStage (s : State) (m : Nat) (k : Mon) : (s.setMonitor m k).monStage = s.monStage := rfl
@[simp] theorem State.setMonitor_monClr (s : State) (m : Nat) (k : Mon) : (s.setMonitor m k).monClr = s.monClr := rfl
@[simp] theorem State.setMonitor_snap (s : State) (m : Nat) (k : Mon) : (s.setMonitor m k).snap = s.snap := rfl
@[simp] theorem State.setMonitor_alm (s : State) (m : Nat) (k : Mon) : (s.setMonitor m k).alm = s.alm := rfl
@[simp] theorem State.setMonitor_tamper (s : State) (m : Nat) (k : Mon) : (s.setMonitor m k).tamper = s.tamper := rfl
@[simp] theorem State.setMonitor_sbk (s : State) (m : Nat) (k : Mon) : (s.setMonitor m k).sbk = s.sbk := rfl
@[simp] theorem State.setMonitor_pwr (s : State) (m : Nat) (k : Mon) : (s.setMonitor m k).pwr = s.pwr := rfl
@[simp] theorem State.setMonitor_trngOk (s : State) (m : Nat) (k : Mon) : (s.setMonitor m k).trngOk = s.trngOk := rfl
@[simp] theorem State.setMonitor_reseeded (s : State) (m : Nat) (k : Mon) : (s.setMonitor m k).reseeded = s.reseeded := rfl
@[simp] theorem State.setMonitor_core (s : State) (m : Nat) (k : Mon) (y : Nat) : (s.setMonitor m k).core y = s.core y := rfl
@[simp] theorem State.setMonitor_clu (s : State) (m : Nat) (k : Mon) (y : Nat) : (s.setMonitor m k).clu y = s.clu y := rfl
@[simp] theorem State.setMonitor_cell (s : State) (m : Nat) (k : Mon) (y : Nat) : (s.setMonitor m k).cell y = s.cell y := rfl
@[simp] theorem State.setMonitor_part (s : State) (m : Nat) (k : Mon) (y : Nat) : (s.setMonitor m k).part y = s.part y := rfl
@[simp] theorem State.setMonitor_strand (s : State) (m : Nat) (k : Mon) (y : Nat) : (s.setMonitor m k).strand y = s.strand y := rfl
@[simp] theorem State.setMonitor_slot (s : State) (m : Nat) (k : Mon) (y : Nat) : (s.setMonitor m k).slot y = s.slot y := rfl
@[simp] theorem State.setMonitor_qp (s : State) (m : Nat) (k : Mon) (y : Nat) : (s.setMonitor m k).qp y = s.qp y := rfl
@[simp] theorem State.setMonitor_req (s : State) (m : Nat) (k : Mon) (y : Nat) : (s.setMonitor m k).req y = s.req y := rfl
@[simp] theorem State.setMonitor_job (s : State) (m : Nat) (k : Mon) (y : Nat) : (s.setMonitor m k).job y = s.job y := rfl
@[simp] theorem State.setMonitor_chan (s : State) (m : Nat) (k : Mon) (y : Nat) : (s.setMonitor m k).chan y = s.chan y := rfl
@[simp] theorem State.setMonitor_staging (s : State) (m : Nat) (k : Mon) (y : Nat) : (s.setMonitor m k).staging y = s.staging y := rfl
@[simp] theorem State.setMonitor_shadowOf (s : State) (m : Nat) (k : Mon) (y : Nat) : (s.setMonitor m k).shadowOf y = s.shadowOf y := rfl
@[simp] theorem State.setMonitor_rd (s : State) (m : Nat) (k : Mon) (nm : RegName) (un ix : Nat) : (s.setMonitor m k).rd nm un ix = s.rd nm un ix := rfl

/-! ### setStaging -/

@[simp] theorem State.setStaging_build (s : State) (m : Nat) (k : Mon) : (s.setStaging m k).build = s.build := rfl
@[simp] theorem State.setStaging_pending (s : State) (m : Nat) (k : Mon) : (s.setStaging m k).pending = s.pending := rfl
@[simp] theorem State.setStaging_free (s : State) (m : Nat) (k : Mon) : (s.setStaging m k).free = s.free := rfl
@[simp] theorem State.setStaging_clock (s : State) (m : Nat) (k : Mon) : (s.setStaging m k).clock = s.clock := rfl
@[simp] theorem State.setStaging_frame (s : State) (m : Nat) (k : Mon) : (s.setStaging m k).frame = s.frame := rfl
@[simp] theorem State.setStaging_ticking (s : State) (m : Nat) (k : Mon) : (s.setStaging m k).ticking = s.ticking := rfl
@[simp] theorem State.setStaging_fc (s : State) (m : Nat) (k : Mon) : (s.setStaging m k).fc = s.fc := rfl
@[simp] theorem State.setStaging_sel (s : State) (m : Nat) (k : Mon) : (s.setStaging m k).sel = s.sel := rfl
@[simp] theorem State.setStaging_cutoff (s : State) (m : Nat) (k : Mon) : (s.setStaging m k).cutoff = s.cutoff := rfl
@[simp] theorem State.setStaging_frozen (s : State) (m : Nat) (k : Mon) : (s.setStaging m k).frozen = s.frozen := rfl
@[simp] theorem State.setStaging_rot (s : State) (m : Nat) (k : Mon) : (s.setStaging m k).rot = s.rot := rfl
@[simp] theorem State.setStaging_rotAttr (s : State) (m : Nat) (k : Mon) : (s.setStaging m k).rotAttr = s.rotAttr := rfl
@[simp] theorem State.setStaging_offPend (s : State) (m : Nat) (k : Mon) : (s.setStaging m k).offPend = s.offPend := rfl
@[simp] theorem State.setStaging_bar (s : State) (m : Nat) (k : Mon) : (s.setStaging m k).bar = s.bar := rfl
@[simp] theorem State.setStaging_vfbar (s : State) (m : Nat) (k : Mon) : (s.setStaging m k).vfbar = s.vfbar := rfl
@[simp] theorem State.setStaging_lockFc (s : State) (m : Nat) (k : Mon) : (s.setStaging m k).lockFc = s.lockFc := rfl
@[simp] theorem State.setStaging_cores (s : State) (m : Nat) (k : Mon) : (s.setStaging m k).cores = s.cores := rfl
@[simp] theorem State.setStaging_clus (s : State) (m : Nat) (k : Mon) : (s.setStaging m k).clus = s.clus := rfl
@[simp] theorem State.setStaging_cells (s : State) (m : Nat) (k : Mon) : (s.setStaging m k).cells = s.cells := rfl
@[simp] theorem State.setStaging_parts (s : State) (m : Nat) (k : Mon) : (s.setStaging m k).parts = s.parts := rfl
@[simp] theorem State.setStaging_strands (s : State) (m : Nat) (k : Mon) : (s.setStaging m k).strands = s.strands := rfl
@[simp] theorem State.setStaging_mem (s : State) (m : Nat) (k : Mon) : (s.setStaging m k).mem = s.mem := rfl
@[simp] theorem State.setStaging_memErr (s : State) (m : Nat) (k : Mon) : (s.setStaging m k).memErr = s.memErr := rfl
@[simp] theorem State.setStaging_filled (s : State) (m : Nat) (k : Mon) : (s.setStaging m k).filled = s.filled := rfl
@[simp] theorem State.setStaging_scratch (s : State) (m : Nat) (k : Mon) : (s.setStaging m k).scratch = s.scratch := rfl
@[simp] theorem State.setStaging_l2 (s : State) (m : Nat) (k : Mon) : (s.setStaging m k).l2 = s.l2 := rfl
@[simp] theorem State.setStaging_dir (s : State) (m : Nat) (k : Mon) : (s.setStaging m k).dir = s.dir := rfl
@[simp] theorem State.setStaging_net (s : State) (m : Nat) (k : Mon) : (s.setStaging m k).net = s.net := rfl
@[simp] theorem State.setStaging_ncNet (s : State) (m : Nat) (k : Mon) : (s.setStaging m k).ncNet = s.ncNet := rfl
@[simp] theorem State.setStaging_ncAsk (s : State) (m : Nat) (k : Mon) : (s.setStaging m k).ncAsk = s.ncAsk := rfl
@[simp] theorem State.setStaging_ncGot (s : State) (m : Nat) (k : Mon) : (s.setStaging m k).ncGot = s.ncGot := rfl
@[simp] theorem State.setStaging_dirP (s : State) (m : Nat) (k : Mon) : (s.setStaging m k).dirP = s.dirP := rfl
@[simp] theorem State.setStaging_dirRes (s : State) (m : Nat) (k : Mon) : (s.setStaging m k).dirRes = s.dirRes := rfl
@[simp] theorem State.setStaging_mshr (s : State) (m : Nat) (k : Mon) : (s.setStaging m k).mshr = s.mshr := rfl
@[simp] theorem State.setStaging_slots (s : State) (m : Nat) (k : Mon) : (s.setStaging m k).slots = s.slots := rfl
@[simp] theorem State.setStaging_drbgD (s : State) (m : Nat) (k : Mon) : (s.setStaging m k).drbgD = s.drbgD := rfl
@[simp] theorem State.setStaging_jobs (s : State) (m : Nat) (k : Mon) : (s.setStaging m k).jobs = s.jobs := rfl
@[simp] theorem State.setStaging_jobNo (s : State) (m : Nat) (k : Mon) : (s.setStaging m k).jobNo = s.jobNo := rfl
@[simp] theorem State.setStaging_qps (s : State) (m : Nat) (k : Mon) : (s.setStaging m k).qps = s.qps := rfl
@[simp] theorem State.setStaging_rrFunc (s : State) (m : Nat) (k : Mon) : (s.setStaging m k).rrFunc = s.rrFunc := rfl
@[simp] theorem State.setStaging_rrQ (s : State) (m : Nat) (k : Mon) : (s.setStaging m k).rrQ = s.rrQ := rfl
@[simp] theorem State.setStaging_reqs (s : State) (m : Nat) (k : Mon) : (s.setStaging m k).reqs = s.reqs := rfl
@[simp] theorem State.setStaging_reqNo (s : State) (m : Nat) (k : Mon) : (s.setStaging m k).reqNo = s.reqNo := rfl
@[simp] theorem State.setStaging_adm (s : State) (m : Nat) (k : Mon) : (s.setStaging m k).adm = s.adm := rfl
@[simp] theorem State.setStaging_admWait (s : State) (m : Nat) (k : Mon) : (s.setStaging m k).admWait = s.admWait := rfl
@[simp] theorem State.setStaging_admDone (s : State) (m : Nat) (k : Mon) : (s.setStaging m k).admDone = s.admDone := rfl
@[simp] theorem State.setStaging_hostMem (s : State) (m : Nat) (k : Mon) : (s.setStaging m k).hostMem = s.hostMem := rfl
@[simp] theorem State.setStaging_msix (s : State) (m : Nat) (k : Mon) : (s.setStaging m k).msix = s.msix := rfl
@[simp] theorem State.setStaging_msixTab (s : State) (m : Nat) (k : Mon) : (s.setStaging m k).msixTab = s.msixTab := rfl
@[simp] theorem State.setStaging_pba (s : State) (m : Nat) (k : Mon) : (s.setStaging m k).pba = s.pba := rfl
@[simp] theorem State.setStaging_rdata (s : State) (m : Nat) (k : Mon) : (s.setStaging m k).rdata = s.rdata := rfl
@[simp] theorem State.setStaging_tch (s : State) (m : Nat) (k : Mon) : (s.setStaging m k).tch = s.tch := rfl
@[simp] theorem State.setStaging_tpin (s : State) (m : Nat) (k : Mon) : (s.setStaging m k).tpin = s.tpin := rfl
@[simp] theorem State.setStaging_shadow (s : State) (m : Nat) (k : Mon) : (s.setStaging m k).shadow = s.shadow := rfl
@[simp] theorem State.setStaging_shd (s : State) (m : Nat) (k : Mon) : (s.setStaging m k).shd = s.shd := rfl
@[simp] theorem State.setStaging_mon (s : State) (m : Nat) (k : Mon) : (s.setStaging m k).mon = s.mon := rfl
@[simp] theorem State.setStaging_monClr (s : State) (m : Nat) (k : Mon) : (s.setStaging m k).monClr = s.monClr := rfl
@[simp] theorem State.setStaging_snap (s : State) (m : Nat) (k : Mon) : (s.setStaging m k).snap = s.snap := rfl
@[simp] theorem State.setStaging_alm (s : State) (m : Nat) (k : Mon) : (s.setStaging m k).alm = s.alm := rfl
@[simp] theorem State.setStaging_tamper (s : State) (m : Nat) (k : Mon) : (s.setStaging m k).tamper = s.tamper := rfl
@[simp] theorem State.setStaging_sbk (s : State) (m : Nat) (k : Mon) : (s.setStaging m k).sbk = s.sbk := rfl
@[simp] theorem State.setStaging_pwr (s : State) (m : Nat) (k : Mon) : (s.setStaging m k).pwr = s.pwr := rfl
@[simp] theorem State.setStaging_trngOk (s : State) (m : Nat) (k : Mon) : (s.setStaging m k).trngOk = s.trngOk := rfl
@[simp] theorem State.setStaging_reseeded (s : State) (m : Nat) (k : Mon) : (s.setStaging m k).reseeded = s.reseeded := rfl
@[simp] theorem State.setStaging_core (s : State) (m : Nat) (k : Mon) (y : Nat) : (s.setStaging m k).core y = s.core y := rfl
@[simp] theorem State.setStaging_clu (s : State) (m : Nat) (k : Mon) (y : Nat) : (s.setStaging m k).clu y = s.clu y := rfl
@[simp] theorem State.setStaging_cell (s : State) (m : Nat) (k : Mon) (y : Nat) : (s.setStaging m k).cell y = s.cell y := rfl
@[simp] theorem State.setStaging_part (s : State) (m : Nat) (k : Mon) (y : Nat) : (s.setStaging m k).part y = s.part y := rfl
@[simp] theorem State.setStaging_strand (s : State) (m : Nat) (k : Mon) (y : Nat) : (s.setStaging m k).strand y = s.strand y := rfl
@[simp] theorem State.setStaging_slot (s : State) (m : Nat) (k : Mon) (y : Nat) : (s.setStaging m k).slot y = s.slot y := rfl
@[simp] theorem State.setStaging_qp (s : State) (m : Nat) (k : Mon) (y : Nat) : (s.setStaging m k).qp y = s.qp y := rfl
@[simp] theorem State.setStaging_req (s : State) (m : Nat) (k : Mon) (y : Nat) : (s.setStaging m k).req y = s.req y := rfl
@[simp] theorem State.setStaging_job (s : State) (m : Nat) (k : Mon) (y : Nat) : (s.setStaging m k).job y = s.job y := rfl
@[simp] theorem State.setStaging_chan (s : State) (m : Nat) (k : Mon) (y : Nat) : (s.setStaging m k).chan y = s.chan y := rfl
@[simp] theorem State.setStaging_monitor (s : State) (m : Nat) (k : Mon) (y : Nat) : (s.setStaging m k).monitor y = s.monitor y := rfl
@[simp] theorem State.setStaging_shadowOf (s : State) (m : Nat) (k : Mon) (y : Nat) : (s.setStaging m k).shadowOf y = s.shadowOf y := rfl
@[simp] theorem State.setStaging_rd (s : State) (m : Nat) (k : Mon) (nm : RegName) (un ix : Nat) : (s.setStaging m k).rd nm un ix = s.rd nm un ix := rfl

/-! ### setShadow -/

@[simp] theorem State.setShadow_build (s : State) (i : Nat) (x : Shadow) : (s.setShadow i x).build = s.build := rfl
@[simp] theorem State.setShadow_pending (s : State) (i : Nat) (x : Shadow) : (s.setShadow i x).pending = s.pending := rfl
@[simp] theorem State.setShadow_free (s : State) (i : Nat) (x : Shadow) : (s.setShadow i x).free = s.free := rfl
@[simp] theorem State.setShadow_clock (s : State) (i : Nat) (x : Shadow) : (s.setShadow i x).clock = s.clock := rfl
@[simp] theorem State.setShadow_frame (s : State) (i : Nat) (x : Shadow) : (s.setShadow i x).frame = s.frame := rfl
@[simp] theorem State.setShadow_ticking (s : State) (i : Nat) (x : Shadow) : (s.setShadow i x).ticking = s.ticking := rfl
@[simp] theorem State.setShadow_fc (s : State) (i : Nat) (x : Shadow) : (s.setShadow i x).fc = s.fc := rfl
@[simp] theorem State.setShadow_sel (s : State) (i : Nat) (x : Shadow) : (s.setShadow i x).sel = s.sel := rfl
@[simp] theorem State.setShadow_cutoff (s : State) (i : Nat) (x : Shadow) : (s.setShadow i x).cutoff = s.cutoff := rfl
@[simp] theorem State.setShadow_frozen (s : State) (i : Nat) (x : Shadow) : (s.setShadow i x).frozen = s.frozen := rfl
@[simp] theorem State.setShadow_rot (s : State) (i : Nat) (x : Shadow) : (s.setShadow i x).rot = s.rot := rfl
@[simp] theorem State.setShadow_rotAttr (s : State) (i : Nat) (x : Shadow) : (s.setShadow i x).rotAttr = s.rotAttr := rfl
@[simp] theorem State.setShadow_offPend (s : State) (i : Nat) (x : Shadow) : (s.setShadow i x).offPend = s.offPend := rfl
@[simp] theorem State.setShadow_bar (s : State) (i : Nat) (x : Shadow) : (s.setShadow i x).bar = s.bar := rfl
@[simp] theorem State.setShadow_vfbar (s : State) (i : Nat) (x : Shadow) : (s.setShadow i x).vfbar = s.vfbar := rfl
@[simp] theorem State.setShadow_lockFc (s : State) (i : Nat) (x : Shadow) : (s.setShadow i x).lockFc = s.lockFc := rfl
@[simp] theorem State.setShadow_cores (s : State) (i : Nat) (x : Shadow) : (s.setShadow i x).cores = s.cores := rfl
@[simp] theorem State.setShadow_clus (s : State) (i : Nat) (x : Shadow) : (s.setShadow i x).clus = s.clus := rfl
@[simp] theorem State.setShadow_cells (s : State) (i : Nat) (x : Shadow) : (s.setShadow i x).cells = s.cells := rfl
@[simp] theorem State.setShadow_parts (s : State) (i : Nat) (x : Shadow) : (s.setShadow i x).parts = s.parts := rfl
@[simp] theorem State.setShadow_strands (s : State) (i : Nat) (x : Shadow) : (s.setShadow i x).strands = s.strands := rfl
@[simp] theorem State.setShadow_mem (s : State) (i : Nat) (x : Shadow) : (s.setShadow i x).mem = s.mem := rfl
@[simp] theorem State.setShadow_memErr (s : State) (i : Nat) (x : Shadow) : (s.setShadow i x).memErr = s.memErr := rfl
@[simp] theorem State.setShadow_filled (s : State) (i : Nat) (x : Shadow) : (s.setShadow i x).filled = s.filled := rfl
@[simp] theorem State.setShadow_scratch (s : State) (i : Nat) (x : Shadow) : (s.setShadow i x).scratch = s.scratch := rfl
@[simp] theorem State.setShadow_l2 (s : State) (i : Nat) (x : Shadow) : (s.setShadow i x).l2 = s.l2 := rfl
@[simp] theorem State.setShadow_dir (s : State) (i : Nat) (x : Shadow) : (s.setShadow i x).dir = s.dir := rfl
@[simp] theorem State.setShadow_net (s : State) (i : Nat) (x : Shadow) : (s.setShadow i x).net = s.net := rfl
@[simp] theorem State.setShadow_ncNet (s : State) (i : Nat) (x : Shadow) : (s.setShadow i x).ncNet = s.ncNet := rfl
@[simp] theorem State.setShadow_ncAsk (s : State) (i : Nat) (x : Shadow) : (s.setShadow i x).ncAsk = s.ncAsk := rfl
@[simp] theorem State.setShadow_ncGot (s : State) (i : Nat) (x : Shadow) : (s.setShadow i x).ncGot = s.ncGot := rfl
@[simp] theorem State.setShadow_dirP (s : State) (i : Nat) (x : Shadow) : (s.setShadow i x).dirP = s.dirP := rfl
@[simp] theorem State.setShadow_dirRes (s : State) (i : Nat) (x : Shadow) : (s.setShadow i x).dirRes = s.dirRes := rfl
@[simp] theorem State.setShadow_mshr (s : State) (i : Nat) (x : Shadow) : (s.setShadow i x).mshr = s.mshr := rfl
@[simp] theorem State.setShadow_slots (s : State) (i : Nat) (x : Shadow) : (s.setShadow i x).slots = s.slots := rfl
@[simp] theorem State.setShadow_drbgD (s : State) (i : Nat) (x : Shadow) : (s.setShadow i x).drbgD = s.drbgD := rfl
@[simp] theorem State.setShadow_jobs (s : State) (i : Nat) (x : Shadow) : (s.setShadow i x).jobs = s.jobs := rfl
@[simp] theorem State.setShadow_jobNo (s : State) (i : Nat) (x : Shadow) : (s.setShadow i x).jobNo = s.jobNo := rfl
@[simp] theorem State.setShadow_qps (s : State) (i : Nat) (x : Shadow) : (s.setShadow i x).qps = s.qps := rfl
@[simp] theorem State.setShadow_rrFunc (s : State) (i : Nat) (x : Shadow) : (s.setShadow i x).rrFunc = s.rrFunc := rfl
@[simp] theorem State.setShadow_rrQ (s : State) (i : Nat) (x : Shadow) : (s.setShadow i x).rrQ = s.rrQ := rfl
@[simp] theorem State.setShadow_reqs (s : State) (i : Nat) (x : Shadow) : (s.setShadow i x).reqs = s.reqs := rfl
@[simp] theorem State.setShadow_reqNo (s : State) (i : Nat) (x : Shadow) : (s.setShadow i x).reqNo = s.reqNo := rfl
@[simp] theorem State.setShadow_adm (s : State) (i : Nat) (x : Shadow) : (s.setShadow i x).adm = s.adm := rfl
@[simp] theorem State.setShadow_admWait (s : State) (i : Nat) (x : Shadow) : (s.setShadow i x).admWait = s.admWait := rfl
@[simp] theorem State.setShadow_admDone (s : State) (i : Nat) (x : Shadow) : (s.setShadow i x).admDone = s.admDone := rfl
@[simp] theorem State.setShadow_hostMem (s : State) (i : Nat) (x : Shadow) : (s.setShadow i x).hostMem = s.hostMem := rfl
@[simp] theorem State.setShadow_msix (s : State) (i : Nat) (x : Shadow) : (s.setShadow i x).msix = s.msix := rfl
@[simp] theorem State.setShadow_msixTab (s : State) (i : Nat) (x : Shadow) : (s.setShadow i x).msixTab = s.msixTab := rfl
@[simp] theorem State.setShadow_pba (s : State) (i : Nat) (x : Shadow) : (s.setShadow i x).pba = s.pba := rfl
@[simp] theorem State.setShadow_rdata (s : State) (i : Nat) (x : Shadow) : (s.setShadow i x).rdata = s.rdata := rfl
@[simp] theorem State.setShadow_tch (s : State) (i : Nat) (x : Shadow) : (s.setShadow i x).tch = s.tch := rfl
@[simp] theorem State.setShadow_tpin (s : State) (i : Nat) (x : Shadow) : (s.setShadow i x).tpin = s.tpin := rfl
@[simp] theorem State.setShadow_shd (s : State) (i : Nat) (x : Shadow) : (s.setShadow i x).shd = s.shd := rfl
@[simp] theorem State.setShadow_mon (s : State) (i : Nat) (x : Shadow) : (s.setShadow i x).mon = s.mon := rfl
@[simp] theorem State.setShadow_monStage (s : State) (i : Nat) (x : Shadow) : (s.setShadow i x).monStage = s.monStage := rfl
@[simp] theorem State.setShadow_monClr (s : State) (i : Nat) (x : Shadow) : (s.setShadow i x).monClr = s.monClr := rfl
@[simp] theorem State.setShadow_snap (s : State) (i : Nat) (x : Shadow) : (s.setShadow i x).snap = s.snap := rfl
@[simp] theorem State.setShadow_alm (s : State) (i : Nat) (x : Shadow) : (s.setShadow i x).alm = s.alm := rfl
@[simp] theorem State.setShadow_tamper (s : State) (i : Nat) (x : Shadow) : (s.setShadow i x).tamper = s.tamper := rfl
@[simp] theorem State.setShadow_sbk (s : State) (i : Nat) (x : Shadow) : (s.setShadow i x).sbk = s.sbk := rfl
@[simp] theorem State.setShadow_pwr (s : State) (i : Nat) (x : Shadow) : (s.setShadow i x).pwr = s.pwr := rfl
@[simp] theorem State.setShadow_trngOk (s : State) (i : Nat) (x : Shadow) : (s.setShadow i x).trngOk = s.trngOk := rfl
@[simp] theorem State.setShadow_reseeded (s : State) (i : Nat) (x : Shadow) : (s.setShadow i x).reseeded = s.reseeded := rfl
@[simp] theorem State.setShadow_core (s : State) (i : Nat) (x : Shadow) (y : Nat) : (s.setShadow i x).core y = s.core y := rfl
@[simp] theorem State.setShadow_clu (s : State) (i : Nat) (x : Shadow) (y : Nat) : (s.setShadow i x).clu y = s.clu y := rfl
@[simp] theorem State.setShadow_cell (s : State) (i : Nat) (x : Shadow) (y : Nat) : (s.setShadow i x).cell y = s.cell y := rfl
@[simp] theorem State.setShadow_part (s : State) (i : Nat) (x : Shadow) (y : Nat) : (s.setShadow i x).part y = s.part y := rfl
@[simp] theorem State.setShadow_strand (s : State) (i : Nat) (x : Shadow) (y : Nat) : (s.setShadow i x).strand y = s.strand y := rfl
@[simp] theorem State.setShadow_slot (s : State) (i : Nat) (x : Shadow) (y : Nat) : (s.setShadow i x).slot y = s.slot y := rfl
@[simp] theorem State.setShadow_qp (s : State) (i : Nat) (x : Shadow) (y : Nat) : (s.setShadow i x).qp y = s.qp y := rfl
@[simp] theorem State.setShadow_req (s : State) (i : Nat) (x : Shadow) (y : Nat) : (s.setShadow i x).req y = s.req y := rfl
@[simp] theorem State.setShadow_job (s : State) (i : Nat) (x : Shadow) (y : Nat) : (s.setShadow i x).job y = s.job y := rfl
@[simp] theorem State.setShadow_chan (s : State) (i : Nat) (x : Shadow) (y : Nat) : (s.setShadow i x).chan y = s.chan y := rfl
@[simp] theorem State.setShadow_monitor (s : State) (i : Nat) (x : Shadow) (y : Nat) : (s.setShadow i x).monitor y = s.monitor y := rfl
@[simp] theorem State.setShadow_staging (s : State) (i : Nat) (x : Shadow) (y : Nat) : (s.setShadow i x).staging y = s.staging y := rfl
@[simp] theorem State.setShadow_rd (s : State) (i : Nat) (x : Shadow) (nm : RegName) (un ix : Nat) : (s.setShadow i x).rd nm un ix = s.rd nm un ix := rfl

/-! ### modShd -/

@[simp] theorem State.modShd_build (s : State) (f : Shd → Shd) : (s.modShd f).build = s.build := rfl
@[simp] theorem State.modShd_pending (s : State) (f : Shd → Shd) : (s.modShd f).pending = s.pending := rfl
@[simp] theorem State.modShd_free (s : State) (f : Shd → Shd) : (s.modShd f).free = s.free := rfl
@[simp] theorem State.modShd_clock (s : State) (f : Shd → Shd) : (s.modShd f).clock = s.clock := rfl
@[simp] theorem State.modShd_frame (s : State) (f : Shd → Shd) : (s.modShd f).frame = s.frame := rfl
@[simp] theorem State.modShd_ticking (s : State) (f : Shd → Shd) : (s.modShd f).ticking = s.ticking := rfl
@[simp] theorem State.modShd_fc (s : State) (f : Shd → Shd) : (s.modShd f).fc = s.fc := rfl
@[simp] theorem State.modShd_sel (s : State) (f : Shd → Shd) : (s.modShd f).sel = s.sel := rfl
@[simp] theorem State.modShd_cutoff (s : State) (f : Shd → Shd) : (s.modShd f).cutoff = s.cutoff := rfl
@[simp] theorem State.modShd_frozen (s : State) (f : Shd → Shd) : (s.modShd f).frozen = s.frozen := rfl
@[simp] theorem State.modShd_rot (s : State) (f : Shd → Shd) : (s.modShd f).rot = s.rot := rfl
@[simp] theorem State.modShd_rotAttr (s : State) (f : Shd → Shd) : (s.modShd f).rotAttr = s.rotAttr := rfl
@[simp] theorem State.modShd_offPend (s : State) (f : Shd → Shd) : (s.modShd f).offPend = s.offPend := rfl
@[simp] theorem State.modShd_bar (s : State) (f : Shd → Shd) : (s.modShd f).bar = s.bar := rfl
@[simp] theorem State.modShd_vfbar (s : State) (f : Shd → Shd) : (s.modShd f).vfbar = s.vfbar := rfl
@[simp] theorem State.modShd_lockFc (s : State) (f : Shd → Shd) : (s.modShd f).lockFc = s.lockFc := rfl
@[simp] theorem State.modShd_cores (s : State) (f : Shd → Shd) : (s.modShd f).cores = s.cores := rfl
@[simp] theorem State.modShd_clus (s : State) (f : Shd → Shd) : (s.modShd f).clus = s.clus := rfl
@[simp] theorem State.modShd_cells (s : State) (f : Shd → Shd) : (s.modShd f).cells = s.cells := rfl
@[simp] theorem State.modShd_parts (s : State) (f : Shd → Shd) : (s.modShd f).parts = s.parts := rfl
@[simp] theorem State.modShd_strands (s : State) (f : Shd → Shd) : (s.modShd f).strands = s.strands := rfl
@[simp] theorem State.modShd_mem (s : State) (f : Shd → Shd) : (s.modShd f).mem = s.mem := rfl
@[simp] theorem State.modShd_memErr (s : State) (f : Shd → Shd) : (s.modShd f).memErr = s.memErr := rfl
@[simp] theorem State.modShd_filled (s : State) (f : Shd → Shd) : (s.modShd f).filled = s.filled := rfl
@[simp] theorem State.modShd_scratch (s : State) (f : Shd → Shd) : (s.modShd f).scratch = s.scratch := rfl
@[simp] theorem State.modShd_l2 (s : State) (f : Shd → Shd) : (s.modShd f).l2 = s.l2 := rfl
@[simp] theorem State.modShd_dir (s : State) (f : Shd → Shd) : (s.modShd f).dir = s.dir := rfl
@[simp] theorem State.modShd_net (s : State) (f : Shd → Shd) : (s.modShd f).net = s.net := rfl
@[simp] theorem State.modShd_ncNet (s : State) (f : Shd → Shd) : (s.modShd f).ncNet = s.ncNet := rfl
@[simp] theorem State.modShd_ncAsk (s : State) (f : Shd → Shd) : (s.modShd f).ncAsk = s.ncAsk := rfl
@[simp] theorem State.modShd_ncGot (s : State) (f : Shd → Shd) : (s.modShd f).ncGot = s.ncGot := rfl
@[simp] theorem State.modShd_dirP (s : State) (f : Shd → Shd) : (s.modShd f).dirP = s.dirP := rfl
@[simp] theorem State.modShd_dirRes (s : State) (f : Shd → Shd) : (s.modShd f).dirRes = s.dirRes := rfl
@[simp] theorem State.modShd_mshr (s : State) (f : Shd → Shd) : (s.modShd f).mshr = s.mshr := rfl
@[simp] theorem State.modShd_slots (s : State) (f : Shd → Shd) : (s.modShd f).slots = s.slots := rfl
@[simp] theorem State.modShd_drbgD (s : State) (f : Shd → Shd) : (s.modShd f).drbgD = s.drbgD := rfl
@[simp] theorem State.modShd_jobs (s : State) (f : Shd → Shd) : (s.modShd f).jobs = s.jobs := rfl
@[simp] theorem State.modShd_jobNo (s : State) (f : Shd → Shd) : (s.modShd f).jobNo = s.jobNo := rfl
@[simp] theorem State.modShd_qps (s : State) (f : Shd → Shd) : (s.modShd f).qps = s.qps := rfl
@[simp] theorem State.modShd_rrFunc (s : State) (f : Shd → Shd) : (s.modShd f).rrFunc = s.rrFunc := rfl
@[simp] theorem State.modShd_rrQ (s : State) (f : Shd → Shd) : (s.modShd f).rrQ = s.rrQ := rfl
@[simp] theorem State.modShd_reqs (s : State) (f : Shd → Shd) : (s.modShd f).reqs = s.reqs := rfl
@[simp] theorem State.modShd_reqNo (s : State) (f : Shd → Shd) : (s.modShd f).reqNo = s.reqNo := rfl
@[simp] theorem State.modShd_adm (s : State) (f : Shd → Shd) : (s.modShd f).adm = s.adm := rfl
@[simp] theorem State.modShd_admWait (s : State) (f : Shd → Shd) : (s.modShd f).admWait = s.admWait := rfl
@[simp] theorem State.modShd_admDone (s : State) (f : Shd → Shd) : (s.modShd f).admDone = s.admDone := rfl
@[simp] theorem State.modShd_hostMem (s : State) (f : Shd → Shd) : (s.modShd f).hostMem = s.hostMem := rfl
@[simp] theorem State.modShd_msix (s : State) (f : Shd → Shd) : (s.modShd f).msix = s.msix := rfl
@[simp] theorem State.modShd_msixTab (s : State) (f : Shd → Shd) : (s.modShd f).msixTab = s.msixTab := rfl
@[simp] theorem State.modShd_pba (s : State) (f : Shd → Shd) : (s.modShd f).pba = s.pba := rfl
@[simp] theorem State.modShd_rdata (s : State) (f : Shd → Shd) : (s.modShd f).rdata = s.rdata := rfl
@[simp] theorem State.modShd_tch (s : State) (f : Shd → Shd) : (s.modShd f).tch = s.tch := rfl
@[simp] theorem State.modShd_tpin (s : State) (f : Shd → Shd) : (s.modShd f).tpin = s.tpin := rfl
@[simp] theorem State.modShd_shadow (s : State) (f : Shd → Shd) : (s.modShd f).shadow = s.shadow := rfl
@[simp] theorem State.modShd_mon (s : State) (f : Shd → Shd) : (s.modShd f).mon = s.mon := rfl
@[simp] theorem State.modShd_monStage (s : State) (f : Shd → Shd) : (s.modShd f).monStage = s.monStage := rfl
@[simp] theorem State.modShd_monClr (s : State) (f : Shd → Shd) : (s.modShd f).monClr = s.monClr := rfl
@[simp] theorem State.modShd_snap (s : State) (f : Shd → Shd) : (s.modShd f).snap = s.snap := rfl
@[simp] theorem State.modShd_alm (s : State) (f : Shd → Shd) : (s.modShd f).alm = s.alm := rfl
@[simp] theorem State.modShd_tamper (s : State) (f : Shd → Shd) : (s.modShd f).tamper = s.tamper := rfl
@[simp] theorem State.modShd_sbk (s : State) (f : Shd → Shd) : (s.modShd f).sbk = s.sbk := rfl
@[simp] theorem State.modShd_pwr (s : State) (f : Shd → Shd) : (s.modShd f).pwr = s.pwr := rfl
@[simp] theorem State.modShd_trngOk (s : State) (f : Shd → Shd) : (s.modShd f).trngOk = s.trngOk := rfl
@[simp] theorem State.modShd_reseeded (s : State) (f : Shd → Shd) : (s.modShd f).reseeded = s.reseeded := rfl
@[simp] theorem State.modShd_core (s : State) (f : Shd → Shd) (y : Nat) : (s.modShd f).core y = s.core y := rfl
@[simp] theorem State.modShd_clu (s : State) (f : Shd → Shd) (y : Nat) : (s.modShd f).clu y = s.clu y := rfl
@[simp] theorem State.modShd_cell (s : State) (f : Shd → Shd) (y : Nat) : (s.modShd f).cell y = s.cell y := rfl
@[simp] theorem State.modShd_part (s : State) (f : Shd → Shd) (y : Nat) : (s.modShd f).part y = s.part y := rfl
@[simp] theorem State.modShd_strand (s : State) (f : Shd → Shd) (y : Nat) : (s.modShd f).strand y = s.strand y := rfl
@[simp] theorem State.modShd_slot (s : State) (f : Shd → Shd) (y : Nat) : (s.modShd f).slot y = s.slot y := rfl
@[simp] theorem State.modShd_qp (s : State) (f : Shd → Shd) (y : Nat) : (s.modShd f).qp y = s.qp y := rfl
@[simp] theorem State.modShd_req (s : State) (f : Shd → Shd) (y : Nat) : (s.modShd f).req y = s.req y := rfl
@[simp] theorem State.modShd_job (s : State) (f : Shd → Shd) (y : Nat) : (s.modShd f).job y = s.job y := rfl
@[simp] theorem State.modShd_chan (s : State) (f : Shd → Shd) (y : Nat) : (s.modShd f).chan y = s.chan y := rfl
@[simp] theorem State.modShd_monitor (s : State) (f : Shd → Shd) (y : Nat) : (s.modShd f).monitor y = s.monitor y := rfl
@[simp] theorem State.modShd_staging (s : State) (f : Shd → Shd) (y : Nat) : (s.modShd f).staging y = s.staging y := rfl
@[simp] theorem State.modShd_shadowOf (s : State) (f : Shd → Shd) (y : Nat) : (s.modShd f).shadowOf y = s.shadowOf y := rfl
@[simp] theorem State.modShd_rd (s : State) (f : Shd → Shd) (nm : RegName) (un ix : Nat) : (s.modShd f).rd nm un ix = s.rd nm un ix := rfl

/-! ### modAlm -/

@[simp] theorem State.modAlm_build (s : State) (f : Alm → Alm) : (s.modAlm f).build = s.build := rfl
@[simp] theorem State.modAlm_pending (s : State) (f : Alm → Alm) : (s.modAlm f).pending = s.pending := rfl
@[simp] theorem State.modAlm_free (s : State) (f : Alm → Alm) : (s.modAlm f).free = s.free := rfl
@[simp] theorem State.modAlm_clock (s : State) (f : Alm → Alm) : (s.modAlm f).clock = s.clock := rfl
@[simp] theorem State.modAlm_frame (s : State) (f : Alm → Alm) : (s.modAlm f).frame = s.frame := rfl
@[simp] theorem State.modAlm_ticking (s : State) (f : Alm → Alm) : (s.modAlm f).ticking = s.ticking := rfl
@[simp] theorem State.modAlm_fc (s : State) (f : Alm → Alm) : (s.modAlm f).fc = s.fc := rfl
@[simp] theorem State.modAlm_sel (s : State) (f : Alm → Alm) : (s.modAlm f).sel = s.sel := rfl
@[simp] theorem State.modAlm_cutoff (s : State) (f : Alm → Alm) : (s.modAlm f).cutoff = s.cutoff := rfl
@[simp] theorem State.modAlm_frozen (s : State) (f : Alm → Alm) : (s.modAlm f).frozen = s.frozen := rfl
@[simp] theorem State.modAlm_rot (s : State) (f : Alm → Alm) : (s.modAlm f).rot = s.rot := rfl
@[simp] theorem State.modAlm_rotAttr (s : State) (f : Alm → Alm) : (s.modAlm f).rotAttr = s.rotAttr := rfl
@[simp] theorem State.modAlm_offPend (s : State) (f : Alm → Alm) : (s.modAlm f).offPend = s.offPend := rfl
@[simp] theorem State.modAlm_bar (s : State) (f : Alm → Alm) : (s.modAlm f).bar = s.bar := rfl
@[simp] theorem State.modAlm_vfbar (s : State) (f : Alm → Alm) : (s.modAlm f).vfbar = s.vfbar := rfl
@[simp] theorem State.modAlm_lockFc (s : State) (f : Alm → Alm) : (s.modAlm f).lockFc = s.lockFc := rfl
@[simp] theorem State.modAlm_cores (s : State) (f : Alm → Alm) : (s.modAlm f).cores = s.cores := rfl
@[simp] theorem State.modAlm_clus (s : State) (f : Alm → Alm) : (s.modAlm f).clus = s.clus := rfl
@[simp] theorem State.modAlm_cells (s : State) (f : Alm → Alm) : (s.modAlm f).cells = s.cells := rfl
@[simp] theorem State.modAlm_parts (s : State) (f : Alm → Alm) : (s.modAlm f).parts = s.parts := rfl
@[simp] theorem State.modAlm_strands (s : State) (f : Alm → Alm) : (s.modAlm f).strands = s.strands := rfl
@[simp] theorem State.modAlm_mem (s : State) (f : Alm → Alm) : (s.modAlm f).mem = s.mem := rfl
@[simp] theorem State.modAlm_memErr (s : State) (f : Alm → Alm) : (s.modAlm f).memErr = s.memErr := rfl
@[simp] theorem State.modAlm_filled (s : State) (f : Alm → Alm) : (s.modAlm f).filled = s.filled := rfl
@[simp] theorem State.modAlm_scratch (s : State) (f : Alm → Alm) : (s.modAlm f).scratch = s.scratch := rfl
@[simp] theorem State.modAlm_l2 (s : State) (f : Alm → Alm) : (s.modAlm f).l2 = s.l2 := rfl
@[simp] theorem State.modAlm_dir (s : State) (f : Alm → Alm) : (s.modAlm f).dir = s.dir := rfl
@[simp] theorem State.modAlm_net (s : State) (f : Alm → Alm) : (s.modAlm f).net = s.net := rfl
@[simp] theorem State.modAlm_ncNet (s : State) (f : Alm → Alm) : (s.modAlm f).ncNet = s.ncNet := rfl
@[simp] theorem State.modAlm_ncAsk (s : State) (f : Alm → Alm) : (s.modAlm f).ncAsk = s.ncAsk := rfl
@[simp] theorem State.modAlm_ncGot (s : State) (f : Alm → Alm) : (s.modAlm f).ncGot = s.ncGot := rfl
@[simp] theorem State.modAlm_dirP (s : State) (f : Alm → Alm) : (s.modAlm f).dirP = s.dirP := rfl
@[simp] theorem State.modAlm_dirRes (s : State) (f : Alm → Alm) : (s.modAlm f).dirRes = s.dirRes := rfl
@[simp] theorem State.modAlm_mshr (s : State) (f : Alm → Alm) : (s.modAlm f).mshr = s.mshr := rfl
@[simp] theorem State.modAlm_slots (s : State) (f : Alm → Alm) : (s.modAlm f).slots = s.slots := rfl
@[simp] theorem State.modAlm_drbgD (s : State) (f : Alm → Alm) : (s.modAlm f).drbgD = s.drbgD := rfl
@[simp] theorem State.modAlm_jobs (s : State) (f : Alm → Alm) : (s.modAlm f).jobs = s.jobs := rfl
@[simp] theorem State.modAlm_jobNo (s : State) (f : Alm → Alm) : (s.modAlm f).jobNo = s.jobNo := rfl
@[simp] theorem State.modAlm_qps (s : State) (f : Alm → Alm) : (s.modAlm f).qps = s.qps := rfl
@[simp] theorem State.modAlm_rrFunc (s : State) (f : Alm → Alm) : (s.modAlm f).rrFunc = s.rrFunc := rfl
@[simp] theorem State.modAlm_rrQ (s : State) (f : Alm → Alm) : (s.modAlm f).rrQ = s.rrQ := rfl
@[simp] theorem State.modAlm_reqs (s : State) (f : Alm → Alm) : (s.modAlm f).reqs = s.reqs := rfl
@[simp] theorem State.modAlm_reqNo (s : State) (f : Alm → Alm) : (s.modAlm f).reqNo = s.reqNo := rfl
@[simp] theorem State.modAlm_adm (s : State) (f : Alm → Alm) : (s.modAlm f).adm = s.adm := rfl
@[simp] theorem State.modAlm_admWait (s : State) (f : Alm → Alm) : (s.modAlm f).admWait = s.admWait := rfl
@[simp] theorem State.modAlm_admDone (s : State) (f : Alm → Alm) : (s.modAlm f).admDone = s.admDone := rfl
@[simp] theorem State.modAlm_hostMem (s : State) (f : Alm → Alm) : (s.modAlm f).hostMem = s.hostMem := rfl
@[simp] theorem State.modAlm_msix (s : State) (f : Alm → Alm) : (s.modAlm f).msix = s.msix := rfl
@[simp] theorem State.modAlm_msixTab (s : State) (f : Alm → Alm) : (s.modAlm f).msixTab = s.msixTab := rfl
@[simp] theorem State.modAlm_pba (s : State) (f : Alm → Alm) : (s.modAlm f).pba = s.pba := rfl
@[simp] theorem State.modAlm_rdata (s : State) (f : Alm → Alm) : (s.modAlm f).rdata = s.rdata := rfl
@[simp] theorem State.modAlm_tch (s : State) (f : Alm → Alm) : (s.modAlm f).tch = s.tch := rfl
@[simp] theorem State.modAlm_tpin (s : State) (f : Alm → Alm) : (s.modAlm f).tpin = s.tpin := rfl
@[simp] theorem State.modAlm_shadow (s : State) (f : Alm → Alm) : (s.modAlm f).shadow = s.shadow := rfl
@[simp] theorem State.modAlm_shd (s : State) (f : Alm → Alm) : (s.modAlm f).shd = s.shd := rfl
@[simp] theorem State.modAlm_mon (s : State) (f : Alm → Alm) : (s.modAlm f).mon = s.mon := rfl
@[simp] theorem State.modAlm_monStage (s : State) (f : Alm → Alm) : (s.modAlm f).monStage = s.monStage := rfl
@[simp] theorem State.modAlm_monClr (s : State) (f : Alm → Alm) : (s.modAlm f).monClr = s.monClr := rfl
@[simp] theorem State.modAlm_snap (s : State) (f : Alm → Alm) : (s.modAlm f).snap = s.snap := rfl
@[simp] theorem State.modAlm_tamper (s : State) (f : Alm → Alm) : (s.modAlm f).tamper = s.tamper := rfl
@[simp] theorem State.modAlm_sbk (s : State) (f : Alm → Alm) : (s.modAlm f).sbk = s.sbk := rfl
@[simp] theorem State.modAlm_pwr (s : State) (f : Alm → Alm) : (s.modAlm f).pwr = s.pwr := rfl
@[simp] theorem State.modAlm_trngOk (s : State) (f : Alm → Alm) : (s.modAlm f).trngOk = s.trngOk := rfl
@[simp] theorem State.modAlm_reseeded (s : State) (f : Alm → Alm) : (s.modAlm f).reseeded = s.reseeded := rfl
@[simp] theorem State.modAlm_core (s : State) (f : Alm → Alm) (y : Nat) : (s.modAlm f).core y = s.core y := rfl
@[simp] theorem State.modAlm_clu (s : State) (f : Alm → Alm) (y : Nat) : (s.modAlm f).clu y = s.clu y := rfl
@[simp] theorem State.modAlm_cell (s : State) (f : Alm → Alm) (y : Nat) : (s.modAlm f).cell y = s.cell y := rfl
@[simp] theorem State.modAlm_part (s : State) (f : Alm → Alm) (y : Nat) : (s.modAlm f).part y = s.part y := rfl
@[simp] theorem State.modAlm_strand (s : State) (f : Alm → Alm) (y : Nat) : (s.modAlm f).strand y = s.strand y := rfl
@[simp] theorem State.modAlm_slot (s : State) (f : Alm → Alm) (y : Nat) : (s.modAlm f).slot y = s.slot y := rfl
@[simp] theorem State.modAlm_qp (s : State) (f : Alm → Alm) (y : Nat) : (s.modAlm f).qp y = s.qp y := rfl
@[simp] theorem State.modAlm_req (s : State) (f : Alm → Alm) (y : Nat) : (s.modAlm f).req y = s.req y := rfl
@[simp] theorem State.modAlm_job (s : State) (f : Alm → Alm) (y : Nat) : (s.modAlm f).job y = s.job y := rfl
@[simp] theorem State.modAlm_chan (s : State) (f : Alm → Alm) (y : Nat) : (s.modAlm f).chan y = s.chan y := rfl
@[simp] theorem State.modAlm_monitor (s : State) (f : Alm → Alm) (y : Nat) : (s.modAlm f).monitor y = s.monitor y := rfl
@[simp] theorem State.modAlm_staging (s : State) (f : Alm → Alm) (y : Nat) : (s.modAlm f).staging y = s.staging y := rfl
@[simp] theorem State.modAlm_shadowOf (s : State) (f : Alm → Alm) (y : Nat) : (s.modAlm f).shadowOf y = s.shadowOf y := rfl
@[simp] theorem State.modAlm_rd (s : State) (f : Alm → Alm) (nm : RegName) (un ix : Nat) : (s.modAlm f).rd nm un ix = s.rd nm un ix := rfl

/-! ### modPwr -/

@[simp] theorem State.modPwr_build (s : State) (f : Pwr → Pwr) : (s.modPwr f).build = s.build := rfl
@[simp] theorem State.modPwr_pending (s : State) (f : Pwr → Pwr) : (s.modPwr f).pending = s.pending := rfl
@[simp] theorem State.modPwr_free (s : State) (f : Pwr → Pwr) : (s.modPwr f).free = s.free := rfl
@[simp] theorem State.modPwr_clock (s : State) (f : Pwr → Pwr) : (s.modPwr f).clock = s.clock := rfl
@[simp] theorem State.modPwr_frame (s : State) (f : Pwr → Pwr) : (s.modPwr f).frame = s.frame := rfl
@[simp] theorem State.modPwr_ticking (s : State) (f : Pwr → Pwr) : (s.modPwr f).ticking = s.ticking := rfl
@[simp] theorem State.modPwr_fc (s : State) (f : Pwr → Pwr) : (s.modPwr f).fc = s.fc := rfl
@[simp] theorem State.modPwr_sel (s : State) (f : Pwr → Pwr) : (s.modPwr f).sel = s.sel := rfl
@[simp] theorem State.modPwr_cutoff (s : State) (f : Pwr → Pwr) : (s.modPwr f).cutoff = s.cutoff := rfl
@[simp] theorem State.modPwr_frozen (s : State) (f : Pwr → Pwr) : (s.modPwr f).frozen = s.frozen := rfl
@[simp] theorem State.modPwr_rot (s : State) (f : Pwr → Pwr) : (s.modPwr f).rot = s.rot := rfl
@[simp] theorem State.modPwr_rotAttr (s : State) (f : Pwr → Pwr) : (s.modPwr f).rotAttr = s.rotAttr := rfl
@[simp] theorem State.modPwr_offPend (s : State) (f : Pwr → Pwr) : (s.modPwr f).offPend = s.offPend := rfl
@[simp] theorem State.modPwr_bar (s : State) (f : Pwr → Pwr) : (s.modPwr f).bar = s.bar := rfl
@[simp] theorem State.modPwr_vfbar (s : State) (f : Pwr → Pwr) : (s.modPwr f).vfbar = s.vfbar := rfl
@[simp] theorem State.modPwr_lockFc (s : State) (f : Pwr → Pwr) : (s.modPwr f).lockFc = s.lockFc := rfl
@[simp] theorem State.modPwr_cores (s : State) (f : Pwr → Pwr) : (s.modPwr f).cores = s.cores := rfl
@[simp] theorem State.modPwr_clus (s : State) (f : Pwr → Pwr) : (s.modPwr f).clus = s.clus := rfl
@[simp] theorem State.modPwr_cells (s : State) (f : Pwr → Pwr) : (s.modPwr f).cells = s.cells := rfl
@[simp] theorem State.modPwr_parts (s : State) (f : Pwr → Pwr) : (s.modPwr f).parts = s.parts := rfl
@[simp] theorem State.modPwr_strands (s : State) (f : Pwr → Pwr) : (s.modPwr f).strands = s.strands := rfl
@[simp] theorem State.modPwr_mem (s : State) (f : Pwr → Pwr) : (s.modPwr f).mem = s.mem := rfl
@[simp] theorem State.modPwr_memErr (s : State) (f : Pwr → Pwr) : (s.modPwr f).memErr = s.memErr := rfl
@[simp] theorem State.modPwr_filled (s : State) (f : Pwr → Pwr) : (s.modPwr f).filled = s.filled := rfl
@[simp] theorem State.modPwr_scratch (s : State) (f : Pwr → Pwr) : (s.modPwr f).scratch = s.scratch := rfl
@[simp] theorem State.modPwr_l2 (s : State) (f : Pwr → Pwr) : (s.modPwr f).l2 = s.l2 := rfl
@[simp] theorem State.modPwr_dir (s : State) (f : Pwr → Pwr) : (s.modPwr f).dir = s.dir := rfl
@[simp] theorem State.modPwr_net (s : State) (f : Pwr → Pwr) : (s.modPwr f).net = s.net := rfl
@[simp] theorem State.modPwr_ncNet (s : State) (f : Pwr → Pwr) : (s.modPwr f).ncNet = s.ncNet := rfl
@[simp] theorem State.modPwr_ncAsk (s : State) (f : Pwr → Pwr) : (s.modPwr f).ncAsk = s.ncAsk := rfl
@[simp] theorem State.modPwr_ncGot (s : State) (f : Pwr → Pwr) : (s.modPwr f).ncGot = s.ncGot := rfl
@[simp] theorem State.modPwr_dirP (s : State) (f : Pwr → Pwr) : (s.modPwr f).dirP = s.dirP := rfl
@[simp] theorem State.modPwr_dirRes (s : State) (f : Pwr → Pwr) : (s.modPwr f).dirRes = s.dirRes := rfl
@[simp] theorem State.modPwr_mshr (s : State) (f : Pwr → Pwr) : (s.modPwr f).mshr = s.mshr := rfl
@[simp] theorem State.modPwr_slots (s : State) (f : Pwr → Pwr) : (s.modPwr f).slots = s.slots := rfl
@[simp] theorem State.modPwr_drbgD (s : State) (f : Pwr → Pwr) : (s.modPwr f).drbgD = s.drbgD := rfl
@[simp] theorem State.modPwr_jobs (s : State) (f : Pwr → Pwr) : (s.modPwr f).jobs = s.jobs := rfl
@[simp] theorem State.modPwr_jobNo (s : State) (f : Pwr → Pwr) : (s.modPwr f).jobNo = s.jobNo := rfl
@[simp] theorem State.modPwr_qps (s : State) (f : Pwr → Pwr) : (s.modPwr f).qps = s.qps := rfl
@[simp] theorem State.modPwr_rrFunc (s : State) (f : Pwr → Pwr) : (s.modPwr f).rrFunc = s.rrFunc := rfl
@[simp] theorem State.modPwr_rrQ (s : State) (f : Pwr → Pwr) : (s.modPwr f).rrQ = s.rrQ := rfl
@[simp] theorem State.modPwr_reqs (s : State) (f : Pwr → Pwr) : (s.modPwr f).reqs = s.reqs := rfl
@[simp] theorem State.modPwr_reqNo (s : State) (f : Pwr → Pwr) : (s.modPwr f).reqNo = s.reqNo := rfl
@[simp] theorem State.modPwr_adm (s : State) (f : Pwr → Pwr) : (s.modPwr f).adm = s.adm := rfl
@[simp] theorem State.modPwr_admWait (s : State) (f : Pwr → Pwr) : (s.modPwr f).admWait = s.admWait := rfl
@[simp] theorem State.modPwr_admDone (s : State) (f : Pwr → Pwr) : (s.modPwr f).admDone = s.admDone := rfl
@[simp] theorem State.modPwr_hostMem (s : State) (f : Pwr → Pwr) : (s.modPwr f).hostMem = s.hostMem := rfl
@[simp] theorem State.modPwr_msix (s : State) (f : Pwr → Pwr) : (s.modPwr f).msix = s.msix := rfl
@[simp] theorem State.modPwr_msixTab (s : State) (f : Pwr → Pwr) : (s.modPwr f).msixTab = s.msixTab := rfl
@[simp] theorem State.modPwr_pba (s : State) (f : Pwr → Pwr) : (s.modPwr f).pba = s.pba := rfl
@[simp] theorem State.modPwr_rdata (s : State) (f : Pwr → Pwr) : (s.modPwr f).rdata = s.rdata := rfl
@[simp] theorem State.modPwr_tch (s : State) (f : Pwr → Pwr) : (s.modPwr f).tch = s.tch := rfl
@[simp] theorem State.modPwr_tpin (s : State) (f : Pwr → Pwr) : (s.modPwr f).tpin = s.tpin := rfl
@[simp] theorem State.modPwr_shadow (s : State) (f : Pwr → Pwr) : (s.modPwr f).shadow = s.shadow := rfl
@[simp] theorem State.modPwr_shd (s : State) (f : Pwr → Pwr) : (s.modPwr f).shd = s.shd := rfl
@[simp] theorem State.modPwr_mon (s : State) (f : Pwr → Pwr) : (s.modPwr f).mon = s.mon := rfl
@[simp] theorem State.modPwr_monStage (s : State) (f : Pwr → Pwr) : (s.modPwr f).monStage = s.monStage := rfl
@[simp] theorem State.modPwr_monClr (s : State) (f : Pwr → Pwr) : (s.modPwr f).monClr = s.monClr := rfl
@[simp] theorem State.modPwr_snap (s : State) (f : Pwr → Pwr) : (s.modPwr f).snap = s.snap := rfl
@[simp] theorem State.modPwr_alm (s : State) (f : Pwr → Pwr) : (s.modPwr f).alm = s.alm := rfl
@[simp] theorem State.modPwr_tamper (s : State) (f : Pwr → Pwr) : (s.modPwr f).tamper = s.tamper := rfl
@[simp] theorem State.modPwr_sbk (s : State) (f : Pwr → Pwr) : (s.modPwr f).sbk = s.sbk := rfl
@[simp] theorem State.modPwr_trngOk (s : State) (f : Pwr → Pwr) : (s.modPwr f).trngOk = s.trngOk := rfl
@[simp] theorem State.modPwr_reseeded (s : State) (f : Pwr → Pwr) : (s.modPwr f).reseeded = s.reseeded := rfl
@[simp] theorem State.modPwr_core (s : State) (f : Pwr → Pwr) (y : Nat) : (s.modPwr f).core y = s.core y := rfl
@[simp] theorem State.modPwr_clu (s : State) (f : Pwr → Pwr) (y : Nat) : (s.modPwr f).clu y = s.clu y := rfl
@[simp] theorem State.modPwr_cell (s : State) (f : Pwr → Pwr) (y : Nat) : (s.modPwr f).cell y = s.cell y := rfl
@[simp] theorem State.modPwr_part (s : State) (f : Pwr → Pwr) (y : Nat) : (s.modPwr f).part y = s.part y := rfl
@[simp] theorem State.modPwr_strand (s : State) (f : Pwr → Pwr) (y : Nat) : (s.modPwr f).strand y = s.strand y := rfl
@[simp] theorem State.modPwr_slot (s : State) (f : Pwr → Pwr) (y : Nat) : (s.modPwr f).slot y = s.slot y := rfl
@[simp] theorem State.modPwr_qp (s : State) (f : Pwr → Pwr) (y : Nat) : (s.modPwr f).qp y = s.qp y := rfl
@[simp] theorem State.modPwr_req (s : State) (f : Pwr → Pwr) (y : Nat) : (s.modPwr f).req y = s.req y := rfl
@[simp] theorem State.modPwr_job (s : State) (f : Pwr → Pwr) (y : Nat) : (s.modPwr f).job y = s.job y := rfl
@[simp] theorem State.modPwr_chan (s : State) (f : Pwr → Pwr) (y : Nat) : (s.modPwr f).chan y = s.chan y := rfl
@[simp] theorem State.modPwr_monitor (s : State) (f : Pwr → Pwr) (y : Nat) : (s.modPwr f).monitor y = s.monitor y := rfl
@[simp] theorem State.modPwr_staging (s : State) (f : Pwr → Pwr) (y : Nat) : (s.modPwr f).staging y = s.staging y := rfl
@[simp] theorem State.modPwr_shadowOf (s : State) (f : Pwr → Pwr) (y : Nat) : (s.modPwr f).shadowOf y = s.shadowOf y := rfl
@[simp] theorem State.modPwr_rd (s : State) (f : Pwr → Pwr) (nm : RegName) (un ix : Nat) : (s.modPwr f).rd nm un ix = s.rd nm un ix := rfl

/-! ### modSbk -/

@[simp] theorem State.modSbk_build (s : State) (f : Sbk → Sbk) : (s.modSbk f).build = s.build := rfl
@[simp] theorem State.modSbk_pending (s : State) (f : Sbk → Sbk) : (s.modSbk f).pending = s.pending := rfl
@[simp] theorem State.modSbk_free (s : State) (f : Sbk → Sbk) : (s.modSbk f).free = s.free := rfl
@[simp] theorem State.modSbk_clock (s : State) (f : Sbk → Sbk) : (s.modSbk f).clock = s.clock := rfl
@[simp] theorem State.modSbk_frame (s : State) (f : Sbk → Sbk) : (s.modSbk f).frame = s.frame := rfl
@[simp] theorem State.modSbk_ticking (s : State) (f : Sbk → Sbk) : (s.modSbk f).ticking = s.ticking := rfl
@[simp] theorem State.modSbk_fc (s : State) (f : Sbk → Sbk) : (s.modSbk f).fc = s.fc := rfl
@[simp] theorem State.modSbk_sel (s : State) (f : Sbk → Sbk) : (s.modSbk f).sel = s.sel := rfl
@[simp] theorem State.modSbk_cutoff (s : State) (f : Sbk → Sbk) : (s.modSbk f).cutoff = s.cutoff := rfl
@[simp] theorem State.modSbk_frozen (s : State) (f : Sbk → Sbk) : (s.modSbk f).frozen = s.frozen := rfl
@[simp] theorem State.modSbk_rot (s : State) (f : Sbk → Sbk) : (s.modSbk f).rot = s.rot := rfl
@[simp] theorem State.modSbk_rotAttr (s : State) (f : Sbk → Sbk) : (s.modSbk f).rotAttr = s.rotAttr := rfl
@[simp] theorem State.modSbk_offPend (s : State) (f : Sbk → Sbk) : (s.modSbk f).offPend = s.offPend := rfl
@[simp] theorem State.modSbk_bar (s : State) (f : Sbk → Sbk) : (s.modSbk f).bar = s.bar := rfl
@[simp] theorem State.modSbk_vfbar (s : State) (f : Sbk → Sbk) : (s.modSbk f).vfbar = s.vfbar := rfl
@[simp] theorem State.modSbk_lockFc (s : State) (f : Sbk → Sbk) : (s.modSbk f).lockFc = s.lockFc := rfl
@[simp] theorem State.modSbk_cores (s : State) (f : Sbk → Sbk) : (s.modSbk f).cores = s.cores := rfl
@[simp] theorem State.modSbk_clus (s : State) (f : Sbk → Sbk) : (s.modSbk f).clus = s.clus := rfl
@[simp] theorem State.modSbk_cells (s : State) (f : Sbk → Sbk) : (s.modSbk f).cells = s.cells := rfl
@[simp] theorem State.modSbk_parts (s : State) (f : Sbk → Sbk) : (s.modSbk f).parts = s.parts := rfl
@[simp] theorem State.modSbk_strands (s : State) (f : Sbk → Sbk) : (s.modSbk f).strands = s.strands := rfl
@[simp] theorem State.modSbk_mem (s : State) (f : Sbk → Sbk) : (s.modSbk f).mem = s.mem := rfl
@[simp] theorem State.modSbk_memErr (s : State) (f : Sbk → Sbk) : (s.modSbk f).memErr = s.memErr := rfl
@[simp] theorem State.modSbk_filled (s : State) (f : Sbk → Sbk) : (s.modSbk f).filled = s.filled := rfl
@[simp] theorem State.modSbk_scratch (s : State) (f : Sbk → Sbk) : (s.modSbk f).scratch = s.scratch := rfl
@[simp] theorem State.modSbk_l2 (s : State) (f : Sbk → Sbk) : (s.modSbk f).l2 = s.l2 := rfl
@[simp] theorem State.modSbk_dir (s : State) (f : Sbk → Sbk) : (s.modSbk f).dir = s.dir := rfl
@[simp] theorem State.modSbk_net (s : State) (f : Sbk → Sbk) : (s.modSbk f).net = s.net := rfl
@[simp] theorem State.modSbk_ncNet (s : State) (f : Sbk → Sbk) : (s.modSbk f).ncNet = s.ncNet := rfl
@[simp] theorem State.modSbk_ncAsk (s : State) (f : Sbk → Sbk) : (s.modSbk f).ncAsk = s.ncAsk := rfl
@[simp] theorem State.modSbk_ncGot (s : State) (f : Sbk → Sbk) : (s.modSbk f).ncGot = s.ncGot := rfl
@[simp] theorem State.modSbk_dirP (s : State) (f : Sbk → Sbk) : (s.modSbk f).dirP = s.dirP := rfl
@[simp] theorem State.modSbk_dirRes (s : State) (f : Sbk → Sbk) : (s.modSbk f).dirRes = s.dirRes := rfl
@[simp] theorem State.modSbk_mshr (s : State) (f : Sbk → Sbk) : (s.modSbk f).mshr = s.mshr := rfl
@[simp] theorem State.modSbk_slots (s : State) (f : Sbk → Sbk) : (s.modSbk f).slots = s.slots := rfl
@[simp] theorem State.modSbk_drbgD (s : State) (f : Sbk → Sbk) : (s.modSbk f).drbgD = s.drbgD := rfl
@[simp] theorem State.modSbk_jobs (s : State) (f : Sbk → Sbk) : (s.modSbk f).jobs = s.jobs := rfl
@[simp] theorem State.modSbk_jobNo (s : State) (f : Sbk → Sbk) : (s.modSbk f).jobNo = s.jobNo := rfl
@[simp] theorem State.modSbk_qps (s : State) (f : Sbk → Sbk) : (s.modSbk f).qps = s.qps := rfl
@[simp] theorem State.modSbk_rrFunc (s : State) (f : Sbk → Sbk) : (s.modSbk f).rrFunc = s.rrFunc := rfl
@[simp] theorem State.modSbk_rrQ (s : State) (f : Sbk → Sbk) : (s.modSbk f).rrQ = s.rrQ := rfl
@[simp] theorem State.modSbk_reqs (s : State) (f : Sbk → Sbk) : (s.modSbk f).reqs = s.reqs := rfl
@[simp] theorem State.modSbk_reqNo (s : State) (f : Sbk → Sbk) : (s.modSbk f).reqNo = s.reqNo := rfl
@[simp] theorem State.modSbk_adm (s : State) (f : Sbk → Sbk) : (s.modSbk f).adm = s.adm := rfl
@[simp] theorem State.modSbk_admWait (s : State) (f : Sbk → Sbk) : (s.modSbk f).admWait = s.admWait := rfl
@[simp] theorem State.modSbk_admDone (s : State) (f : Sbk → Sbk) : (s.modSbk f).admDone = s.admDone := rfl
@[simp] theorem State.modSbk_hostMem (s : State) (f : Sbk → Sbk) : (s.modSbk f).hostMem = s.hostMem := rfl
@[simp] theorem State.modSbk_msix (s : State) (f : Sbk → Sbk) : (s.modSbk f).msix = s.msix := rfl
@[simp] theorem State.modSbk_msixTab (s : State) (f : Sbk → Sbk) : (s.modSbk f).msixTab = s.msixTab := rfl
@[simp] theorem State.modSbk_pba (s : State) (f : Sbk → Sbk) : (s.modSbk f).pba = s.pba := rfl
@[simp] theorem State.modSbk_rdata (s : State) (f : Sbk → Sbk) : (s.modSbk f).rdata = s.rdata := rfl
@[simp] theorem State.modSbk_tch (s : State) (f : Sbk → Sbk) : (s.modSbk f).tch = s.tch := rfl
@[simp] theorem State.modSbk_tpin (s : State) (f : Sbk → Sbk) : (s.modSbk f).tpin = s.tpin := rfl
@[simp] theorem State.modSbk_shadow (s : State) (f : Sbk → Sbk) : (s.modSbk f).shadow = s.shadow := rfl
@[simp] theorem State.modSbk_shd (s : State) (f : Sbk → Sbk) : (s.modSbk f).shd = s.shd := rfl
@[simp] theorem State.modSbk_mon (s : State) (f : Sbk → Sbk) : (s.modSbk f).mon = s.mon := rfl
@[simp] theorem State.modSbk_monStage (s : State) (f : Sbk → Sbk) : (s.modSbk f).monStage = s.monStage := rfl
@[simp] theorem State.modSbk_monClr (s : State) (f : Sbk → Sbk) : (s.modSbk f).monClr = s.monClr := rfl
@[simp] theorem State.modSbk_snap (s : State) (f : Sbk → Sbk) : (s.modSbk f).snap = s.snap := rfl
@[simp] theorem State.modSbk_alm (s : State) (f : Sbk → Sbk) : (s.modSbk f).alm = s.alm := rfl
@[simp] theorem State.modSbk_tamper (s : State) (f : Sbk → Sbk) : (s.modSbk f).tamper = s.tamper := rfl
@[simp] theorem State.modSbk_pwr (s : State) (f : Sbk → Sbk) : (s.modSbk f).pwr = s.pwr := rfl
@[simp] theorem State.modSbk_trngOk (s : State) (f : Sbk → Sbk) : (s.modSbk f).trngOk = s.trngOk := rfl
@[simp] theorem State.modSbk_reseeded (s : State) (f : Sbk → Sbk) : (s.modSbk f).reseeded = s.reseeded := rfl
@[simp] theorem State.modSbk_core (s : State) (f : Sbk → Sbk) (y : Nat) : (s.modSbk f).core y = s.core y := rfl
@[simp] theorem State.modSbk_clu (s : State) (f : Sbk → Sbk) (y : Nat) : (s.modSbk f).clu y = s.clu y := rfl
@[simp] theorem State.modSbk_cell (s : State) (f : Sbk → Sbk) (y : Nat) : (s.modSbk f).cell y = s.cell y := rfl
@[simp] theorem State.modSbk_part (s : State) (f : Sbk → Sbk) (y : Nat) : (s.modSbk f).part y = s.part y := rfl
@[simp] theorem State.modSbk_strand (s : State) (f : Sbk → Sbk) (y : Nat) : (s.modSbk f).strand y = s.strand y := rfl
@[simp] theorem State.modSbk_slot (s : State) (f : Sbk → Sbk) (y : Nat) : (s.modSbk f).slot y = s.slot y := rfl
@[simp] theorem State.modSbk_qp (s : State) (f : Sbk → Sbk) (y : Nat) : (s.modSbk f).qp y = s.qp y := rfl
@[simp] theorem State.modSbk_req (s : State) (f : Sbk → Sbk) (y : Nat) : (s.modSbk f).req y = s.req y := rfl
@[simp] theorem State.modSbk_job (s : State) (f : Sbk → Sbk) (y : Nat) : (s.modSbk f).job y = s.job y := rfl
@[simp] theorem State.modSbk_chan (s : State) (f : Sbk → Sbk) (y : Nat) : (s.modSbk f).chan y = s.chan y := rfl
@[simp] theorem State.modSbk_monitor (s : State) (f : Sbk → Sbk) (y : Nat) : (s.modSbk f).monitor y = s.monitor y := rfl
@[simp] theorem State.modSbk_staging (s : State) (f : Sbk → Sbk) (y : Nat) : (s.modSbk f).staging y = s.staging y := rfl
@[simp] theorem State.modSbk_shadowOf (s : State) (f : Sbk → Sbk) (y : Nat) : (s.modSbk f).shadowOf y = s.shadowOf y := rfl
@[simp] theorem State.modSbk_rd (s : State) (f : Sbk → Sbk) (nm : RegName) (un ix : Nat) : (s.modSbk f).rd nm un ix = s.rd nm un ix := rfl

/-! ### wr -/

@[simp] theorem State.wr_build (s : State) (n : RegName) (u i : Nat) (v : BitVec 32) : (s.wr n u i v).build = s.build := rfl
@[simp] theorem State.wr_pending (s : State) (n : RegName) (u i : Nat) (v : BitVec 32) : (s.wr n u i v).pending = s.pending := rfl
@[simp] theorem State.wr_free (s : State) (n : RegName) (u i : Nat) (v : BitVec 32) : (s.wr n u i v).free = s.free := rfl
@[simp] theorem State.wr_clock (s : State) (n : RegName) (u i : Nat) (v : BitVec 32) : (s.wr n u i v).clock = s.clock := rfl
@[simp] theorem State.wr_frame (s : State) (n : RegName) (u i : Nat) (v : BitVec 32) : (s.wr n u i v).frame = s.frame := rfl
@[simp] theorem State.wr_ticking (s : State) (n : RegName) (u i : Nat) (v : BitVec 32) : (s.wr n u i v).ticking = s.ticking := rfl
@[simp] theorem State.wr_fc (s : State) (n : RegName) (u i : Nat) (v : BitVec 32) : (s.wr n u i v).fc = s.fc := rfl
@[simp] theorem State.wr_sel (s : State) (n : RegName) (u i : Nat) (v : BitVec 32) : (s.wr n u i v).sel = s.sel := rfl
@[simp] theorem State.wr_cutoff (s : State) (n : RegName) (u i : Nat) (v : BitVec 32) : (s.wr n u i v).cutoff = s.cutoff := rfl
@[simp] theorem State.wr_frozen (s : State) (n : RegName) (u i : Nat) (v : BitVec 32) : (s.wr n u i v).frozen = s.frozen := rfl
@[simp] theorem State.wr_rot (s : State) (n : RegName) (u i : Nat) (v : BitVec 32) : (s.wr n u i v).rot = s.rot := rfl
@[simp] theorem State.wr_rotAttr (s : State) (n : RegName) (u i : Nat) (v : BitVec 32) : (s.wr n u i v).rotAttr = s.rotAttr := rfl
@[simp] theorem State.wr_offPend (s : State) (n : RegName) (u i : Nat) (v : BitVec 32) : (s.wr n u i v).offPend = s.offPend := rfl
@[simp] theorem State.wr_vfbar (s : State) (n : RegName) (u i : Nat) (v : BitVec 32) : (s.wr n u i v).vfbar = s.vfbar := rfl
@[simp] theorem State.wr_lockFc (s : State) (n : RegName) (u i : Nat) (v : BitVec 32) : (s.wr n u i v).lockFc = s.lockFc := rfl
@[simp] theorem State.wr_cores (s : State) (n : RegName) (u i : Nat) (v : BitVec 32) : (s.wr n u i v).cores = s.cores := rfl
@[simp] theorem State.wr_clus (s : State) (n : RegName) (u i : Nat) (v : BitVec 32) : (s.wr n u i v).clus = s.clus := rfl
@[simp] theorem State.wr_cells (s : State) (n : RegName) (u i : Nat) (v : BitVec 32) : (s.wr n u i v).cells = s.cells := rfl
@[simp] theorem State.wr_parts (s : State) (n : RegName) (u i : Nat) (v : BitVec 32) : (s.wr n u i v).parts = s.parts := rfl
@[simp] theorem State.wr_strands (s : State) (n : RegName) (u i : Nat) (v : BitVec 32) : (s.wr n u i v).strands = s.strands := rfl
@[simp] theorem State.wr_mem (s : State) (n : RegName) (u i : Nat) (v : BitVec 32) : (s.wr n u i v).mem = s.mem := rfl
@[simp] theorem State.wr_memErr (s : State) (n : RegName) (u i : Nat) (v : BitVec 32) : (s.wr n u i v).memErr = s.memErr := rfl
@[simp] theorem State.wr_filled (s : State) (n : RegName) (u i : Nat) (v : BitVec 32) : (s.wr n u i v).filled = s.filled := rfl
@[simp] theorem State.wr_scratch (s : State) (n : RegName) (u i : Nat) (v : BitVec 32) : (s.wr n u i v).scratch = s.scratch := rfl
@[simp] theorem State.wr_l2 (s : State) (n : RegName) (u i : Nat) (v : BitVec 32) : (s.wr n u i v).l2 = s.l2 := rfl
@[simp] theorem State.wr_dir (s : State) (n : RegName) (u i : Nat) (v : BitVec 32) : (s.wr n u i v).dir = s.dir := rfl
@[simp] theorem State.wr_net (s : State) (n : RegName) (u i : Nat) (v : BitVec 32) : (s.wr n u i v).net = s.net := rfl
@[simp] theorem State.wr_ncNet (s : State) (n : RegName) (u i : Nat) (v : BitVec 32) : (s.wr n u i v).ncNet = s.ncNet := rfl
@[simp] theorem State.wr_ncAsk (s : State) (n : RegName) (u i : Nat) (v : BitVec 32) : (s.wr n u i v).ncAsk = s.ncAsk := rfl
@[simp] theorem State.wr_ncGot (s : State) (n : RegName) (u i : Nat) (v : BitVec 32) : (s.wr n u i v).ncGot = s.ncGot := rfl
@[simp] theorem State.wr_dirP (s : State) (n : RegName) (u i : Nat) (v : BitVec 32) : (s.wr n u i v).dirP = s.dirP := rfl
@[simp] theorem State.wr_dirRes (s : State) (n : RegName) (u i : Nat) (v : BitVec 32) : (s.wr n u i v).dirRes = s.dirRes := rfl
@[simp] theorem State.wr_mshr (s : State) (n : RegName) (u i : Nat) (v : BitVec 32) : (s.wr n u i v).mshr = s.mshr := rfl
@[simp] theorem State.wr_slots (s : State) (n : RegName) (u i : Nat) (v : BitVec 32) : (s.wr n u i v).slots = s.slots := rfl
@[simp] theorem State.wr_drbgD (s : State) (n : RegName) (u i : Nat) (v : BitVec 32) : (s.wr n u i v).drbgD = s.drbgD := rfl
@[simp] theorem State.wr_jobs (s : State) (n : RegName) (u i : Nat) (v : BitVec 32) : (s.wr n u i v).jobs = s.jobs := rfl
@[simp] theorem State.wr_jobNo (s : State) (n : RegName) (u i : Nat) (v : BitVec 32) : (s.wr n u i v).jobNo = s.jobNo := rfl
@[simp] theorem State.wr_qps (s : State) (n : RegName) (u i : Nat) (v : BitVec 32) : (s.wr n u i v).qps = s.qps := rfl
@[simp] theorem State.wr_rrFunc (s : State) (n : RegName) (u i : Nat) (v : BitVec 32) : (s.wr n u i v).rrFunc = s.rrFunc := rfl
@[simp] theorem State.wr_rrQ (s : State) (n : RegName) (u i : Nat) (v : BitVec 32) : (s.wr n u i v).rrQ = s.rrQ := rfl
@[simp] theorem State.wr_reqs (s : State) (n : RegName) (u i : Nat) (v : BitVec 32) : (s.wr n u i v).reqs = s.reqs := rfl
@[simp] theorem State.wr_reqNo (s : State) (n : RegName) (u i : Nat) (v : BitVec 32) : (s.wr n u i v).reqNo = s.reqNo := rfl
@[simp] theorem State.wr_adm (s : State) (n : RegName) (u i : Nat) (v : BitVec 32) : (s.wr n u i v).adm = s.adm := rfl
@[simp] theorem State.wr_admWait (s : State) (n : RegName) (u i : Nat) (v : BitVec 32) : (s.wr n u i v).admWait = s.admWait := rfl
@[simp] theorem State.wr_admDone (s : State) (n : RegName) (u i : Nat) (v : BitVec 32) : (s.wr n u i v).admDone = s.admDone := rfl
@[simp] theorem State.wr_hostMem (s : State) (n : RegName) (u i : Nat) (v : BitVec 32) : (s.wr n u i v).hostMem = s.hostMem := rfl
@[simp] theorem State.wr_msix (s : State) (n : RegName) (u i : Nat) (v : BitVec 32) : (s.wr n u i v).msix = s.msix := rfl
@[simp] theorem State.wr_msixTab (s : State) (n : RegName) (u i : Nat) (v : BitVec 32) : (s.wr n u i v).msixTab = s.msixTab := rfl
@[simp] theorem State.wr_pba (s : State) (n : RegName) (u i : Nat) (v : BitVec 32) : (s.wr n u i v).pba = s.pba := rfl
@[simp] theorem State.wr_rdata (s : State) (n : RegName) (u i : Nat) (v : BitVec 32) : (s.wr n u i v).rdata = s.rdata := rfl
@[simp] theorem State.wr_tch (s : State) (n : RegName) (u i : Nat) (v : BitVec 32) : (s.wr n u i v).tch = s.tch := rfl
@[simp] theorem State.wr_tpin (s : State) (n : RegName) (u i : Nat) (v : BitVec 32) : (s.wr n u i v).tpin = s.tpin := rfl
@[simp] theorem State.wr_shadow (s : State) (n : RegName) (u i : Nat) (v : BitVec 32) : (s.wr n u i v).shadow = s.shadow := rfl
@[simp] theorem State.wr_shd (s : State) (n : RegName) (u i : Nat) (v : BitVec 32) : (s.wr n u i v).shd = s.shd := rfl
@[simp] theorem State.wr_mon (s : State) (n : RegName) (u i : Nat) (v : BitVec 32) : (s.wr n u i v).mon = s.mon := rfl
@[simp] theorem State.wr_monStage (s : State) (n : RegName) (u i : Nat) (v : BitVec 32) : (s.wr n u i v).monStage = s.monStage := rfl
@[simp] theorem State.wr_monClr (s : State) (n : RegName) (u i : Nat) (v : BitVec 32) : (s.wr n u i v).monClr = s.monClr := rfl
@[simp] theorem State.wr_snap (s : State) (n : RegName) (u i : Nat) (v : BitVec 32) : (s.wr n u i v).snap = s.snap := rfl
@[simp] theorem State.wr_alm (s : State) (n : RegName) (u i : Nat) (v : BitVec 32) : (s.wr n u i v).alm = s.alm := rfl
@[simp] theorem State.wr_tamper (s : State) (n : RegName) (u i : Nat) (v : BitVec 32) : (s.wr n u i v).tamper = s.tamper := rfl
@[simp] theorem State.wr_sbk (s : State) (n : RegName) (u i : Nat) (v : BitVec 32) : (s.wr n u i v).sbk = s.sbk := rfl
@[simp] theorem State.wr_pwr (s : State) (n : RegName) (u i : Nat) (v : BitVec 32) : (s.wr n u i v).pwr = s.pwr := rfl
@[simp] theorem State.wr_trngOk (s : State) (n : RegName) (u i : Nat) (v : BitVec 32) : (s.wr n u i v).trngOk = s.trngOk := rfl
@[simp] theorem State.wr_reseeded (s : State) (n : RegName) (u i : Nat) (v : BitVec 32) : (s.wr n u i v).reseeded = s.reseeded := rfl
@[simp] theorem State.wr_core (s : State) (n : RegName) (u i : Nat) (v : BitVec 32) (y : Nat) : (s.wr n u i v).core y = s.core y := rfl
@[simp] theorem State.wr_clu (s : State) (n : RegName) (u i : Nat) (v : BitVec 32) (y : Nat) : (s.wr n u i v).clu y = s.clu y := rfl
@[simp] theorem State.wr_cell (s : State) (n : RegName) (u i : Nat) (v : BitVec 32) (y : Nat) : (s.wr n u i v).cell y = s.cell y := rfl
@[simp] theorem State.wr_part (s : State) (n : RegName) (u i : Nat) (v : BitVec 32) (y : Nat) : (s.wr n u i v).part y = s.part y := rfl
@[simp] theorem State.wr_strand (s : State) (n : RegName) (u i : Nat) (v : BitVec 32) (y : Nat) : (s.wr n u i v).strand y = s.strand y := rfl
@[simp] theorem State.wr_slot (s : State) (n : RegName) (u i : Nat) (v : BitVec 32) (y : Nat) : (s.wr n u i v).slot y = s.slot y := rfl
@[simp] theorem State.wr_qp (s : State) (n : RegName) (u i : Nat) (v : BitVec 32) (y : Nat) : (s.wr n u i v).qp y = s.qp y := rfl
@[simp] theorem State.wr_req (s : State) (n : RegName) (u i : Nat) (v : BitVec 32) (y : Nat) : (s.wr n u i v).req y = s.req y := rfl
@[simp] theorem State.wr_job (s : State) (n : RegName) (u i : Nat) (v : BitVec 32) (y : Nat) : (s.wr n u i v).job y = s.job y := rfl
@[simp] theorem State.wr_chan (s : State) (n : RegName) (u i : Nat) (v : BitVec 32) (y : Nat) : (s.wr n u i v).chan y = s.chan y := rfl
@[simp] theorem State.wr_monitor (s : State) (n : RegName) (u i : Nat) (v : BitVec 32) (y : Nat) : (s.wr n u i v).monitor y = s.monitor y := rfl
@[simp] theorem State.wr_staging (s : State) (n : RegName) (u i : Nat) (v : BitVec 32) (y : Nat) : (s.wr n u i v).staging y = s.staging y := rfl
@[simp] theorem State.wr_shadowOf (s : State) (n : RegName) (u i : Nat) (v : BitVec 32) (y : Nat) : (s.wr n u i v).shadowOf y = s.shadowOf y := rfl

/-! ### What an accessor finds at the place updated and elsewhere -/

theorem State.setCore_core (s : State) (c : Nat) (k : Core) (y : Nat) : (s.setCore c k).core y = if y = c then k else s.core y := Tab.get_set ..
@[simp] theorem State.setCore_core_same (s : State) (c : Nat) (k : Core) : (s.setCore c k).core c = k := Tab.get_set_same ..
theorem State.setClu_clu (s : State) (m : Nat) (k : Clu) (y : Nat) : (s.setClu m k).clu y = if y = m then k else s.clu y := Tab.get_set ..
@[simp] theorem State.setClu_clu_same (s : State) (m : Nat) (k : Clu) : (s.setClu m k).clu m = k := Tab.get_set_same ..
theorem State.setCell_cell (s : State) (n : Nat) (k : Cell) (y : Nat) : (s.setCell n k).cell y = if y = n then k else s.cell y := Tab.get_set ..
@[simp] theorem State.setCell_cell_same (s : State) (n : Nat) (k : Cell) : (s.setCell n k).cell n = k := Tab.get_set_same ..
theorem State.setPart_part (s : State) (p : Nat) (k : Part) (y : Nat) : (s.setPart p k).part y = if y = p then k else s.part y := Tab.get_set ..
@[simp] theorem State.setPart_part_same (s : State) (p : Nat) (k : Part) : (s.setPart p k).part p = k := Tab.get_set_same ..
theorem State.setSlot_slot (s : State) (i : Nat) (k : Slot) (y : Nat) : (s.setSlot i k).slot y = if y = i then k else s.slot y := Tab.get_set ..
@[simp] theorem State.setSlot_slot_same (s : State) (i : Nat) (k : Slot) : (s.setSlot i k).slot i = k := Tab.get_set_same ..
theorem State.setQp_qp (s : State) (j : Nat) (q : Qp) (y : Nat) : (s.setQp j q).qp y = if y = j then q else s.qp y := Tab.get_set ..
@[simp] theorem State.setQp_qp_same (s : State) (j : Nat) (q : Qp) : (s.setQp j q).qp j = q := Tab.get_set_same ..
theorem State.setReq_req (s : State) (r : Nat) (q : Option Req) (y : Nat) : (s.setReq r q).req y = if y = r then q else s.req y := Tab.get_set ..
@[simp] theorem State.setReq_req_same (s : State) (r : Nat) (q : Option Req) : (s.setReq r q).req r = q := Tab.get_set_same ..
theorem State.setJob_job (s : State) (j : Nat) (q : Option Job) (y : Nat) : (s.setJob j q).job y = if y = j then q else s.job y := Tab.get_set ..
@[simp] theorem State.setJob_job_same (s : State) (j : Nat) (q : Option Job) : (s.setJob j q).job j = q := Tab.get_set_same ..
theorem State.setChan_chan (s : State) (n : Nat) (k : Tch) (y : Nat) : (s.setChan n k).chan y = if y = n then k else s.chan y := Tab.get_set ..
@[simp] theorem State.setChan_chan_same (s : State) (n : Nat) (k : Tch) : (s.setChan n k).chan n = k := Tab.get_set_same ..
theorem State.setMonitor_monitor (s : State) (m : Nat) (k : Mon) (y : Nat) : (s.setMonitor m k).monitor y = if y = m then k else s.monitor y := Tab.get_set ..
@[simp] theorem State.setMonitor_monitor_same (s : State) (m : Nat) (k : Mon) : (s.setMonitor m k).monitor m = k := Tab.get_set_same ..
theorem State.setStaging_staging (s : State) (m : Nat) (k : Mon) (y : Nat) : (s.setStaging m k).staging y = if y = m then k else s.staging y := Tab.get_set ..
@[simp] theorem State.setStaging_staging_same (s : State) (m : Nat) (k : Mon) : (s.setStaging m k).staging m = k := Tab.get_set_same ..
theorem State.setShadow_shadowOf (s : State) (i : Nat) (x : Shadow) (y : Nat) : (s.setShadow i x).shadowOf y = if y = i then x else s.shadowOf y := Tab.get_set ..
@[simp] theorem State.setShadow_shadowOf_same (s : State) (i : Nat) (x : Shadow) : (s.setShadow i x).shadowOf i = x := Tab.get_set_same ..
theorem State.modStrand_strand (s : State) (j : Nat) (f : Strand → Strand) (y : Nat) :
    (s.modStrand j f).strand y = if y = j then f (s.strand j) else s.strand y := Tab.get_set ..
@[simp] theorem State.modCore_core_same (s : State) (c : Nat) (f : Core → Core) : (s.modCore c f).core c = f (s.core c) :=
  Tab.get_set_same ..
theorem State.modCore_core (s : State) (c : Nat) (f : Core → Core) (y : Nat) :
    (s.modCore c f).core y = if y = c then f (s.core c) else s.core y := Tab.get_set ..
theorem State.modClu_clu (s : State) (m : Nat) (f : Clu → Clu) (y : Nat) :
    (s.modClu m f).clu y = if y = m then f (s.clu m) else s.clu y := Tab.get_set ..
theorem State.modCell_cell (s : State) (n : Nat) (f : Cell → Cell) (y : Nat) :
    (s.modCell n f).cell y = if y = n then f (s.cell n) else s.cell y := Tab.get_set ..
theorem State.modPart_part (s : State) (p : Nat) (f : Part → Part) (y : Nat) :
    (s.modPart p f).part y = if y = p then f (s.part p) else s.part y := Tab.get_set ..
theorem State.wr_rd (s : State) (n : RegName) (u i : Nat) (v : BitVec 32) (r : RegName) (x y : Nat) :
    (s.wr n u i v).rd r x y = if RegAt.key ⟨r, x, y⟩ = RegAt.key ⟨n, u, i⟩ then v else s.rd r x y := Tab.get_set ..
@[simp] theorem State.wr_rd_same (s : State) (n : RegName) (u i : Nat) (v : BitVec 32) : (s.wr n u i v).rd n u i = v :=
  Tab.get_set_same ..
/-- A change of one core is a store of that core. -/
theorem State.modCore_eq (s : State) (c : Nat) (f : Core → Core) : s.modCore c f = s.setCore c (f (s.core c)) := rfl
theorem State.modClu_eq (s : State) (m : Nat) (f : Clu → Clu) : s.modClu m f = s.setClu m (f (s.clu m)) := rfl
theorem State.modCell_eq (s : State) (n : Nat) (f : Cell → Cell) : s.modCell n f = s.setCell n (f (s.cell n)) := rfl
theorem State.modPart_eq (s : State) (p : Nat) (f : Part → Part) : s.modPart p f = s.setPart p (f (s.part p)) := rfl

end Sys2Proof.Machine
end

