-- ==== Sys2Proof/Laws/Core.lean ====
section
/-!
SUPPORT. A core's registers: what reads find after writes, what retirement changes, and how an instruction that completes or
stops ends.
-/
namespace Sys2Proof.Machine

/-! ### Special registers -/

@[simp] theorem Core.setSp_sp_same (k : Core) (n : Nat) (w : Word) : (k.setSp n w).sp n = w := Tab.get_set_same ..
theorem Core.setSp_sp (k : Core) (n j : Nat) (w : Word) : (k.setSp n w).sp j = if j = n then w else k.sp j := Tab.get_set ..
theorem Core.setSp_spv (k : Core) (n j : Nat) (w : Word) : (k.setSp n w).spv j = if j = n then w.pay else k.spv j := by
  simp only [Core.spv, Core.setSp_sp]; split <;> rfl
theorem Core.setSpv_spv (k : Core) (n j : Nat) (v : B64) : (k.setSpv n v).spv j = if j = n then v else k.spv j := by
  simp only [Core.setSpv, Core.setSp_spv]
theorem Core.setSpv_sp (k : Core) (n j : Nat) (v : B64) (h : j ≠ n) : (k.setSpv n v).sp j = k.sp j := by
  simp only [Core.setSpv, Core.setSp_sp, h, if_false]

/-- A store of a special register changes no other field of the core. -/
@[simp] theorem Core.setSp_regs (k : Core) (n : Nat) (w : Word) : (k.setSp n w).regs = k.regs := rfl
@[simp] theorem Core.setSp_pc (k : Core) (n : Nat) (w : Word) : (k.setSp n w).pc = k.pc := rfl
@[simp] theorem Core.setSpv_regs (k : Core) (n : Nat) (v : B64) : (k.setSpv n v).regs = k.regs := rfl
@[simp] theorem Core.setSpv_pc (k : Core) (n : Nat) (v : B64) : (k.setSpv n v).pc = k.pc := rfl

/-! ### General registers (R74) -/

theorem Core.setPreg_preg (k : Core) (i j : Nat) (w : Word) :
    (k.setPreg i w).preg j = if j = i ∧ i ≠ 0 then w else k.preg j := by
  by_cases h : i = 0
  · simp [Core.setPreg, h]
  · simp only [Core.setPreg, h, if_false, Core.preg, Tab.get_set]
    by_cases hj : j = i <;> simp [hj, h]

@[simp] theorem Core.setSp_rest (k : Core) (n : Nat) (w : Word) : (k.setSp n w).rest = k.rest := rfl
@[simp] theorem Core.setSpv_rest (k : Core) (n : Nat) (v : B64) : (k.setSpv n v).rest = k.rest := rfl
@[simp] theorem Core.setPreg_rest (k : Core) (i : Nat) (w : Word) : (k.setPreg i w).rest = k.rest := by
  simp only [Core.setPreg]; split <;> rfl
@[simp] theorem Core.dirty_rest (k : Core) (m : Nat) : (k.dirty m).rest = k.rest := rfl
@[simp] theorem Core.setPbit_rest (k : Core) (i : Nat) (b : Bool) : (k.setPbit i b).rest = k.rest := rfl
@[simp] theorem Core.put_rest (k : Core) (r : Reg) (w : Word) : (k.put r w).rest = k.rest := by simp [Core.put]
@[simp] theorem Core.setLcount_rest (k : Core) (v : B64) : (k.setLcount v).rest = k.rest := rfl

/-! ### Counting (R204) -/

/-- What counting leaves as it is. -/
structure Core.PmcSame (k j : Core) : Prop where
  rest : j.rest = k.rest
  regs : j.regs = k.regs
  pc : j.pc = k.pc
  wait : j.wait = k.wait
  entering : j.entering = k.entering
  sp : ∀ n, ¬ (0x080 ≤ n ∧ n < 0x0A0) → j.sp n = k.sp n

theorem Core.pmc_same (k : Core) (ev n : Nat) : Core.PmcSame k (k.pmc ev n) := by
  have step : ∀ (l : List Nat) (j : Core), (∀ i ∈ l, i < 32) → Core.PmcSame k j →
      Core.PmcSame k (l.foldl (fun k i =>
        let sel := k.spv (0x0A0 + i)
        if fld sel 7 0 == ev && ev != 0 && (fld sel 11 8).testBit k.level
            && (!sel.getLsbD 18 || k.part == some (fld sel 17 12)) then
          k.setSpv (0x080 + i) (k.spv (0x080 + i) + BitVec.ofNat 64 n)
        else k) j) := by
    intro l
    induction l with
    | nil => intro j _ h; exact h
    | cons i l ih =>
      intro j hl h
      simp only [List.foldl_cons]
      apply ih _ (fun x hx => hl x (List.mem_cons_of_mem _ hx))
      split
      · have hi : i < 32 := hl i (List.mem_cons_self ..)
        refine ⟨?_, ?_, ?_, ?_, ?_, ?_⟩
        · simpa using h.rest
        · simpa using h.regs
        · simpa using h.pc
        · exact h.wait
        · exact h.entering
        · intro m hm
          rw [Core.setSpv_sp _ _ _ _ (by omega)]
          exact h.sp m hm
      · exact h
  exact step (List.range 32) k (fun i hi => List.mem_range.mp hi) ⟨rfl, rfl, rfl, rfl, rfl, fun _ _ => rfl⟩

@[simp] theorem Core.pmc_rest (k : Core) (ev n : Nat) : (k.pmc ev n).rest = k.rest := (k.pmc_same ev n).rest
@[simp] theorem Core.pmc_regs (k : Core) (ev n : Nat) : (k.pmc ev n).regs = k.regs := (k.pmc_same ev n).regs
@[simp] theorem Core.pmc_pc (k : Core) (ev n : Nat) : (k.pmc ev n).pc = k.pc := (k.pmc_same ev n).pc

/-! ### How an instruction ends -/

/-- An instruction whose body completes retires. -/
theorem instr_ok (s t : State) (c : Nat) (body : Op Flow) (f : Flow) (h : s.runs c)
    (hb : body.run.run (s.begun c) = (.ok f, t)) : instr c body s = .next (t.retire c (s.core c) f) := by
  obtain ⟨h1, h2, h4, h5, h3⟩ := h
  have : s.issue c false false body = t.retire c (s.core c) f := by
    simp only [State.issue, State.flushWaiting, h4, h5, h2, h3, Bool.not_true, Bool.or_self, Bool.false_and, Bool.false_eq_true,
      if_false]
    rw [show (s.modCore c fun k => { k with entering := false }) = s.begun c from rfl, hb]
  simp [instr, onCore, h1, this]
/-- An instruction whose body traps enters the trap. -/
theorem instr_trap (s t : State) (c cause bank : Nat) (info : B64) (body : Op Flow) (h : s.runs c)
    (hb : body.run.run (s.begun c) = (.error (.trap cause info bank), t)) :
    instr c body s = .next (t.trapHere c cause info bank) := by
  obtain ⟨h1, h2, h4, h5, h3⟩ := h
  have : s.issue c false false body = t.trapHere c cause info bank := by
    simp only [State.issue, State.flushWaiting, h4, h5, h2, h3, Bool.not_true, Bool.or_self, Bool.false_and, Bool.false_eq_true,
      if_false]
    rw [show (s.modCore c fun k => { k with entering := false }) = s.begun c from rfl, hb]
  simp [instr, onCore, h1, this]
/-- A transfer whose body completes retires, unless it stands at the last instruction of an active loop. -/
theorem transfer_ok (s t : State) (c : Nat) (body : Op Flow) (f : Flow) (h : s.runs c)
    (hl : ((s.core c).loopHere && (s.core c).atLend) = false)
    (hb : body.run.run (s.begun c) = (.ok f, t)) : transfer c body s = .next (t.retire c (s.core c) f) := by
  obtain ⟨h1, h2, h4, h5, h3⟩ := h
  have : s.issue c true false body = t.retire c (s.core c) f := by
    simp only [State.issue, State.flushWaiting, h4, h5, h2, h3, Bool.not_true, Bool.or_self, Bool.true_and, hl, Bool.false_eq_true,
      if_false]
    rw [show (s.modCore c fun k => { k with entering := false }) = s.begun c from rfl, hb]
  simp [transfer, onCore, h1, this]

/-- Two changes of one core are one. -/
@[simp] theorem State.modCore_modCore (s : State) (c : Nat) (f g : Core → Core) :
    (s.modCore c f).modCore c g = s.modCore c fun k => g (f k) := by
  simp [State.modCore, State.setCore, State.core]
theorem State.begun_id (s : State) (c : Nat) : (s.begun c).modCore c id = s.begun c := by simp [State.begun]
/-- What a body finds in the registers as it begins. -/
@[simp] theorem State.begun_core (s : State) (c : Nat) : (s.begun c).core c = { s.core c with entering := false } := by
  simp [State.begun]
@[simp] theorem Core.get_entering (k : Core) (b : Bool) (r : Reg) : ({ k with entering := b } : Core).get r = k.get r := rfl
@[simp] theorem Core.level_entering (k : Core) (b : Bool) : ({ k with entering := b } : Core).level = k.level := rfl
@[simp] theorem Core.pbit_entering (k : Core) (b : Bool) (i : Nat) : ({ k with entering := b } : Core).pbit i = k.pbit i := rfl

end Sys2Proof.Machine
end

