-- ==== Sys2Proof/Laws/Ops.lean ====
section
/-!
SUPPORT. Running an instruction's body: how sequencing runs, and what each shared operand operation answers.
-/
namespace Sys2Proof.Machine

variable {α β : Type} {s t : State} {c : Nat}

/-! ### Sequencing -/

/-- A sequence runs its first part, then the rest unless it stopped. -/
theorem run_bind (m : Op α) (f : α → Op β) :
    (m >>= f).run.run s = (match m.run.run s with | (.ok a, t) => (f a).run.run t | (.error e, t) => (.error e, t)) := by
  simp only [ExceptT.run_bind, StateT.run_bind]
  rcases m.run.run s with ⟨x | x, t⟩ <;> rfl
theorem bind_ok {m : Op α} {f : α → Op β} {a : α} (h : m.run.run s = (.ok a, t)) :
    (m >>= f).run.run s = (f a).run.run t := by
  rw [run_bind, h]
theorem bind_stop {m : Op α} {f : α → Op β} {e : Stop} (h : m.run.run s = (.error e, t)) :
    (m >>= f).run.run s = (.error e, t) := by
  rw [run_bind, h]

@[simp] theorem pure_run (a : α) : (pure a : Op α).run.run s = (.ok a, s) := rfl
@[simp] theorem throw_run (e : Stop) : (throw e : Op α).run.run s = (.error e, s) := rfl
@[simp] theorem get_run : (get : Op State).run.run s = (.ok s, s) := rfl
@[simp] theorem set_run : (set t : Op PUnit).run.run s = (.ok ⟨⟩, t) := rfl
@[simp] theorem modify_run (f : State → State) : (modify f : Op PUnit).run.run s = (.ok ⟨⟩, f s) := rfl

/-! ### Operands -/

@[simp] theorem coreOp_run : (coreOp c).run.run s = (.ok (s.core c), s) := rfl
@[simp] theorem modOp_run (f : Core → Core) : (modOp c f).run.run s = (.ok ⟨⟩, s.modCore c f) := rfl
@[simp] theorem regOp_run (r : Reg) : (regOp c r).run.run s = (.ok ((s.core c).get r), s) := rfl
@[simp] theorem putOp_run (r : Reg) (w : Word) : (putOp c r w).run.run s = (.ok ⟨⟩, s.modCore c fun k => k.put r w) := rfl
@[simp] theorem trapOp_run (cause info bank : Nat) :
    (trapOp cause info bank : Op α).run.run s = (.error (.trap cause (BitVec.ofNat 64 info) bank), s) := rfl
theorem need_ok {b : Bool} {cause info bank : Nat} (h : b = true) : (need b cause info bank).run.run s = (.ok ⟨⟩, s) := by
  subst h; rfl
theorem need_stop {b : Bool} {cause info bank : Nat} (h : b = false) :
    (need b cause info bank).run.run s = (.error (.trap cause (BitVec.ofNat 64 info) bank), s) := by subst h; rfl
theorem needTag_ok {b : Bool} {o : Nat} {w : Word} (h : b = true) : (needTag b o w).run.run s = (.ok ⟨⟩, s) := need_ok h
theorem needTag_stop {b : Bool} {o : Nat} {w : Word} (h : b = false) :
    (needTag b o w).run.run s = (.error (.trap 0x03 (BitVec.ofNat 64 (tagInfo o w)) 2), s) := need_stop h
theorem steer_ok {role o : Nat} {w : Word} (h : w.sec = false) : (steer role o w).run.run s = (.ok ⟨⟩, s) :=
  need_ok (by simp [h])
theorem steer_stop {role o : Nat} {w : Word} (h : w.sec = true) :
    (steer role o w).run.run s = (.error (.trap 0x05 (BitVec.ofNat 64 (secInfo role o)) 2), s) := need_stop (by simp [h])
theorem needLevel_ok {l : Nat} (h : l ≤ (s.core c).level) : (needLevel c l).run.run s = (.ok ⟨⟩, s) :=
  (bind_ok coreOp_run).trans (need_ok (by simpa using h))
theorem needLevel_stop {l : Nat} (h : (s.core c).level < l) :
    (needLevel c l).run.run s = (.error (.trap 0x0B 0 2), s) := (bind_ok coreOp_run).trans (need_stop (by simpa using h))
theorem wordOp_ok {o : Nat} {r : Reg} (h : ((s.core c).get r).isWordOp = true) :
    (wordOp c o r).run.run s = (.ok ((s.core c).get r), s) :=
  (bind_ok (regOp_run r)).trans ((bind_ok (needTag_ok h)).trans rfl)
theorem wordOp_stop {o : Nat} {r : Reg} (h : ((s.core c).get r).isWordOp = false) :
    (wordOp c o r).run.run s = (.error (.trap 0x03 (BitVec.ofNat 64 (tagInfo o ((s.core c).get r))) 2), s) :=
  (bind_ok (regOp_run r)).trans (bind_stop (needTag_stop h))
theorem fixOp_ok {o : Nat} {r : Reg} (h : ((s.core c).get r).isFix = true) :
    (fixOp c o r).run.run s = (.ok ((s.core c).get r), s) :=
  (bind_ok (regOp_run r)).trans ((bind_ok (needTag_ok h)).trans rfl)
theorem fixOp_stop {o : Nat} {r : Reg} (h : ((s.core c).get r).isFix = false) :
    (fixOp c o r).run.run s = (.error (.trap 0x03 (BitVec.ofNat 64 (tagInfo o ((s.core c).get r))) 2), s) :=
  (bind_ok (regOp_run r)).trans (bind_stop (needTag_stop h))

/-! ### Shapes of instructions -/

/-- An instruction that writes `w` to `rd` and changes nothing else completes so. -/
theorem instr_wrote {body : Op Flow} {rd : Reg} {w : Word} (h : s.runs c)
    (hb : body.run.run (s.begun c) = (.ok .seq, (s.begun c).modCore c fun k => k.put rd w)) :
    instr c body s = .next (s.wrote c rd w) := instr_ok s _ c body .seq h hb
/-- The same for one that changes the core by `f` and goes where `fl` says. -/
theorem instr_ends {body : Op Flow} {f : Core → Core} {fl : Flow} (h : s.runs c)
    (hb : body.run.run (s.begun c) = (.ok fl, (s.begun c).modCore c f)) : instr c body s = .next (s.ends c f fl) :=
  instr_ok s _ c body fl h hb

end Sys2Proof.Machine
end

