-- ==== Sys2Proof/Laws/Mem.lean ====
section
/-!
SUPPORT. External memory: what a read of a word finds after each store, and that every memory operation keeps the canonical
form.
-/
namespace Sys2Proof.Machine

/-! ### Words -/

/-- What word `a` holds after a store at `pa`. -/
theorem State.setMemWord_memWord (s : State) (pa a : Nat) (w : Word) :
    (s.setMemWord pa w).memWord a = if a = pa then w else s.memWord a := Tab.get_set ..
/-- Consecutive words stored from `pa` upward: a word outside them is as before. -/
theorem storeWords_other (ws : List Word) (s : State) (pa a : Nat) (h : a < pa ∨ pa + ws.length ≤ a) :
    (storeWords s pa ws).memWord a = s.memWord a := by
  induction ws generalizing s pa with
  | nil => rfl
  | cons w t ih =>
    simp only [List.length_cons] at h
    rw [storeWords, ih _ _ (by omega), State.setMemWord_memWord, if_neg (by omega)]
/-- The words stored are found again. -/
theorem storeWords_get (ws : List Word) (s : State) (pa i : Nat) (h : i < ws.length) :
    (storeWords s pa ws).memWord (pa + i) = ws[i] := by
  induction ws generalizing s pa i with
  | nil => simp at h
  | cons w t ih =>
    cases i with
    | zero =>
      rw [storeWords, storeWords_other _ _ _ _ (by omega), State.setMemWord_memWord]
      simp
    | succ i =>
      have := ih (s.setMemWord pa w) (pa + 1) i (by simpa using h)
      rw [show pa + 1 + i = pa + (i + 1) by omega] at this
      simpa [storeWords] using this

/-! ### What leaves memory alone -/

@[simp] theorem State.setCwErr_mem (s : State) (l cw : Nat) (e : List (Nat × BitVec 8)) : (s.setCwErr l cw e).mem = s.mem := rfl
@[simp] theorem State.setFilled_mem (s : State) (n r : Nat) (b : Bool) : (s.setFilled n r b).mem = s.mem := rfl
@[simp] theorem State.wrf_mem (s : State) (n : RegName) (u i hi lo x : Nat) : (s.wrf n u i hi lo x).mem = s.mem := by
  simp only [State.wrf, State.wr_mem]
@[simp] theorem State.incf_mem (s : State) (n : RegName) (u i hi lo : Nat) : (s.incf n u i hi lo).mem = s.mem := by
  simp only [State.incf, State.wrf_mem]
@[simp] theorem State.inc32_mem (s : State) (n : RegName) (u i : Nat) : (s.inc32 n u i).mem = s.mem := by
  simp only [State.inc32, State.incf_mem]
@[simp] theorem State.raise_mem (s : State) (code inst : Nat) (arg : BitVec 32) : (s.raise code inst arg).mem = s.mem := by
  simp only [State.raise, State.modShd_mem]
@[simp] theorem State.elogPut_mem (s : State) (n q : Nat) (d : List (BitVec 32)) : (s.elogPut n q d).mem = s.mem := by
  simp only [State.elogPut, State.modCell, State.setCell_mem, State.wr_mem]
@[simp] theorem State.elogTell_mem (s : State) (n q code inst sev ovf : Nat) (esc : Bool) (arg : BitVec 32) (addr : Nat) :
    (s.elogTell n q code inst sev ovf esc arg addr).mem = s.mem := by
  simp only [State.elogTell, State.raise_mem, State.elogPut_mem]
@[simp] theorem State.elogMerge_mem (s : State) (n q code inst sev : Nat) (arg : BitVec 32) (addr : Nat) :
    (s.elogMerge n q code inst sev arg addr).mem = s.mem := by
  unfold State.elogMerge
  split
  · simp only [State.wr_mem]
  · simp only [State.elogTell_mem]
@[simp] theorem State.elogFull_mem (s : State) (n code inst sev : Nat) (arg : BitVec 32) (addr : Nat) (o : Option Nat) :
    (s.elogFull n code inst sev arg addr o).mem = s.mem := by
  unfold State.elogFull
  by_cases c : sev ≤ 2
  · rw [if_pos c, State.incf_mem]
  · rw [if_neg c]
    cases o with
    | some q => exact (State.incf_mem ..).trans (State.elogTell_mem ..)
    | none => exact (State.wrf_mem ..).trans (State.incf_mem ..)
@[simp] theorem State.elogNew_mem (s : State) (n code inst sev : Nat) (arg : BitVec 32) (addr : Nat) :
    (s.elogNew n code inst sev arg addr).mem = s.mem := by
  unfold State.elogNew
  exact (State.wr_mem ..).trans (State.elogTell_mem ..)
@[simp] theorem State.elogAct_mem (s : State) (n code inst sev : Nat) (arg : BitVec 32) (addr : Nat) (o : Option Nat) :
    (s.elogAct n code inst sev arg addr o).mem = s.mem := by
  unfold State.elogAct
  cases o with
  | some q => simp only [State.elogMerge_mem]
  | none =>
    by_cases c : s.elogOpen n < 64
    · simp only [if_pos c, State.elogNew_mem]
    · simp only [if_neg c, State.elogFull_mem]
@[simp] theorem State.elogEnter_mem (s : State) (n code inst sev : Nat) (arg : BitVec 32) (addr : Nat) :
    (s.elogEnter n code inst sev arg addr).mem = s.mem := s.elogAct_mem ..
@[simp] theorem State.flip_mem (s : State) (l : Nat) : (s.flip l).mem = s.mem := by
  unfold State.flip
  by_cases c : s.flipArmed l = true
  · rw [if_pos c]; rfl
  · rw [if_neg c]
@[simp] theorem State.memEvent_mem (s : State) (l src type cw pos eval : Nat) : (s.memEvent l src type cw pos eval).mem = s.mem := by
  unfold State.memEvent
  refine (State.elogEnter_mem ..).trans ?_
  generalize (if (type == 2 || type == 3) = true then RegName.memUecnt else .memCecnt) = n
  split
  · rw [State.wr_mem, State.wr_mem, State.wr_mem, State.wr_mem, State.inc32_mem]
  · split
    · rw [State.wr_mem, State.wr_mem, State.wr_mem, State.wr_mem, State.inc32_mem]
    · rw [State.wr_mem, State.inc32_mem]
/-- A decoded codeword changes no memory: a repair is a write of its own. -/
@[simp] theorem State.readCw_mem (s : State) (l cw src sub : Nat) (e1 e2 : List (Nat × BitVec 8)) :
    (s.readCw l cw src sub e1 e2).2.mem = s.mem := by
  unfold State.readCw
  simp only []
  split
  · rfl
  · exact State.memEvent_mem ..
  · generalize (cwOutcome (normErr (s.cwErr l cw ++ errOf cw e2)) == CwOut.clean || _) = b
    cases b <;> exact State.memEvent_mem ..

/-! ### The canonical form -/

/-- The form is a matter of memory alone. -/
theorem State.memWf_of_mem {s t : State} (h : t.mem = s.mem) (hs : s.memWf = true) : t.memWf = true := by
  simpa [State.memWf, h] using hs
theorem State.setMemWord_wf (s : State) (pa : Nat) (w : Word) (h : s.memWf = true) : (s.setMemWord pa w).memWf = true :=
  Tab.wf_set _ _ _ _ h
theorem storeWords_wf (ws : List Word) (s : State) (pa : Nat) (h : s.memWf = true) : (storeWords s pa ws).memWf = true := by
  induction ws generalizing s pa with
  | nil => exact h
  | cons w t ih => exact ih _ _ (s.setMemWord_wf pa w h)
theorem State.dramWrite_wf (s : State) (l : Nat) (ws : List Word) (h : s.memWf = true) : (s.dramWrite l ws).memWf = true :=
  State.memWf_of_mem (by simp [State.dramWrite]) (storeWords_wf (ws.take 8) s (l * 8) h)
theorem State.dramRead_wf (s : State) (l src : Nat) (e1 e2 : List (Nat × BitVec 8)) (h : s.memWf = true) :
    (s.dramRead l src e1 e2).2.memWf = true := by
  have hb : ((s.readCw l 0 src 0 e1 e2).2.readCw l 1 src 0 e1 e2).2.memWf = true := State.memWf_of_mem (by simp) h
  simp only [State.dramRead]
  split
  · exact State.dramWrite_wf _ _ _ hb
  · exact hb
theorem State.dramReadPartial_wf (s : State) (l : Nat) (e1 e2 : List (Nat × BitVec 8)) (h : s.memWf = true) :
    (s.dramReadPartial l e1 e2).2.memWf = true := State.memWf_of_mem (by simp [State.dramReadPartial]) h
theorem State.dropRegion_wf (s : State) (n r : Nat) (h : s.memWf = true) : (s.dropRegion n r).memWf = true := by
  simp only [State.memWf, State.dropRegion]
  exact Tab.wf_drop (fun _ => Word.empty) _ s.mem h
theorem State.clearRegion_wf (s : State) (n r : Nat) (h : s.memWf = true) : (s.clearRegion n r).memWf = true :=
  State.memWf_of_mem rfl (s.dropRegion_wf n r h)
theorem State.clearMap_wf (s : State) (n : Nat) (h : s.memWf = true) : (s.clearMap n).memWf = true := by
  simp only [State.memWf, State.clearMap]
  exact Tab.wf_drop (fun _ => Word.empty) _ s.mem h
theorem State.fillRegion_wf (s : State) (n r : Nat) (h : s.memWf = true) : (s.fillRegion n r).memWf = true := by
  simp only [State.fillRegion]
  have : ∀ (l : List Nat) (t : State), t.memWf = true → (l.foldl (fun s i =>
      let c := n * s.build.chanPerCell + i
      let l := (s.rd .memFlipline c).toNat + fld (s.rd .memFliplineh c) 3 0 * 2 ^ 32
      if cellOfLine l == n && regionOf (lineInCell l) == r && s.chanOfLine l == c then s.flip l else s) t).memWf = true := by
    intro l
    induction l with
    | nil => intro t ht; exact ht
    | cons i l ih =>
      intro t ht
      simp only [List.foldl_cons]
      apply ih
      split
      · exact State.memWf_of_mem (State.flip_mem ..) ht
      · exact ht
  exact this _ _ (State.memWf_of_mem rfl (s.dropRegion_wf n r h))
theorem State.fillDone_wf (s : State) (n : Nat) (h : s.memWf = true) : (s.fillDone n).memWf = true := by
  unfold State.fillDone
  simp only []
  split
  · exact h
  · rename_i r _
    have h1 : ∀ t : State, t.memWf = true → (if t.regionUsable n r && !t.isFilled n r then t.fillRegion n r else t).memWf = true := by
      intro t ht
      split
      · exact t.fillRegion_wf n r ht
      · exact ht
    have h2 : ∀ f : Cell → Cell, (s.modCell n f).memWf = true := fun f => State.memWf_of_mem (State.setCell_mem ..) h
    have h3 := h1 _ (h2 fun k => { k with filling := none, fillAt := Tab.set (fun _ => 0) k.fillAt r 0 })
    have h4 : ∀ (c : Bool) (u : State) (x : BitVec 32), u.memWf = true →
        (if c = true then u.wr .homeFillmax (4 * n) 0 x else u).memWf = true := by
      intro c u x hu
      cases c with
      | true => exact State.memWf_of_mem (State.wr_mem ..) hu
      | false => exact hu
    exact h4 _ _ _ h3
theorem State.hoeLineRead_wf (s : State) (l : Nat) (b : Bool) (e1 e2 : List (Nat × BitVec 8)) (h : s.memWf = true) :
    (s.hoeLineRead l b e1 e2).memWf = true := by
  simp only [State.hoeLineRead]
  split
  · exact State.memWf_of_mem (by simp) h
  · exact s.dramRead_wf l 2 e1 e2 h

end Sys2Proof.Machine
end

