-- ==== Sys2Proof/Tests/Slice0.lean ====
section
/-!
SUPPORT. The model's own tests: an ill-formed command for each check of WellFormed, single steps on small states, and for
each statement with hypotheses a state and operands that meet them, clause by clause, at the ends of their ranges.
-/
namespace Sys2Proof.Tests
open Sys2Proof Sys2Proof.Machine
set_option Elab.async false

/-! ### Helpers -/

/-- The state after reset with one rank of memory in cell 0, the control store of cluster 0 measured, core 0 at level `l` and the registers `rs` of core 0 given. -/
def base (l : Nat) (rs : List (Reg × Word) := []) : State :=
  ((State.reset.wr .memCfg 0 0 0x1000).modClu 0 fun k => { k with csOk := true }).modCore 0 fun k => rs.foldl (fun k e => k.put e.1 e.2) (k.setLevel l)

/-- The state in which loads of core 0 in bare mode find `ws` (in its store buffer). -/
def holding (ws : List (Nat × Word)) (s : State) : State :=
  s.modCore 0 fun k => { k with sb := ws.map fun e => ⟨e.1, e.2, false⟩ }
def fixW (n : Int) (sec : Bool := false) : Word := Word.fix (BitVec.ofInt 64 n) sec
/-- The outcome is the next state `t`. -/
def nexts (o : Out) (t : State) : Bool := match o with | .next u => decide (u = t) | _ => false
/-- The outcome is a next state with the property `p`. -/
def nextHas (o : Out) (p : State → Bool) : Bool := match o with | .next u => p u | _ => false
/-- Run a state action: whether it ends well, and its state. -/
def okB {ε α σ : Type} (x : Except ε α × σ) : Bool := match x.1 with | .ok _ => true | .error _ => false

theorem pair_of {α β : Type} {p : α × β} {a : α} (h : p.1 = a) : p = (a, p.2) := by rw [← h]
theorem ok_of {ε σ : Type} {p : Except ε PUnit × σ} (h : okB p = true) : p = (.ok ⟨⟩, p.2) := by
  obtain ⟨r, t⟩ := p
  cases r with
  | ok a => rfl
  | error e => exact absurd h (by simp [okB])
theorem okv_of {ε α σ : Type} {p : Except ε α × σ} (h : okB p = true) : ∃ a, p = (.ok a, p.2) := by
  obtain ⟨r, t⟩ := p
  cases r with
  | ok a => exact ⟨a, rfl⟩
  | error e => exact absurd h (by simp [okB])
theorem runs_of {s : State} {c : Nat} (h : (decide (c < s.build.cores) && s.canIssue c && !(s.core c).flushDue &&
    !(s.core c).stepPend && (s.ibpHit c).isNone) = true) : s.runs c := by
  simp only [Bool.and_eq_true, Bool.not_eq_true', decide_eq_true_eq, Option.isNone_iff_eq_none] at h
  exact ⟨h.1.1.1.1, h.1.1.1.2, h.1.1.2, h.1.2, h.2⟩
theorem transfers_of {s : State} {c : Nat} (h : (decide (c < s.build.cores) && s.canIssue c && !(s.core c).flushDue &&
    !(s.core c).stepPend && (s.ibpHit c).isNone && !((s.core c).loopHere && (s.core c).atLend)) = true) : s.transfers c := by
  rw [Bool.and_eq_true, Bool.not_eq_true'] at h
  exact ⟨runs_of h.1, h.2⟩
theorem room_of {k : Core} (h : (!(k.window (k.cwp + 1)).res && !(k.window (k.cwp + 2)).res) = true) : k.hasRoom := by
  rw [Bool.and_eq_true, Bool.not_eq_true', Bool.not_eq_true'] at h
  exact h
/-- A load of core 0 at `va` in bare mode finds `w` in the store buffer and is taken. -/
theorem finds_of {s : State} {va : Nat} {w : Word} (h : decide (s.translate 0 (s.core 0).level .load va = (.ok bareEnt va, s)
    ∧ s.dataReach (s.build.cellOfCore 0) va = true ∧ s.coreRead 0 va = some (w, s)) = true) :
    s.finds 0 va bareEnt va w s := by
  have h := of_decide_eq_true h
  exact ⟨s, ⟨h.1, rfl, h.2.1⟩, h.2.2⟩
theorem takes_of {s : State} {va : Nat} {w : Word} (h : decide (w.isPoison = false ∧ w.malformed = false ∧
    (w.ty = tyWEAK → s.pairedOn 0 = false) ∧ (w.isFwd = true → 2 ≤ (s.core 0).level) ∧ (s.core 0).part = none ∧
    s.watchHit 0 va false = none) = true) : s.takes 0 va bareEnt w := by
  have h := of_decide_eq_true h
  refine ⟨h.1, h.2.1, rfl, h.2.2.1, h.2.2.2.1, fun r hr => ?_, h.2.2.2.2.2⟩
  simp [State.rkOn, h.2.2.2.2.1] at hr
theorem mayStore_of {s : State} {c : Nat} {w : Word} {car bare : Bool} (h : decide ((car = true → w.isHdr = false ∧ w.isEmpty = false) ∧
    (2 ≤ (s.core c).level ∨ privWord w = false) ∧ (bare = true → w.isRaw = false)) = true) : s.mayStore c w car bare := by
  have h := of_decide_eq_true h
  exact h
/-- Core 0 with one more entry in its store buffer. -/
def stored (s : State) (va : Nat) (w : Word) : State := s.modCore 0 fun k => { k with sb := k.sb ++ [⟨va, w, false⟩] }
/-- A store of core 0 in bare mode, with no partition and room in the buffer. -/
theorem stores_of {s : State} {va : Nat} {w : Word} {hd : Option B64}
    (h : decide (s.translate 0 (s.core 0).level .store va = (.ok bareEnt va, s) ∧ s.dataReach (s.build.cellOfCore 0) va = true ∧
      (match hd with
       | some h => (!w.isRaw || rawKind (hdrKind h) || (recKind (hdrKind h) && hdrSealed h)) && (!rawKind (hdrKind h) || w.isRaw || w.isEmpty)
       | none => !w.isRaw) = true ∧ w.sec = false ∧
      (w.isHdr = false ∨ (s.core 0).level = 3) ∧ s.watchHit 0 va true = none ∧ (s.core 0).part = none ∧ (s.core 0).sb.length < 8) = true) :
    s.stores 0 va w hd (stored s va w) := by
  have h := of_decide_eq_true h
  refine ⟨bareEnt, va, s, s, s, s, none, ⟨h.1, rfl, h.2.1⟩, ⟨rfl, ?_, ?_, ?_⟩, ?_, h.2.2.2.2.2.1, .inl ⟨?_, rfl⟩, rfl⟩
  · cases hd with
    | none => simpa using h.2.2.1
    | some x =>
      have g := h.2.2.1
      simp only [Bool.and_eq_true, Bool.or_eq_true, Bool.not_eq_true'] at g
      refine ⟨fun r => ?_, fun r => ?_⟩
      · rcases g.1 with (a | a) | a
        · rw [a] at r; exact absurd r (by simp)
        · exact .inl a
        · exact .inr a
      · rcases g.2 with (a | a) | a
        · rw [a] at r; exact absurd r (by simp)
        · exact .inl a
        · exact .inr a
  · intro hs; rw [h.2.2.2.1] at hs; exact absurd hs (by simp)
  · refine .inl ⟨fun hw => ?_, rfl⟩
    rcases h.2.2.2.2.1 with a | a
    · rw [a] at hw; exact absurd hw.1 (by simp)
    · omega
  · simp [State.cardOf, State.rkOn, h.2.2.2.2.2.2.1]
  · exact h.2.2.2.2.2.2.2

/-! ### Witnesses: machine, tag and generic operations -/

theorem test_witness_machine_operations :
    let s := base 0 [(1, Word.fix 0x8000000000000000), (2, Word.raw 64)]
    let z := base 0 [(1, fixW (-1)), (2, fixW 0)]
    (s.runs 0 ∧ z.runs 0) ∧ ((s.reg 0 1).isWordOp = true ∧ (s.reg 0 2).isWordOp = true ∧ (s.reg 0 1).sec = false ∧ (s.reg 0 2).sec = false ∧
      (s.reg 0 2).pay ≠ 0 ∧ (z.reg 0 1).isWordOp = true ∧ (z.reg 0 2).isWordOp = true ∧ (z.reg 0 2).pay = 0) ∧
    (nexts (exec (.shl 0 3 1 2) s) (s.wrote 0 3 (Word.raw 0)) &&
      nexts (exec (.sar 0 3 1 2) s) (s.wrote 0 3 (Word.raw 0xFFFFFFFFFFFFFFFF)) &&
      nexts (exec (.divct 0 3 1 2) z) (z.wrote 0 3 (fixW (-1))) && nexts (exec (.clz 0 3 2) z) (z.wrote 0 3 (fixW 64))) = true :=
  ⟨⟨runs_of (by decide +kernel), runs_of (by decide +kernel)⟩, by decide +kernel, by decide +kernel⟩

/-- Core 0 with words in registers 1 to 3. -/
def regs3 (x y z : Word) : State := base 0 [(1, x), (2, y), (3, z)]
def chr (n : Nat) (sec : Bool := false) : Word := mkWord 2 sec 0 (BitVec.ofNat 64 n)
def vecP (a sub : Nat) : Word := mkWord 0x11 false sub (BitVec.ofNat 64 a)

theorem test_witness_sel_mov_eq :
    (regs3 (fixW 1) (fixW 1 true) (fixW 2)).runs 0 ∧
    (let s := regs3 (vecP 8 0) (vecP 8 1) (fixW 0)
     nexts (exec (.eq 0 4 1 2) s) (s.wrote 0 4 (fixW 1)) = true) ∧
    (let s := regs3 (fixW 1) (fixW 1 true) (fixW 2)
     (s.reg 0 1).isFix = true ∧ ((s.reg 0 2).ty = (s.reg 0 3).ty ∧ (s.reg 0 2).sub = (s.reg 0 3).sub ∧ secAllowed (s.reg 0 2).ty = true) ∧
      nexts (exec (.eq 0 4 1 2) s) (s.wrote 0 4 (fixW 1 true)) = true ∧
      nexts (exec (.sel 0 3 1 2) s) (s.wrote 0 3 (fixW 1 true)) = true) ∧
    (let s := regs3 (Word.raw 1) (chr 0) (chr 0)
     (s.reg 0 1).isFix = false ∧ nexts (exec (.sel 0 3 1 2) s) ((s.begun 0).trapHere 0 3 (BitVec.ofNat 64 (s.reg 0 1).tag.toNat) 2) = true) ∧
    (let s := regs3 (fixW 0) (vecP 8 0) (vecP 8 1)
     ¬ ((s.reg 0 2).ty = (s.reg 0 3).ty ∧ (s.reg 0 2).sub = (s.reg 0 3).sub) ∧
      nexts (exec (.sel 0 3 1 2) s) ((s.begun 0).trapHere 0 3 (BitVec.ofNat 64 (256 + (s.reg 0 2).tag.toNat)) 2) = true) ∧
    (let s := regs3 (fixW 0 true) (vecP 8 0) (vecP 16 0)
     secAllowed (s.reg 0 2).ty = false ∧ nexts (exec (.sel 0 3 1 2) s) ((s.begun 0).trapHere 0 5 (BitVec.ofNat 64 (9 * 256 + 2)) 2) = true) :=
  ⟨runs_of (by decide +kernel), by decide +kernel⟩

theorem test_witness_immediates_and_bit_fields :
    let s := base 0 [(1, fixW (-2)), (2, Word.raw 5 true)]
    s.runs 0 ∧ ((s.reg 0 1).isWordOp = true ∧ (s.reg 0 2).isWordOp = true ∧ fld (0x103F : BitVec 13) 12 10 = 4 ∧
      fld (0x103F : BitVec 13) 9 6 = 0 ∧ (63 : BitVec 6).toNat + (0 : BitVec 6).toNat + 1 = 64 ∧
      (0 : BitVec 6).toNat + (63 : BitVec 6).toNat + 1 = 64) ∧
    (nexts (exec (.shi 0 3 1 0x103F) s) (s.wrote 0 3 (fixW (-3))) && nexts (exec (.bfx 0 3 1 63 0) s) (s.wrote 0 3 (fixW 1)) &&
      nexts (exec (.bfxs 0 3 1 63 0) s) (s.wrote 0 3 (fixW (-1))) && nexts (exec (.bfi 0 2 1 0 63) s) (s.wrote 0 2 (Word.raw 0xFFFFFFFFFFFFFFFE true)) &&
      nexts (exec (.ldsh 0 1 0x3FFFF) s) (s.wrote 0 1 (fixW (-262145))) && nexts (exec (.waddi 0 3 1 0x1000) s) (s.wrote 0 3 (fixW (-4098)))
      && nexts (exec (.ldi 0 3 0x20000) s) (s.wrote 0 3 (fixW (-131072)))) = true :=
  ⟨runs_of (by decide +kernel), by decide +kernel, by decide +kernel⟩

theorem test_witness_tag_instructions :
    let s := base 2 [(1, chr 5), (2, fixW 4), (3, fixW 0x10)]
    let d := (base 0 [(1, fixW 5 true)]).modCore 0 fun k => k.setPbit 7 true
    (s.runs 0 ∧ d.runs 0) ∧ ((s.reg 0 2).isFix = true ∧ (s.reg 0 2).sec = false ∧ (s.reg 0 2).pay.getLsbD (s.reg 0 1).ty = true ∧
      2 ≤ (s.core 0).level ∧ (d.core 0).level < 2 ∧ (d.core 0).pbit 7 = true ∧
      (s.pairedOn 0 && (s.core 0).level ≤ 1 && (s.reg 0 1).isPtr) = false ∧
      Word.malformed (Word.withSec ⟨0x10, 5⟩ false) = false ∧ Word.payOk ⟨0x10, 5⟩ = true ∧ Word.payOk ⟨0x08, 5⟩ = true ∧ s.pairedOn 0 = false ∧ fld (0x10 : BitVec 13) 12 8 = 0) ∧
    (nexts (exec (.tagof 0 4 1) s) (s.wrote 0 4 (fixW 0x10)) && nexts (exec (.tchk 0 1 2) s) (s.ends 0 id .seq) &&
      nexts (exec (.ttst 0 4 1 3) s) (s.wrote 0 4 (fixW 0)) && nexts (exec (.tchki 0 1 4) s) (s.ends 0 id .seq) &&
      nexts (exec (.ttsti 0 4 1 0x10004) s) (s.wrote 0 4 (fixW 1)) && nexts (exec (.retagi 0 4 1 0x08) s) (s.wrote 0 4 ⟨0x08, 5⟩) &&
      nexts (exec (.retag 0 4 1 3) s) (s.wrote 0 4 ⟨0x10, 5⟩) && nexts (exec (.decl 0 4 1) d) (d.wrote 0 4 (fixW 5))) = true :=
  ⟨⟨runs_of (by decide +kernel), runs_of (by decide +kernel)⟩, by decide +kernel, by decide +kernel⟩

theorem test_witness_machine_operation_traps :
    let trap := fun (s : State) (cause info : Nat) => (s.begun 0).trapHere 0 cause (BitVec.ofNat 64 info) 2
    let s := base 0 [(1, fixW 7), (2, fixW 0), (3, fixW 1 true), (4, chr 9)]
    s.runs 0 ∧ ((s.reg 0 4).isWordOp = false ∧ (s.reg 0 3).sec = true ∧ (s.reg 0 2).pay = 0 ∧ (s.core 0).level < 2 ∧
      (s.core 0).pbit 7 = false ∧ 64 < (63 : BitVec 6).toNat + (1 : BitVec 6).toNat + 1 ∧ 4 < fld (0x1400 : BitVec 13) 12 10) ∧
    (nexts (exec (.wadd 0 5 4 1) s) (trap s 3 0x10) && nexts (exec (.wadd 0 5 1 4) s) (trap s 3 0x110) &&
      nexts (exec (.shl 0 5 1 3) s) (trap s 5 0x501) && nexts (exec (.div 0 5 3 1) s) (trap s 5 0x600) &&
      nexts (exec (.rem 0 5 1 3) s) (trap s 5 0x601) && nexts (exec (.div 0 5 1 2) s) (trap s 4 256) &&
      nexts (exec (.bfi 0 5 1 63 1) s) (trap s 1 0) && nexts (exec (.shi 0 5 1 0x1400) s) (trap s 1 0) &&
      nexts (exec (.retag 0 5 1 2) s) (trap s 0x0B 0) && nexts (exec (.retagi 0 5 1 8) s) (trap s 0x0B 0) &&
      nexts (exec (.decl 0 5 1) s) (trap s 0x0B 0)) = true :=
  ⟨runs_of (by decide +kernel), by decide +kernel, by decide +kernel⟩

def flo (p : B64) : Word := mkWord 4 false 0 p

theorem test_witness_generic_arithmetic :
    let s := base 0 [(1, fixW 9223372036854775807), (2, fixW 1), (3, fixW 1 true), (4, flo 0x3FF8000000000000), (5, flo 0x4002000000000000)]
    let n := s.modCore 0 fun k => k.setPbit 5 true
    (s.runs 0 ∧ n.runs 0) ∧ ((s.reg 0 1).malformed = false ∧ (s.reg 0 4).malformed = false ∧ (s.reg 0 4).isFlo = true ∧
      (s.reg 0 1).isFix = true ∧ ¬ ((s.reg 0 1).pay.toInt + 1 < 2 ^ 63) ∧ (n.core 0).pbit 5 = true) ∧
    (nexts (exec (.sub 0 6 1 2) s) (s.wrote 0 6 (fixW 9223372036854775806)) &&
      nexts (exec (.add 0 6 1 3) n) (n.wrote 0 6 (fixW (-9223372036854775808) true)) &&
      nexts (exec (.addi 0 6 1 1) n) ((n.begun 0).trapHere 0 8 0x3F 2) &&
      nexts (exec (.add 0 6 4 5) s) (s.wrote 0 6 (flo 0x400E000000000000)) &&
      nexts (exec (.mul 0 6 4 5) s) (s.wrote 0 6 (flo 0x400B000000000000)) &&
      nexts (exec (.sub 0 6 5 2) s) (s.wrote 0 6 (flo 0x3FF4000000000000))) = true :=
  ⟨⟨runs_of (by decide +kernel), runs_of (by decide +kernel)⟩, by decide +kernel, by decide +kernel⟩

theorem test_witness_cmp :
    let s := base 0 [(1, fixW (-9223372036854775808)), (2, fixW 9223372036854775807 true), (3, flo 0x7FF8000000000000),
      (4, flo 0x8000000000000000), (5, flo 0x43E0000000000000), (6, fixW 9223372036854775807), (7, flo 0)]
    s.runs 0 ∧ ((s.reg 0 3).malformed = false ∧ (s.reg 0 3).isFlo = true ∧ fld (s.reg 0 3).pay 62 52 = 2047 ∧ fld (s.reg 0 3).pay 51 0 ≠ 0) ∧
    (nexts (exec (.cmp 0 .lt 8 1 2) s) (s.wrote 0 8 (fixW 1 true)) && nexts (exec (.cmp 0 .ne 8 3 3) s) (s.wrote 0 8 (fixW 1)) &&
      nexts (exec (.cmp 0 .eq 8 3 3) s) (s.wrote 0 8 (fixW 0)) && nexts (exec (.cmp 0 .eq 8 4 7) s) (s.wrote 0 8 (fixW 1)) &&
      nexts (exec (.cmp 0 .gt 8 5 6) s) (s.wrote 0 8 (fixW 1)) && nexts (exec (.cmp 0 .le 8 5 6) s) (s.wrote 0 8 (fixW 0))) = true :=
  ⟨runs_of (by decide +kernel), by decide +kernel, by decide +kernel⟩

/-- The microcode entries of cluster 0 that statements name run their sequences. -/
theorem test_microcode_entries_open :
    ∀ a ∈ [0x0000, 0x0040, 0x0060, 0x0080, 0x0088, 0x00A0, 0x00A8, 0x00B0, 0x00F8, 0x00C0], ((base 0).clu 0).ucEntry a = none := by decide +kernel

/-! ### Witnesses: loads, stores and allocation -/

def consP (a : Nat) : Word := mkWord 0x10 false 0 (BitVec.ofNat 64 a)
def hdrW (len kind : Nat) (sealed_ : Bool := false) : Word := mkWord 8 false 0 (mkHdr len 0 kind sealed_ 0 false)
def fwdW (a : Nat) : Word := mkWord 9 false 0 (BitVec.ofNat 64 a)

/-- A header of core 0 in the store buffer, in bare mode. -/
theorem header_of {s : State} {h : Word} {a ty : Nat} (e : decide (h.isHdr = true ∧ h.malformed = false ∧
    kindPtr (hdrKind h.pay) = some ty) = true) (f : s.finds 0 a bareEnt a h s) : s.headerAt 0 ty a h s := by
  have e := of_decide_eq_true e
  exact ⟨bareEnt, a, f, e.1, e.2.1, rfl, e.2.2⟩
/-- A pointer straight to an object, its header in the store buffer. -/
theorem obj_of {s : State} {b h : Word} {a : Nat} (e : decide (b.isHeadered = true ∧ ptrPayOk b.pay = true ∧ a = b.pay.toNat ∧
    h.isHdr = true ∧ h.malformed = false ∧ kindPtr (hdrKind h.pay) = some b.ty) = true)
    (f : s.finds 0 a bareEnt a h s) : s.reachesObj 0 b a h s := by
  have e := of_decide_eq_true e
  exact ⟨e.1, e.2.1, .inl ⟨e.2.2.1, bareEnt, a, f, e.2.2.2.1, e.2.2.2.2.1, rfl, e.2.2.2.2.2⟩⟩
/-- A pointer to an object over a `FWD`. -/
theorem obj_fwd_of {s : State} {b h w : Word} {a o : Nat} (e : decide (b.isHeadered = true ∧ ptrPayOk b.pay = true ∧ o = b.pay.toNat ∧
    w.isFwd = true ∧ w.malformed = false ∧ a = w.pay.toNat % 2 ^ 54 ∧ (s.clu 0).ucEntry 0x0088 = none) = true)
    (e2 : decide (h.isHdr = true ∧ h.malformed = false ∧ kindPtr (hdrKind h.pay) = some b.ty) = true)
    (g : s.finds 0 o bareEnt o w s) (f : s.finds 0 a bareEnt a h s) : s.reachesObj 0 b a h s := by
  have e := of_decide_eq_true e
  exact ⟨e.1, e.2.1, .inr ⟨bareEnt, o, w, s, e.2.2.1 ▸ g, e.2.2.2.1, e.2.2.2.2.1, rfl, e.2.2.2.2.2.1, e.2.2.2.2.2.2, header_of e2 f⟩⟩
theorem cell_of {s : State} {b w : Word} {j va : Nat} (e : decide (b.isCons = true ∧ ptrPayOk b.pay = true ∧ va = b.pay.toNat + j ∧
    w.isFwd = false) = true) (f : s.finds 0 va bareEnt va w s) : s.reachesCell 0 b j va s := by
  have e := of_decide_eq_true e
  exact ⟨e.1, e.2.1, .inl ⟨bareEnt, va, w, e.2.2.1 ▸ f, .inl e.2.2.2, e.2.2.1⟩⟩

/-- Core 0 at level T in bare mode: the store buffer holds a FIX, a cell, a vector of two and a `FWD` to it. -/
def loadSt : State := holding [(0x100, fixW 9), (0x200, fixW 20), (0x201, fixW 21), (0x300, hdrW 2 1), (0x301, fixW 31),
    (0x302, fixW 32), (0x400, fwdW 0x300)]
  (base 2 [(1, fixW 0x110), (2, consP 0x200), (3, vecP 0x300 0), (4, fixW 1), (5, vecP 0x400 0), (6, fixW 0)])

theorem test_witness_loads :
    let s := loadSt
    let x := s.begun 0
    s.runs 0 ∧ (1 ≤ (s.core 0).level ∧ (s.reg 0 1).isFix = true ∧ (s.reg 0 1).sec = false ∧
      ((s.reg 0 1).pay + BitVec.ofInt 64 (0x1FF0 : BitVec 13).toInt).toNat = 0x100) ∧
    (x.finds 0 0x100 bareEnt 0x100 (fixW 9) x ∧ x.takes 0 0x100 bareEnt (fixW 9) ∧ x.watchHit 0 0x100 false = none) ∧
    (x.reachesCell 0 (s.reg 0 2) 0 0x200 x ∧ x.finds 0 0x200 bareEnt 0x200 (fixW 20) x ∧ x.takes 0 0x200 bareEnt (fixW 20)) ∧
    (x.reachesCell 0 (s.reg 0 2) 1 0x201 x ∧ x.finds 0 0x201 bareEnt 0x201 (fixW 21) x ∧ x.takes 0 0x201 bareEnt (fixW 21)) ∧
    (x.reachesObj 0 (s.reg 0 3) 0x300 (hdrW 2 1) x ∧ x.reachesObj 0 (s.reg 0 5) 0x300 (hdrW 2 1) x ∧
      x.finds 0 0x302 bareEnt 0x302 (fixW 32) x ∧ x.takes 0 0x302 bareEnt (fixW 32) ∧ x.finds 0 0x300 bareEnt 0x300 (hdrW 2 1) x ∧
      x.takes 0 0x300 bareEnt (hdrW 2 1)) ∧
    ((2 : BitVec 13).toInt ≤ hdrLen (hdrW 2 1).pay ∧ (s.reg 0 4).isFix = true ∧ (s.reg 0 4).sec = false ∧
      (s.reg 0 4).pay.toNat + 1 = hdrLen (hdrW 2 1).pay) ∧
    (nexts (exec (.ld 0 7 1 0x1FF0) s) (s.wroteIn x 0 7 (fixW 9)) && nexts (exec (.ldr 0 7 1 0x1FF0) s) (s.wroteIn x 0 7 (fixW 9)) &&
      nexts (exec (.ld 0 7 2 0) s) (s.wroteIn x 0 7 (fixW 20)) && nexts (exec (.ld 0 7 2 1) s) (s.wroteIn x 0 7 (fixW 21)) &&
      nexts (exec (.car 0 7 2) s) (s.wroteIn x 0 7 (fixW 20)) && nexts (exec (.cdr 0 7 2) s) (s.wroteIn x 0 7 (fixW 21)) &&
      nexts (exec (.ld 0 7 3 2) s) (s.wroteIn x 0 7 (fixW 32)) && nexts (exec (.ld 0 7 5 0) s) (s.wroteIn x 0 7 (hdrW 2 1)) &&
      nexts (exec (.vref 0 7 3 4) s) (s.wroteIn x 0 7 (fixW 32)) && nexts (exec (.vref 0 7 5 6) s) (s.wroteIn x 0 7 (fixW 31))) = true := by
  refine ⟨runs_of (by decide +kernel), by decide +kernel, ⟨finds_of (by decide +kernel), takes_of (by decide +kernel), by decide +kernel⟩,
    ⟨cell_of (w := fixW 20) (by decide +kernel) (finds_of (by decide +kernel)), finds_of (by decide +kernel), takes_of (by decide +kernel)⟩,
    ⟨cell_of (w := fixW 21) (by decide +kernel) (finds_of (by decide +kernel)), finds_of (by decide +kernel), takes_of (by decide +kernel)⟩,
    ⟨obj_of (by decide +kernel) (finds_of (by decide +kernel)), obj_fwd_of (o := 0x400) (w := fwdW 0x300) (by decide +kernel) (by decide +kernel)
      (finds_of (by decide +kernel)) (finds_of (by decide +kernel)), finds_of (by decide +kernel), takes_of (by decide +kernel),
      finds_of (by decide +kernel), takes_of (by decide +kernel)⟩, by decide +kernel, by decide +kernel⟩

/-- Core 0 at level T in bare mode: a BIG of 2^64 at 0x300, region 0 from 0x1000. -/
def bigSt : State := ((holding [(0x300, hdrW 2 5), (0x301, Word.raw 0), (0x302, Word.raw 1)]
  (base 2 [(1, fixW 9223372036854775807), (2, fixW 1), (3, mkWord 0x13 false 0 0x300), (4, flo 0x3FF8000000000000)])).setFilled 0 0 true).modCore 0 fun k =>
    (k.setSpv 0x018 0x1000).setSpv 0x019 0x1010

theorem test_witness_bignums :
    let s := bigSt
    let x := s.begun 0
    let h := mkWord 8 false 0 (mkHdr 2 (0x9E3779B9 % 2 ^ 32 / 2 ^ 12) 5 false 0 false)
    let a := (allocOp 0 0 4 h).run.run x
    let p := (putWhole 0 0x1000 [h, Word.raw (BitVec.ofInt 64 9223372036854775808), Word.raw 0, Word.empty]).run.run a.2
    let g := (genericArgs 0 (s.reg 0 3) (s.reg 0 2) false).run.run x
    let r := (bigResult 0 5 18446744073709551617 3).run.run g.2
    s.runs 0 ∧ ((s.core 0).pbit 5 = false ∧ (s.core 0).ucStopped = false ∧ ((a.2.core 0).spv 0x019).getLsbD 0 = false ∧ okB a = true ∧ okB p = true ∧ okB r = true ∧
      (s.reg 0 3).isBig = true ∧ (s.reg 0 4).isFlo = true ∧ isNumber (s.reg 0 3) = true ∧ (s.reg 0 3).malformed = false) ∧
    ((match a.1 with | .ok q => q.1 == 0x1000 | _ => false) && (match g.1 with | .ok ((.int v, _), .int w, _) => v == 18446744073709551616 && w == 1 | _ => false) &&
      nextHas (exec (.add 0 6 1 2) s) (fun t => (t.core 0).get 6 == mkWord 0x13 false 0 0x1000 && (t.core 0).spv 0x018 == 0x1004 && (t.core 0).spv 0x004 == 1) &&
      nextHas (exec (.add 0 6 3 2) s) (fun t => (t.core 0).get 6 == mkWord 0x13 false 0 0x1000 && (List.range 4).map (fun i => (t.l2Line 0 0x200).word i) == [h, Word.raw 1, Word.raw 1, Word.empty]) &&
      nextHas (exec (.cmp 0 .gt 6 3 1) s) (fun t => (t.core 0).get 6 == fixW 1) && nextHas (exec (.mul 0 6 4 2) s) (fun t => (t.core 0).get 6 == flo 0x3FF8000000000000)) = true :=
  ⟨runs_of (by decide +kernel), by decide +kernel, by decide +kernel⟩

/-- As `loadSt`, with the words to be stored and fewer words in the buffer. -/
def storeSt : State := holding [(0x200, fixW 20), (0x201, fixW 21), (0x300, hdrW 2 1)]
  (base 2 [(1, fixW 0x110), (2, consP 0x200), (3, vecP 0x300 0), (4, fixW 1), (5, fixW 77), (6, fixW 5 true)])
theorem buffered_of {s : State} {va : Nat} {w : Word} (h : (s.core 0).sb.length < 8) : s.buffered 0 va w (stored s va w) :=
  ⟨s, .inl ⟨h, rfl⟩, rfl⟩
theorem maps_of {s t : State} {c l va pa : Nat} {a : Access} {e : TlbEnt} (h : decide (s.translate c l a va = (.ok e pa, t) ∧
    e.dev = false ∧ t.dataReach (t.build.cellOfCore c) pa = true) = true) : s.maps c l a va e pa t := by
  have h := of_decide_eq_true h
  exact h

theorem test_witness_stores :
    let s := storeSt
    let x := s.begun 0
    (s.runs 0 ∧ s.mayStore 0 (fixW 77) false true ∧ s.mayStore 0 (fixW 77) true true ∧ s.mayStore 0 (fixW 77) false false) ∧
    (x.stores 0 0x100 (fixW 77) none (stored x 0x100 (fixW 77)) ∧ x.reachesCell 0 (s.reg 0 2) 0 0x200 x ∧
      x.stores 0 0x200 (fixW 77) none (stored x 0x200 (fixW 77)) ∧ x.reachesCell 0 (s.reg 0 2) 1 0x201 x ∧
      x.stores 0 0x201 (fixW 77) none (stored x 0x201 (fixW 77)) ∧ x.reachesObj 0 (s.reg 0 3) 0x300 (hdrW 2 1) x ∧
      x.stores 0 0x302 (fixW 77) (some (hdrW 2 1).pay) (stored x 0x302 (fixW 77)) ∧ x.stores 0 0x300 (fixW 77) none (stored x 0x300 (fixW 77))) ∧
    (x.maps 0 (x.core 0).level .store 0x100 bareEnt 0x100 x ∧ x.watchHit 0 0x100 true = none ∧ x.buffered 0 0x100 (Word.raw 3) (stored x 0x100 (Word.raw 3))) ∧
    ((s.reg 0 1).isFix = true ∧ (s.reg 0 1).sec = false ∧ ((s.reg 0 1).pay + BitVec.ofInt 64 (0x1FF0 : BitVec 13).toInt).toNat = 0x100 ∧
      (s.reg 0 4).pay.toNat + 1 = hdrLen (hdrW 2 1).pay ∧ (2 : BitVec 13).toInt = hdrLen (hdrW 2 1).pay ∧ 2 ≤ (s.core 0).level) ∧
    (let done := fun va => (stored x va (fixW 77)).retire 0 (s.core 0) .seq
     nexts (exec (.st 0 5 1 0x1FF0) s) (done 0x100) && nexts (exec (.st 0 5 2 0) s) (done 0x200) && nexts (exec (.st 0 5 2 1) s) (done 0x201) &&
      nexts (exec (.setcar 0 2 5) s) (done 0x200) && nexts (exec (.setcdr 0 2 5) s) (done 0x201) && nexts (exec (.st 0 5 3 2) s) (done 0x302) &&
      nexts (exec (.st 0 5 3 0) s) (done 0x300) && nexts (exec (.vset 0 5 3 4) s) (done 0x302) && nexts (exec (.str 0 5 1 0x1FF0) s) (done 0x100)) = true := by
  refine ⟨⟨runs_of (by decide +kernel), mayStore_of (by decide +kernel), mayStore_of (by decide +kernel), mayStore_of (by decide +kernel)⟩,
    ⟨stores_of (by decide +kernel), cell_of (w := fixW 20) (by decide +kernel) (finds_of (by decide +kernel)), stores_of (by decide +kernel),
      cell_of (w := fixW 21) (by decide +kernel) (finds_of (by decide +kernel)), stores_of (by decide +kernel),
      obj_of (by decide +kernel) (finds_of (by decide +kernel)), stores_of (by decide +kernel), stores_of (by decide +kernel)⟩,
    ⟨maps_of (by decide +kernel), by decide +kernel, buffered_of (by decide +kernel)⟩,
    by decide +kernel, by decide +kernel⟩

/-- Core 0 at level T with region 0 from 0x1000 to 0x1002 and region 1 (cleared) from 0x2000 to 0x2004. -/
def allocSt : State := (holding ((List.range 6).map fun i => (0x3000 + i, fixW 0)) (base 2 [(1, fixW 3), (2, chr 65)])).modCore 0 fun k =>
  (((k.setSpv 0x018 0x1000).setSpv 0x019 0x1002).setSpv 0x01A 0x2000).setSpv 0x01B 0x2005

theorem test_witness_allocation :
    let s := allocSt
    let k := s.core 0
    let z := s.modCore 0 fun k => { k.setSpv 0x019 0x1000 with sb := [] }
    let f := (z.setFilled 0 0 true).modCore 0 fun k => k.setSpv 0x019 0x1004
    let hd := mkWord 8 false 0 (mkHdr 3 (0x9E3779B9 % 2 ^ 32 / 2 ^ 12) 1 false 0 false)
    let pw := (putWhole 0 0x1000 (hd :: List.replicate 3 Word.empty)).run.run (f.begun 0)
    (s.runs 0 ∧ z.runs 0 ∧ s.mayStore 0 (fixW 3) true true ∧ s.mayStore 0 (chr 65) false true) ∧
    (2 ≤ k.level ∧ k.bare k.level = true ∧ k.part = none ∧ s.alm.dbg = false ∧ k.sb.length + 2 = 8 ∧
      (∀ b, 0x1000 ≤ b → b < 0x1002 → s.dataReach 0 b = true) ∧ (∀ b, 0x2000 ≤ b → b < 0x2004 → s.dataReach 0 b = true) ∧
      (k.spv 0x01B).getLsbD 0 = true ∧ kindPtr (fld (0x81 : BitVec 13) 5 0) = some 0x11 ∧ fld (0x81 : BitVec 13) 8 7 = 1 ∧
      fld (0x81 : BitVec 13) 12 9 = 0 ∧ kindMinLen 1 ≤ 3 ∧
      ((f.core 0).spv 0x019).getLsbD 0 = false ∧ okB pw = true ∧ f.canIssue 0 = true) ∧
    (nextHas (exec (.cons 0 0 3 1 2) s) (fun t => (t.core 0).get 3 == consP 0x1000 && (t.core 0).spv 0x018 == 0x1002) &&
      nextHas (exec (.alloc 0 3 1 0x81) s) (fun t => (t.core 0).get 3 == vecP 0x2000 0 && (t.core 0).spv 0x01A == 0x2004 &&
        (t.core 0).spv 0x004 == 1) &&
      nextHas (exec (.alloc 0 3 1 1) f) (fun t => (t.core 0).get 3 == vecP 0x1000 0 && (t.core 0).spv 0x018 == 0x1004 && (List.range 4).map (fun i => (t.l2Line 0 0x200).word i) ==
        [hd, Word.empty, Word.empty, Word.empty]) && nexts (exec (.cons 0 0 3 1 2) z) ((z.begun 0).trapHere 0 7 2 2)) = true :=
  ⟨⟨runs_of (by decide +kernel), runs_of (by decide +kernel), mayStore_of (by decide +kernel), mayStore_of (by decide +kernel)⟩,
    ⟨by decide +kernel, by decide +kernel, by decide +kernel, by decide +kernel, by decide +kernel,
      fun b h1 h2 => by have : b = 0x1000 ∨ b = 0x1001 := by omega
                        rcases this with rfl | rfl <;> decide +kernel,
      fun b h1 h2 => by have : b = 0x2000 ∨ b = 0x2001 ∨ b = 0x2002 ∨ b = 0x2003 := by omega
                        rcases this with rfl | rfl | rfl | rfl <;> decide +kernel, by decide +kernel⟩, by decide +kernel⟩

/-! ### Witnesses: control, windows, gates and traps -/

theorem test_witness_branches :
    let s := (base 0 [(1, fixW 0), (2, fixW (-1)), (3, mkWord 3 false 0 2)]).modCore 0 fun k => { k with pc := pcPlus 0 3 }
    let t := s.modCore 0 fun k => { k with pc := 0 }
    (s.transfers 0 ∧ t.transfers 0) ∧ ((s.reg 0 1).isWordOp = true ∧ (s.reg 0 1).sec = false ∧ (s.reg 0 2).isFix = true ∧
      (s.reg 0 3).isEmpty = false ∧ (s.reg 0 1).ty = (1 : BitVec 5).toNat) ∧
    (nexts (exec (.br 0 0xFFFFFFF) t) (t.ends 0 id (.jump (pcPlus 0 (-1)) true)) && nexts (exec (.beqz 0 1 0x20000) s) (s.ends 0 id (.jump (pcPlus (s.core 0).pc (-131072)) true)) &&
      nexts (exec (.bnez 0 1 5) s) (s.ends 0 id .seq) && nexts (exec (.bltz 0 2 1) s) (s.ends 0 id (.jump (pcPlus 0 4) true)) &&
      nexts (exec (.bgez 0 1 1) s) (s.ends 0 id (.jump (pcPlus 0 4) true)) && nexts (exec (.bgtz 0 1 1) s) (s.ends 0 id .seq) &&
      nexts (exec (.blez 0 1 1) s) (s.ends 0 id (.jump (pcPlus 0 4) true)) && nexts (exec (.bf 0 3 1) s) (s.ends 0 id (.jump (pcPlus 0 4) true)) &&
      nexts (exec (.bt 0 3 1) s) (s.ends 0 id .seq) && nexts (exec (.btype 0 1 1 1) s) (s.ends 0 id (.jump (pcPlus 0 4) true)) &&
      nexts (exec (.btype 0 1 7 1) s) (s.ends 0 id .seq)) = true :=
  ⟨⟨transfers_of (by decide +kernel), transfers_of (by decide +kernel)⟩, by decide +kernel, by decide +kernel⟩

theorem test_witness_loop :
    let s := base 0 [(1, fixW 0), (2, fixW 4294967295), (3, fixW 4294967296), (4, chr 1), (5, fixW 1 true)]
    let trap := fun (s : State) (cause info : Nat) => (s.begun 0).trapHere 0 cause (BitVec.ofNat 64 info) 2
    let active := (s.modCore 0 fun k => ((k.setSp 0x012 (Word.link 0 (pcPlus 0 9))).setSp 0x011 (Word.link 0 (pcPlus 0 1))).setSpv 0x010 2)
    let atEnd := active.modCore 0 fun k => { k with pc := pcPlus 0 9 }
    let last := atEnd.modCore 0 fun k => k.setSpv 0x010 1
    (s.transfers 0 ∧ active.transfers 0) ∧ ((1 : BitVec 18).toInt = 1 ∧ (0 : BitVec 18).toInt < 1 ∧ fld ((s.core 0).spv 0x010) 31 0 = 0 ∧
      fld ((active.core 0).spv 0x010) 31 0 ≠ 0 ∧ (s.reg 0 4).isFix = false ∧ (s.reg 0 5).sec = true ∧
      (atEnd.core 0).pc = linkPc ((atEnd.core 0).spv 0x012) ∧ fld ((atEnd.core 0).spv 0x010) 35 32 = (atEnd.core 0).cwp ∧
      1 < fld ((atEnd.core 0).spv 0x010) 31 0 ∧ fld ((last.core 0).spv 0x010) 31 0 = 1 ∧ (atEnd.core 0).pbit 4 = false) ∧
    (nextHas (exec (.loop 0 1 1) s) (fun t => (t.core 0).pc == pcPlus 0 2) && nextHas (exec (.loop 0 2 1) s) (fun t =>
        (t.core 0).pc == pcPlus 0 1 && (t.core 0).spv 0x010 == 0xFFFFFFFF) &&
      nexts (exec (.loop 0 3 1) s) (trap s 4 0) && nexts (exec (.loop 0 4 1) s) (trap s 3 0x10) && nexts (exec (.loop 0 5 1) s) (trap s 5 256) &&
      nexts (exec (.loop 0 2 0) s) (trap s 1 0) && nexts (exec (.loop 0 2 1) active) (trap active 1 0) &&
      ((atEnd.retire 0 (atEnd.core 0) .seq).core 0).pc == pcPlus 0 1 && ((atEnd.retire 0 (atEnd.core 0) .seq).core 0).spv 0x010 == 1 &&
      ((last.retire 0 (last.core 0) .seq).core 0).pc == pcPlus 0 10 && ((last.retire 0 (last.core 0) .seq).core 0).spv 0x010 == 0) = true :=
  ⟨⟨transfers_of (by decide +kernel), transfers_of (by decide +kernel)⟩, by decide +kernel, by decide +kernel⟩

def codeP (a : Nat) : Word := mkWord 0x15 false 0 (BitVec.ofNat 64 a)
def cloP (a : Nat) : Word := mkWord 0x14 false 0 (BitVec.ofNat 64 a)
/-- Core 0 at level T: a CODE at 0x300 with its entry, a CLO at 0x400 over it, in7 a LINK, window 11 resident. -/
def callSt : State := (holding [(0x300, hdrW 2 4), (0x301, Word.link 2 77), (0x400, hdrW 1 3), (0x401, codeP 0x300)]
  (base 2 [(1, Word.link 2 88), (2, codeP 0x300), (3, cloP 0x400), (15, Word.link 2 99)])).modCore 0 fun k =>
    { k.setWindow 11 ⟨2, true, false⟩ with pc := pcPlus 0 9 }

theorem test_witness_calls :
    let s := callSt
    let x := s.begun 0
    let z := s.modCore 0 fun k => { k with twCur := 2, twUse := 4 }
    let enter := fun (k : Core) => (k.put 31 (Word.link k.level (pcPlus k.pc 1))).enterWindow k.level
    (s.transfers 0 ∧ z.transfers 0 ∧ (s.core 0).hasRoom ∧ (x.core 0).hasRoom ∧ (s.core 0).twCur = 0 ∧ (z.core 0).twCur ≠ 0) ∧
    (x.entry 0 (s.reg 0 1) 88 x ∧ x.entry 0 (s.reg 0 2) 77 x ∧ x.entry 0 (s.reg 0 3) 77 x) ∧
    ((s.reg 0 15).isLink = true ∧ (s.reg 0 15).sub = (s.core 0).level ∧ ((s.core 0).window ((s.core 0).cwp + 11)).res = true) ∧
    (nexts (exec (.jmpr 0 1) s) (x.retire 0 (s.core 0) (.jump 88 true)) && nexts (exec (.jmpr 0 3) s) (x.retire 0 (s.core 0) (.jump 77 true)) &&
      nexts (exec (.call 0 0xFFFFFFF) s) (s.ends 0 enter (.jump (pcPlus 0 8) false)) &&
      nexts (exec (.callr 0 2) s) ((x.modCore 0 enter).retire 0 (s.core 0) (.jump 77 false)) &&
      nexts (exec (.ret 0) s) (s.ends 0 (fun k => k.leaveWindow 11) (.jump 99 true)) &&
      nexts (exec (.ret 0) z) ((z.begun 0).trapHere 0 1 0 2) && nexts (exec (.call 0 1) z) ((z.begun 0).trapHere 0 1 0 2) &&
      nexts (exec (.callr 0 1) z) ((z.begun 0).trapHere 0 1 0 2)) = true := by
  have f0 : (callSt.begun 0).finds 0 0x300 bareEnt 0x300 (hdrW 2 4) (callSt.begun 0) := finds_of (by decide +kernel)
  have f1 : (callSt.begun 0).finds 0 0x301 bareEnt 0x301 (Word.link 2 77) (callSt.begun 0) := finds_of (by decide +kernel)
  have f2 : (callSt.begun 0).finds 0 0x400 bareEnt 0x400 (hdrW 1 3) (callSt.begun 0) := finds_of (by decide +kernel)
  have f3 : (callSt.begun 0).finds 0 0x401 bareEnt 0x401 (codeP 0x300) (callSt.begun 0) := finds_of (by decide +kernel)
  have t1 : (callSt.begun 0).takes 0 0x301 bareEnt (Word.link 2 77) := takes_of (by decide +kernel)
  have t3 : (callSt.begun 0).takes 0 0x401 bareEnt (codeP 0x300) := takes_of (by decide +kernel)
  have l1 : (Word.link 2 77).isLink = true ∧ (Word.link 2 77).sub = ((callSt.begun 0).core 0).level ∧
    (77 : BitVec 55) = (Word.link 2 77).pay.setWidth 55 := by decide +kernel
  refine ⟨⟨transfers_of (by decide +kernel), transfers_of (by decide +kernel), room_of (by decide +kernel), room_of (by decide +kernel), by decide +kernel⟩,
    ⟨⟨by decide +kernel, .inl ⟨by decide +kernel, rfl⟩⟩,
     ⟨by decide +kernel, .inr (.inl ⟨by decide +kernel, Word.link 2 77, ⟨0x300, hdrW 2 4, _, bareEnt, 0x301, obj_of (by decide +kernel) f0, by decide +kernel, f1, t1⟩, l1⟩)⟩,
     ⟨by decide +kernel, .inr (.inr ⟨by decide +kernel, codeP 0x300, callSt.begun 0, Word.link 2 77,
       ⟨0x400, hdrW 1 3, _, bareEnt, 0x401, obj_of (by decide +kernel) f2, by decide +kernel, f3, t3⟩, by decide +kernel,
       ⟨0x300, hdrW 2 4, _, bareEnt, 0x301, obj_of (by decide +kernel) f0, by decide +kernel, f1, t1⟩, l1⟩)⟩⟩, by decide +kernel, by decide +kernel⟩

/-- Gate 1 of two: to level S with STACK, DCL and six argument classes, called from level A. -/
def gateSt : State := (holding [(0x1004, ⟨0x60, 0x00E9818160402001⟩), (0x1005, Word.link 1 55), (0x1006, fixW 7), (0x1007, fixW 0)]
  (base 0 [(24, fixW 1), (25, vecP 8 0), (26, chr 5), (27, fixW 3), (28, fixW 0), (29, fixW 0)])).modCore 0 fun k =>
    (k.setSpv 0x00C 0x1000).setSpv 0x00D 2

theorem test_witness_gate :
    let s := gateSt
    let x := s.begun 0
    let w : Fin 4 → Word := fun i => [⟨0x60, 0x00E9818160402001⟩, Word.link 1 55, fixW 7, fixW 0].getD i.val Word.empty
    s.transfers 0 ∧ (s.core 0).twCur = 0 ∧ (s.core 0).hasRoom ∧
    (∀ i : Fin 4, x.findsAt 0 2 (((s.core 0).spv 0x00C).toNat % 2 ^ 54 + 4 * 1 + i.val) bareEnt (0x1004 + i.val) (w i) x ∧
      (w i).isPoison = false ∧ bareEnt.x = false) ∧
    ((1 : BitVec 18).toNat < ((s.core 0).spv 0x00D).toNat ∧ ((s.core 0).spv 0x00D).toNat ≤ (2 : BitVec 18).toNat ∧ (w 0).tag = 0x60 ∧
      fld (w 0).pay 63 58 = 0 ∧ (w 0).pay.getLsbD 50 = false ∧ fld (w 0).pay 49 48 = 1 ∧ (s.core 0).level ≤ 1 ∧ fld (w 0).pay 57 56 ≤ (s.core 0).level ∧
      (w 1).isLink = true ∧ (w 1).sub = 1 ∧ fld (w 0).pay 54 52 = 6 ∧ (w 2).tag = 0x08 ∧ w 3 = Word.nat 0 ∧ (∀ i : Fin 4, (w i).malformed = false)) ∧
    (∀ i < 6, let a := (x.core 0).get (BitVec.ofNat 5 (24 + i))
      let b := fld (w 0).pay (8 * i + 7) (8 * i)
      (128 ≤ b → a.sec = false) ∧ (b / 32 % 4 = 0 → a.ty = b % 32) ∧ (b / 32 % 4 = 1 → 0x10 ≤ a.ty ∧ a.ty ≤ 0x18) ∧
      (b / 32 % 4 = 2 → a.ty ∈ [1, 2, 3, 4]) ∧ (b / 32 % 4 = 3 → a.ty ≠ 0)) ∧
    (nextHas (exec (.gate 0 1) s) (fun t => (t.core 0).level == 1 && (t.core 0).pc == 55 && (t.core 0).pbit 6 && (t.core 0).pbit 7) &&
      nexts (exec (.gate 0 2) s) (x.trapHere 0 0x0A (BitVec.ofNat 64 (2 * 2 ^ 16 + 1)) 2)) = true := by
  refine ⟨transfers_of (by decide +kernel), by decide +kernel, room_of (by decide +kernel), ?_, by decide +kernel, by decide +kernel, by decide +kernel⟩
  intro i
  refine ⟨⟨gateSt.begun 0, ?_, ?_⟩, ?_, rfl⟩
  · match i with
    | 0 => exact maps_of (by decide +kernel)
    | 1 => exact maps_of (by decide +kernel)
    | 2 => exact maps_of (by decide +kernel)
    | 3 => exact maps_of (by decide +kernel)
  · revert i; decide +kernel
  · revert i; decide +kernel

theorem test_witness_gret :
    let s := (base 1 [(15, Word.link 1 44)]).modCore 0 fun k => k.setWindow 11 ⟨1, true, false⟩
    let b := base 1 [(15, Word.link 2 44)]
    let f := (holding ((List.range 16).map fun i => (0x2000 + i, fixW (Int.ofNat i))) (base 2 [(15, Word.link 2 44)])).modCore 0 fun k => k.setSpillPtr 2 0x2000
    let fill := ((fillWindow 0 11 2).run.run (f.begun 0))
    (s.transfers 0 ∧ b.transfers 0 ∧ f.transfers 0) ∧ (1 ≤ (s.core 0).level ∧ ((s.reg 0 15).isLink = true ∧ (s.reg 0 15).sub ≤ (s.core 0).level) ∧
      ((s.core 0).window 11).res = true ∧ ¬ ((b.reg 0 15).isLink = true ∧ (b.reg 0 15).sub ≤ (b.core 0).level) ∧ ((f.core 0).window 11).res = false) ∧
    fill = (.ok ⟨⟩, fill.2) ∧
    (nextHas (exec (.gret 0) s) (fun t => (t.core 0).cwp == 11 && (t.core 0).pc == 44) && nexts (exec (.gret 0) f)
        ((fill.2.modCore 0 fun k => ((k.leaveWindow 11).setLevel 2).setPbit 7 false).retire 0 (f.core 0) (.shadow 44)) &&
      nexts (exec (.gret 0) b) ((b.begun 0).trapHere 0 3 (BitVec.ofNat 64 (3 * 256 + (b.reg 0 15).tag.toNat)) 2)) = true :=
  ⟨⟨transfers_of (by decide +kernel), transfers_of (by decide +kernel), transfers_of (by decide +kernel)⟩, by decide +kernel, ok_of (by decide +kernel), by decide +kernel⟩

theorem test_witness_tret :
    let s := (base 2).modCore 0 fun k => { ((k.setSp 0x028 (Word.link 0 44)).setSpv 0x029 0x0B20).setSpv 0x02C 3 with twRel := 4, twUse := 4 }
    let s := s.modCore 0 fun k => k.setWindow 11 ⟨0, true, false⟩
    let a := s.modCore 0 fun k => k.setSpv 0x029 3
    let b := s.modCore 0 fun k => k.setSp 0x028 (Word.link 1 44)
    let w := s.modCore 0 fun k => { k.setSpv 0x029 0x5000 with twCur := 2 }
    (s.transfers 0 ∧ a.transfers 0 ∧ b.transfers 0 ∧ w.transfers 0) ∧ (2 < fld ((a.core 0).spv 0x029) 1 0 ∧
      ¬ (((b.core 0).sp 0x028).isLink = true ∧ ((b.core 0).sp 0x028).sub = fld ((b.core 0).spv 0x029) 1 0) ∧
      ((s.core 0).sp 0x028).isLink = true ∧ ((s.core 0).sp 0x028).sub = fld ((s.core 0).spv 0x029) 1 0 ∧
      ((s.core 0).window (fld ((s.core 0).spv 0x029) 11 8)).res = true ∧ ((w.core 0).spv 0x029).getLsbD 14 = true ∧
      (s.core 0).twRel.getLsbD 2 = true) ∧
    (nextHas (exec (.tret 0) s) (fun t => let q := t.core 0
        q.pc == 44 && q.level == 0 && q.spv 0x010 == 3 && q.cwp == 11 && q.pbit 5 && q.pbit 6 && !q.twUse.getLsbD 2) &&
      nextHas (exec (.tret 0) w) (fun t => let q := t.core 0; q.pc == 44 && q.cwp == 0 && q.twCur == 1 && !q.twUse.getLsbD 2 && q.twUse.getLsbD 1) &&
      nexts (exec (.tret 0) a) ((a.begun 0).trapHere 0 0x0B 0 2) &&
      nexts (exec (.tret 0) b) ((b.begun 0).trapHere 0 3 (BitVec.ofNat 64 (3 * 256 + ((b.core 0).sp 0x028).tag.toNat)) 2)) = true :=
  ⟨⟨transfers_of (by decide +kernel), transfers_of (by decide +kernel), transfers_of (by decide +kernel), transfers_of (by decide +kernel)⟩,
    by decide +kernel, by decide +kernel⟩

theorem test_witness_trap_entry :
    let s := (base 0).modCore 0 fun k => { ((k.setSpv 0x039 0x1000).setSpv 0x053 (BitVec.ofNat 64 (2 ^ 9))).setSpv 0x010 2 with pc := pcPlus 0 3 }
    (s.canIssue 0 = true ∧ (s.core 0).twCur = 0 ∧ s.ibpHit 0 = none ∧ (s.core 0).entering = false ∧ s.trapTarget 0 0x38 2 = 2 ∧
      s.trapTarget 0 9 2 = 1 ∧ (0x38 : BitVec 6).toNat = 0x38 ∧ (s.core 0).stepPend = false ∧ fld (0xD00 : BitVec 64) 15 8 = 0x0D) ∧ (s.core 0).hasRoom ∧
    (nexts (exec (.brk 0) s) ((s.begun 0).trapHere 0 0x38 0 2) && nextHas (exec (.trapEntry 0 0x38 5) s) (fun t => let q := t.core 0
      q.pc == BitVec.ofNat 55 (0x1000 + 4 * 0x38) && q.level == 2 && q.sp 0x028 == Word.link 0 (pcPlus 0 3) && q.spv 0x02C == 2 &&
        q.spv 0x010 == 0 && q.cwp == 1 && q.sp 0x02B == Word.fix 5) && nextHas (exec (.trapEntry 0 9 0) s) (fun t => (t.core 0).level == 1) &&
      nextHas (exec (.trapEntry 0 5 0xD00) s) (fun t => (t.rd .cluCserr 0).getLsbD 29 && (t.core 0).level == 2)) = true :=
  ⟨by decide +kernel, room_of (by decide +kernel), by decide +kernel⟩

theorem test_witness_trap_windows :
    let s := base 2
    let u := s.modCore 0 fun k => { k with twCur := 2, twUse := 4 }
    let m := base 3
    let e := s.modCore 0 fun k => { k with entering := true }
    let lk := fun (t : State) => fld (t.rd .cluCoreStat 0 0) 27 24
    (s.canIssue 0 = true ∧ u.canIssue 0 = true ∧ m.canIssue 0 = true ∧ e.canIssue 0 = true ∧ s.trapTarget 0 0x20 2 = 2 ∧ m.trapTarget 0 0x21 2 = 3 ∧
      (u.core 0).twCur ≠ 0 ∧ (u.core 0).twUse.getLsbD 2 = true ∧ (s.core 0).twUse.getLsbD 2 = false ∧ (e.core 0).entering = true) ∧
    (((s.trapHere 0 0x20 0 2).core 0).twCur = 2 ∧ ((u.trapHere 0 3 0 2).core 0).locked = true ∧ lk (u.trapHere 0 3 0 2) = 2 ∧
      lk (m.trapHere 0 0x21 0 2) = 3) ∧
    nextHas (exec (.trapEntry 0 0x10 0) e) (fun t => (t.core 0).locked && lk t == 1 && !t.canIssue 0) = true :=
  ⟨by decide +kernel, by decide +kernel, by decide +kernel⟩

theorem test_witness_interrupts :
    let s := base 2
    let p := (base 1).modCore 0 fun k => { k with tmrPend := true }
    let q := (base 1).modCore 0 fun k => { k.setSpv 0x051 0xFF00000000000000 with swInt := 0x81 }
    let h := p.modCore 0 fun k => k.setPbit 6 true
    let f := (base 2).modCore 0 fun k => (k.setSpillPtr 2 0x2010).setWindow 2 ⟨2, true, false⟩
    let t1 := s.modCore 0 fun k => k.setSpv 0x054 1
    let w := p.modCore 0 fun k => { k with wait := .memory }
    let j := p.modCore 0 fun k => { k with wait := .job }
    let st := s.modCore 0 fun k => { k with stepPend := true }
    let uc := p.modCore 0 fun k => { k.setPbit 3 true with ucResume := 9 }
    ((st.core 0).waits = false ∧ (st.core 0).ucStopped = false ∧ st.canIssue 0 = true ∧ (uc.core 0).ucStopped = true ∧ (p.core 0).ucStopped = false ∧ (p.core 0).waits = false ∧ (q.core 0).waits = false ∧ (w.core 0).waits = false ∧ j.canIssue 0 = true ∧ (j.core 0).waits = true ∧
      s.canIssue 0 = true ∧ p.canIssue 0 = true ∧ (h.core 0).pbit 6 = true ∧ (p.core 0).tmrPend = true ∧ (p.core 0).level < 2 ∧
      (q.ipend 0).getLsbD 56 = true ∧ ((q.core 0).spv 0x051).getLsbD 56 = true ∧ (∀ j < 56, (q.ipend 0).getLsbD j = false) ∧
      (∀ i < 64, (s.ipend 0).getLsbD i = false) ∧ ((f.core 0).window 2).res = true ∧ ((f.core 0).window 1).res = false ∧ (t1.core 0).spv 0x054 = 1) ∧
    (nexts (exec (.interrupt 0) st) (st.stepTrap 0) && nexts (exec (.interrupt 0) uc) uc && nexts (exec (.interrupt 0) h) h && nexts (exec (.interrupt 0) j) j && nexts (exec (.interrupt 0) s) s && nextHas (exec (.interrupt 0) p) (fun t =>
        !(t.core 0).tmrPend && (t.core 0).level == 2 && (t.core 0).sp 0x02A == Word.nat 0x31) &&
      nextHas (exec (.interrupt 0) q) (fun t => (t.core 0).sp 0x02A == Word.nat 0x32 && (t.core 0).sp 0x02B == Word.nat 56) &&
      nextHas (exec (.backgroundSpill 0) f) (fun t => t == ((spillWindow 0 2).run.run f).2) &&
      nextHas (exec (.timerExpiry 0) t1) (fun t => (t.core 0).tmrPend && (t.core 0).spv 0x054 == 0)) = true :=
  ⟨by decide +kernel, by decide +kernel⟩

/-! ### Witnesses: ranges, save areas, special registers, requests, collection -/

/-- Pairs r2 (source), r4 (destination) and count r6, FIX bases; r8 and r9 a vector with index 1; r10 a type mask. -/
def rangeSt (n : Int) : State := holding [(0x100, fixW 50), (0x300, hdrW 2 1), (0x302, fixW 52)]
  (base 2 [(2, fixW 0x100), (3, fixW 0), (4, fixW 0x180), (5, fixW 0), (6, fixW n), (8, vecP 0x300 0), (9, fixW 1), (10, fixW 2), (11, fixW 0)])

theorem test_witness_ranges_of_count_0 :
    let s := rangeSt 0
    let x := s.begun 0
    s.runs 0 ∧ ((s.reg 0 3).isFix = true ∧ (s.reg 0 3).sec = false ∧ (s.reg 0 2).sec = false ∧ 1 ≤ (s.core 0).level ∧ (s.reg 0 6).pay = 0 ∧
      (2 : Reg).toNat % 2 = 0 ∧ (10 : Reg).toNat % 2 = 0) ∧
    (x.spanObj 0 (s.reg 0 2) none x ∧ x.spanObj 0 (s.reg 0 4) none x ∧ x.spanObj 0 (s.reg 0 8) (some (0x300, (hdrW 2 1).pay)) x) ∧
    (nexts (exec (.blkcopy 0 4 2 6) s) (x.retire 0 (s.core 0) .seq) && nexts (exec (.blkcopyr 0 4 2 6) s) (x.retire 0 (s.core 0) .seq) &&
      nexts (exec (.zrange 0 2 6) s) (x.retire 0 (s.core 0) .seq) && nexts (exec (.zrange 0 8 6) s) (x.retire 0 (s.core 0) .seq) &&
      nexts (exec (.scantag 0 10 8 6) s) ((x.modCore 0 fun k => k.put 10 (fixW (-1))).retire 0 (s.core 0) .seq)) = true :=
  ⟨runs_of (by decide +kernel), by decide +kernel, ⟨.inl ⟨by decide +kernel, rfl, rfl⟩, .inl ⟨by decide +kernel, rfl, rfl⟩,
    .inr (.inr ⟨0x300, hdrW 2 1, obj_of (by decide +kernel) (finds_of (by decide +kernel)), rfl⟩)⟩, by decide +kernel⟩

theorem test_witness_ranges_of_count_1 :
    let s := rangeSt 1
    let x := s.begun 0
    (s.runs 0 ∧ (s.reg 0 6).pay = 1) ∧ (x.spanObj 0 (s.reg 0 2) none x ∧ spanFits (s.reg 0 2) none (s.reg 0 3).pay.toInt 1) ∧
    (x.spanObj 0 (s.reg 0 8) (some (0x300, (hdrW 2 1).pay)) x ∧ spanFits (s.reg 0 8) (some (0x300, (hdrW 2 1).pay)) (s.reg 0 9).pay.toInt 1 ∧
      (s.reg 0 9).pay.toInt + 1 = hdrLen (hdrW 2 1).pay) ∧
    (x.spanAt 0 (s.reg 0 2) none (s.reg 0 3).pay.toInt 0x100 x ∧ x.spanAt 0 (s.reg 0 4) none (s.reg 0 5).pay.toInt 0x180 x ∧
      x.spanAt 0 (s.reg 0 8) (some (0x300, (hdrW 2 1).pay)) (s.reg 0 9).pay.toInt 0x302 x) ∧
    (x.finds 0 0x100 bareEnt 0x100 (fixW 50) x ∧ x.takes 0 0x100 bareEnt (fixW 50) ∧ x.finds 0 0x302 bareEnt 0x302 (fixW 52) x ∧
      x.takes 0 0x302 bareEnt (fixW 52) ∧ x.mayStore 0 (fixW 50) false true ∧ x.stores 0 0x180 (fixW 50) none (stored x 0x180 (fixW 50))) ∧
    (x.maps 0 2 .store 0x180 bareEnt 0x180 x ∧ x.watchHit 0 0x180 true = none ∧ x.buffered 0 0x180 (fixW 50) (stored x 0x180 (fixW 50)) ∧
      x.maps 0 2 .store 0x100 bareEnt 0x100 x ∧ x.buffered 0 0x100 Word.empty (stored x 0x100 Word.empty)) ∧
    (let step := fun (n : Reg) (k : Core) => k.put (n + 1) (Word.fix ((k.get (n + 1)).pay + 1))
     let cnt := fun (k : Core) => k.put 6 (Word.fix ((k.get 6).pay - 1))
     let done := fun (t : State) => t.retire 0 (s.core 0) .seq
     nexts (exec (.blkcopy 0 4 2 6) s) (done ((stored x 0x180 (fixW 50)).modCore 0 fun k => cnt (step 4 (step 2 k)))) &&
      nexts (exec (.blkcopy 0 4 8 6) s) (done ((stored x 0x180 (fixW 52)).modCore 0 fun k => cnt (step 4 (step 8 k)))) &&
      nexts (exec (.blkcopyr 0 4 2 6) s) (done ((stored x 0x180 (fixW 50)).modCore 0 fun k => cnt (step 4 (step 2 k)))) &&
      nexts (exec (.zrange 0 2 6) s) (done ((stored x 0x100 Word.empty).modCore 0 fun k => cnt (step 2 k))) &&
      nexts (exec (.scantag 0 10 2 6) s) (done (x.modCore 0 fun k => (cnt (step 2 k)).put 10 (fixW 0))) &&
      nexts (exec (.scantag 0 11 2 6) s) (done (x.modCore 0 fun k => (cnt (step 2 k)).put 11 (fixW (-1))))) = true := by
  refine ⟨⟨runs_of (by decide +kernel), by decide +kernel⟩, ⟨.inl ⟨by decide +kernel, rfl, rfl⟩, .inl (by decide +kernel)⟩,
    ⟨.inr (.inr ⟨0x300, hdrW 2 1, obj_of (by decide +kernel) (finds_of (by decide +kernel)), rfl⟩), .inr (.inr ⟨by decide +kernel, ?_⟩), by decide +kernel⟩,
    ⟨.inl ⟨by decide +kernel, by decide +kernel, rfl⟩, .inl ⟨by decide +kernel, by decide +kernel, rfl⟩, ⟨by decide +kernel, rfl⟩⟩,
    ⟨finds_of (by decide +kernel), takes_of (by decide +kernel), finds_of (by decide +kernel), takes_of (by decide +kernel), mayStore_of (by decide +kernel), stores_of (by decide +kernel)⟩,
    ⟨maps_of (by decide +kernel), by decide +kernel, buffered_of (by decide +kernel), maps_of (by decide +kernel), buffered_of (by decide +kernel)⟩, by decide +kernel⟩
  show (_ : Int) ≤ (hdrLen (hdrW 2 1).pay : Nat)
  decide +kernel

/-- Core 0 at level T with region 0 of its memory filled. -/
def fullSt (rs : List (Reg × Word)) : State := (base 2 rs).setFilled 0 0 true

theorem test_witness_zline_and_fence :
    let s := fullSt [(1, fixW 0x1000), (2, fixW 0x1001)]
    let x := s.begun 0
    let t := (x.acquireM 0 0x200 true)
    let z := (l2Words 0 0x1000 (List.replicate 8 Word.empty)).run.run t.1
    let d := (holding [(0x1000, fixW 5)] s)
    let e := (holding [(0x1000, fixW 5)] (base 2))
    (s.runs 0 ∧ d.runs 0 ∧ e.runs 0) ∧ ((s.reg 0 1).isFix = true ∧ ((s.reg 0 1).pay + BitVec.ofInt 64 (0 : BitVec 13).toInt).toNat % 8 = 0 ∧
      ((s.reg 0 2).pay + BitVec.ofInt 64 (0 : BitVec 13).toInt).toNat % 8 ≠ 0) ∧
    (x.maps 0 2 .store 0x1000 bareEnt 0x1000 x ∧ x.watchHit 0 0x1000 true = none ∧ drainStores 8 x 0 = (x, true) ∧ (x.scratchAt 0 0x1000).isNone = true ∧
      (x.cell 0).l2off = false ∧ x.acquireM 0 0x200 true = (t.1, true) ∧ z = (.ok ⟨⟩, z.2)) ∧
    ((s.core 0).sb = [] ∧ (s.core 0).atomics = [] ∧ ((d.begun 0).drain 0).2 = true ∧ ((e.begun 0).drain 0).2 = false) ∧
    (nexts (exec (.zline 0 1 0) s) (z.2.retire 0 (s.core 0) .seq) && nexts (exec (.zline 0 2 0) s) (x.trapHere 0 4 0 2) &&
      nexts (exec (.fence 0) s) (x.retire 0 (s.core 0) .seq) && nexts (exec (.fence 0) d) (((d.begun 0).drain 0).1.retire 0 (d.core 0) .seq) &&
      nexts (exec (.fence 0) e) (((e.begun 0).drain 0).1.modCore 0 fun k => { k with wait := .memory })) = true :=
  ⟨⟨runs_of (by decide +kernel), runs_of (by decide +kernel), runs_of (by decide +kernel)⟩, by decide +kernel,
    ⟨maps_of (by decide +kernel), by decide +kernel, by decide +kernel, by decide +kernel, by decide +kernel, by decide +kernel, ok_of (by decide +kernel)⟩,
    by decide +kernel, by decide +kernel⟩

theorem test_witness_save_areas :
    let s := (fullSt [(1, fixW 0x1000)]).modCore 0 fun k => k.setSpv 0x003 0xF
    let x := s.begun 0
    let q := s.core 0
    let head := fun (kind held : Nat) => [(0, Word.link 2 ((q.saveHead 2).setWidth 55)), (1, Word.nat (held + kind * 16))]
    let up := (recStore 0 0x1000 (head 1 5 ++ q.groupG ++ q.groupL)).run.run x
    let lo := (recStore 0 0x1000 (head 2 2 ++ q.groupW)).run.run x
    let area := fun (m : Nat) => (holding ([(0x2000, Word.link 2 0x3000), (0x2001, Word.nat m)] ++ (List.range 28).map fun i => (0x2002 + i, fixW (Int.ofNat i)))
      (base 2)).modCore 0 fun k => k.setSaveHead 2 0x2000
    let r := (area 0x15).begun 0
    let ws := (sealWords 0 2 0x22 2 0x2002 25).run.run r
    let ls := (sealWords 0 2 0x22 2 0x201B 3).run.run ws.2
    let r2 := (area 0x22).begun 0
    let gs := (sealWords 0 2 0x22 2 0x2002 24).run.run r2
    (s.runs 0 ∧ (area 0x15).runs 0 ∧ (area 0x22).runs 0) ∧ ((s.core 0).level = 2 ∧ (s.reg 0 1).pay.toNat % 32 = 0 ∧ (s.core 0).saveHead 2 = 0 ∧
      fld (q.spv 0x003) 3 0 = 15 ∧ drainStores 8 x 0 = (x, true)) ∧
    (x.maps 0 2 .store 0x1000 bareEnt 0x1000 x ∧ bareEnt.sl = true ∧ up = (.ok ⟨⟩, up.2) ∧ lo = (.ok ⟨⟩, lo.2)) ∧
    ((r.core 0).saveHead 2 = 0x2000 ∧ r.maps 0 2 .load 0x2000 bareEnt 0x2000 r ∧ okB ((sealWord 0 2 0x22 2 0x2000).run.run r) = true ∧
      okB ((sealWord 0 2 0x22 2 0x2001).run.run r) = true ∧ okB ws = true ∧ okB ls = true ∧ okB gs = true ∧ fld (0x15 : BitVec 64) 5 4 = 1 ∧
      fld (0x15 : BitVec 64) 3 0 = 5 ∧ fld (0x22 : BitVec 64) 5 4 = 2 ∧ fld (0x22 : BitVec 64) 11 8 = (r2.core 0).cwp ∧ fld (0x22 : BitVec 64) 3 0 = 2) ∧
    (nexts (exec (.saveu 0 1) s) ((up.2.modCore 0 fun k => k.setSaveHead 2 0x1000).retire 0 (s.core 0) .seq) &&
      nexts (exec (.savel 0 1) s) ((lo.2.modCore 0 fun k => k.setSaveHead 2 0x1000).retire 0 (s.core 0) .seq) &&
      nexts (exec (.rstu 0) s) (x.trapHere 0 0x22 (BitVec.ofNat 64 (4 * 2 ^ 60)) 2) && nexts (exec (.rstl 0) s) (x.trapHere 0 0x22 (BitVec.ofNat 64 (4 * 2 ^ 60)) 2) &&
      nextHas (exec (.rstu 0) (area 0x15)) (fun t => (t.core 0).saveHead 2 == 0x3000 && (t.core 0).dirtyBits == 5) &&
      nextHas (exec (.rstl 0) (area 0x22)) (fun t => (t.core 0).saveHead 2 == 0x3000 && (t.core 0).dirtyBits == 2)) = true :=
  ⟨⟨runs_of (by decide +kernel), runs_of (by decide +kernel), runs_of (by decide +kernel)⟩, by decide +kernel,
    ⟨maps_of (by decide +kernel), rfl, ok_of (by decide +kernel), ok_of (by decide +kernel)⟩,
    ⟨by decide +kernel, maps_of (by decide +kernel), by decide +kernel⟩, by decide +kernel⟩

/-- RSTU and RSTL of areas that hold no group: without a context record, and from the base copy of strand 0 of partition 5. -/
theorem test_witness_areas_without_groups :
    let area := fun (m : Nat) (s : State) => (holding [(0x2000, Word.link 2 0x3000), (0x2001, Word.nat m)] s).modCore 0 fun k => (k.setSaveHead 2 0x2000).setSpv 0x003 0xF
    let n := fun (m : Nat) => area m (base 2)
    let b := fun (m : Nat) => (area m (base 2)).modCore 0 fun k => { k with entry := 0xF2 }
    let u := fun (s : State) => ((sealWord 0 2 0x22 2 0x2001).run.run (s.begun 0)).2
    let g := (baseLoads 0 2 25).run.run (u (b 0x10))
    let l := (baseLoads 0 27 3).run.run g.2
    let w := (baseLoads 0 34 24).run.run (u (b 0x20))
    ((n 0x10).runs 0 ∧ (n 0x20).runs 0 ∧ (b 0x10).runs 0 ∧ (b 0x20).runs 0) ∧ (((b 0x10).begun 0).maps 0 2 .load 0x2000 bareEnt 0x2000 ((b 0x10).begun 0) ∧
      ((n 0x20).begun 0).maps 0 2 .load 0x2000 bareEnt 0x2000 ((n 0x20).begun 0)) ∧
    ((u (n 0x10)).recordOf 0 = none ∧ (u (b 0x10)).recordOf 0 = some 0 ∧ (u (b 0x20)).recordOf 0 = some 0 ∧ fld (0x10 : B64) 5 4 = 1 ∧ fld (0x20 : B64) 5 4 = 2 ∧
      fld (0x20 : B64) 11 8 = ((u (b 0x20)).core 0).cwp ∧ fld (0x10 : B64) 3 0 = 0 ∧ fld (0x20 : B64) 3 0 = 0 ∧ okB g = true ∧ okB l = true ∧ okB w = true) ∧
    (nextHas (exec (.rstu 0) (n 0x10)) (fun t => (t.core 0).saveHead 2 == 0x3000 && (t.core 0).dirtyBits == 10) &&
      nextHas (exec (.rstl 0) (n 0x20)) (fun t => (t.core 0).saveHead 2 == 0x3000 && (t.core 0).dirtyBits == 13) &&
      nextHas (exec (.rstu 0) (b 0x10)) (fun t => (t.core 0).saveHead 2 == 0x3000 && (t.core 0).dirtyBits == 10) &&
      nextHas (exec (.rstl 0) (b 0x20)) (fun t => (t.core 0).saveHead 2 == 0x3000 && (t.core 0).dirtyBits == 13)) = true :=
  ⟨⟨runs_of (by decide +kernel), runs_of (by decide +kernel), runs_of (by decide +kernel), runs_of (by decide +kernel)⟩,
    ⟨maps_of (by decide +kernel), maps_of (by decide +kernel)⟩, by decide +kernel, by decide +kernel⟩

theorem test_witness_special_registers :
    let s := (base 3 [(1, fixW (-1)), (2, fixW 5 true), (3, chr 1), (4, Word.link 2 7)]).modCore 0 fun k => { k.setSpv 0x051 0x8000000000000000 with swInt := 0x80 }
    let u := (base 0 [(1, fixW 1)])
    let trap := fun (s : State) (cause info : Nat) => (s.begun 0).trapHere 0 cause (BitVec.ofNat 64 info) 2
    (s.runs 0 ∧ u.runs 0) ∧ (specLevels 0xFFF = none ∧ specLevels 0x017 = none ∧ specLevels 0x000 ≠ none ∧ specLevels 0x0BF ≠ none ∧ specLevels 0x0C0 = none ∧
      (s.ipend 0).getLsbD 63 = true) ∧
    (nexts (exec (.mfs 0 5 0xFFF) s) (trap s 1 0) && nexts (exec (.mts 0 1 0x017) s) (trap s 1 0) && nexts (exec (.mfs 0 5 0x051) u) (trap u 0x0B 0) &&
      nexts (exec (.mts 0 1 0x051) u) (trap u 0x0B 0) && nexts (exec (.mfs 0 5 0x000) s) (s.wrote 0 5 (Word.nat 0)) &&
      nexts (exec (.mfs 0 5 0x057) s) (s.wrote 0 5 (Word.nat 63)) && nexts (exec (.mfs 0 5 0x00A) s) (s.wrote 0 5 (Word.nat 0)) &&
      nexts (exec (.mfs 0 5 0x055) s) (s.wrote 0 5 (Word.nat 0)) && nexts (exec (.mfs 0 5 0x030) s) (s.wrote 0 5 (Word.link 3 0)) &&
      nexts (exec (.mfs 0 5 0x0BF) s) (s.wrote 0 5 (Word.nat 0)) && nexts (exec (.mts 0 1 0x00D) s) (s.ends 0 (fun k => (k.setSp 0x00D (Word.nat 0x3FFFF)).dirty 0) .seq) &&
      nexts (exec (.mts 0 3 0x051) s) (trap s 3 0x10) && nexts (exec (.mts 0 2 0x0BF) s) (trap s 5 0xB00) &&
      nexts (exec (.mts 0 1 0x00B) s) (s.ends 0 (fun k => k.setSaveHead 3 0xFFFFFFFFFFFFFFFF) .seq) &&
      nexts (exec (.mts 0 1 0x09F) s) (s.ends 0 (fun k => (k.setSp 0x09F (fixW (-1))).dirty 0) .seq) &&
      nexts (exec (.mts 0 4 0x028) s) (s.ends 0 (fun k => (k.setSp 0x028 (Word.link 2 7)).dirty 0) .seq) &&
      nexts (exec (.mts 0 3 0x03D) s) (s.ends 0 (fun k => k.setSp 0x03D (chr 1)) .seq) && nexts (exec (.mfs 0 5 0x005) s) (s.wrote 0 5 (Word.nat (s.goodColour 0))) &&
      nexts (exec (.mfs 0 5 0x006) s) (s.wrote 0 5 (Word.fix (BitVec.ofNat 64 (s.clock * 8) + (s.core 0).cycOff))) && nexts (exec (.mfs 0 5 0x007) s) (s.wrote 0 5 (Word.nat s.frame)) &&
      nexts (exec (.mfs 0 5 0x061) s) (s.wrote 0 5 (Word.nat 3)) && nexts (exec (.mts 0 1 0x060) s) (s.ends 0 (fun k => (k.setSp 0x060 (Word.nat 0xFF)).dirty 0) .seq)) = true :=
  ⟨⟨runs_of (by decide +kernel), runs_of (by decide +kernel)⟩, by decide +kernel, by decide +kernel⟩

/-- Partition 5, RUNNING in cell 0, `q` beside, its strand 0 on core 0. -/
def partSt (l : Nat) (rs : List (Reg × Word)) (f : Part → Part) : State :=
  ((base l rs).modPart 5 fun q => f { q with st := 3, ctx0 := 0x10000 }).modCore 0 fun k => { k with part := some 5, entry := 5, xLoaded := true }
/-- Region 0 filled and a root of partition 5 that maps the first 2^18 virtual words to themselves. -/
def paged (s : State) : State :=
  ((s.setFilled 0 0 true).setMemWord 0x8000 (mkWord 0x0B false 0 0xF7)).setMemWord 0x100E0 (Word.fix 0x20000008000)
def reqOf : Req := { vf := 6, q := 1, op := 0x40, cid := 9, part := 5, cls := 2, arr := 7, ps := [], outAddr := 0, outLen := 0, recOff := some 0x20 }

/-- The first and the last collection register, read on a core that serves a partition. -/
theorem test_witness_collection_registers_read :
    let s := partSt 2 [] fun q => { q with rk0 := { phase := 0, reg := [(0x300, 9), (0x30B, 8), (0x317, 7)] } }
    s.runs 0 ∧ ((s.rkOn 0).map fun x => x.1) = some 5 ∧ (nexts (exec (.mfs 0 5 0x300) s) (s.wrote 0 5 (Word.nat 9)) &&
      nexts (exec (.mfs 0 5 0x308) s) (s.wrote 0 5 (Word.nat 0)) && nexts (exec (.mfs 0 5 0x30B) s) (s.wrote 0 5 (Word.nat 8)) &&
      nexts (exec (.mfs 0 5 0x317) s) (s.wrote 0 5 (Word.nat 7))) = true :=
  ⟨runs_of (by decide +kernel), by decide +kernel, by decide +kernel⟩

theorem test_witness_request_taking :
    let s := (partSt 0 [] fun q => { q with dlv0 := [3], arenaVa := 0x100000 }).setReq 3 (some reqOf)
    let e := partSt 0 [] id
    let p := (partSt 0 [] fun q => { q with dlv0 := [3], paired := true, cell1 := 1 }).setReq 3 (some reqOf)
    let w := s.modCore 0 fun k => { k with wait := .rqtake 7 }
    (s.runs 0 ∧ e.runs 0 ∧ p.runs 0) ∧ ((s.core 0).part = some 5 ∧ (s.part 5).dlv (s.sideOfCore 0 5) = [3] ∧ s.req 3 = some reqOf ∧
      (s.part 5).paired = false ∧ (e.part 5).dlv (e.sideOfCore 0 5) = [] ∧ (p.part 5).paired = true ∧ (p.core 0).pbit 4 = false ∧ (w.core 0).wait = .rqtake 7) ∧
    (nextHas (exec (.rqtake 0 7) s) (fun t => (t.core 0).get 7 == s.goodPtr 0 0x11 0x100020 && (t.part 5).dlv0 == [] && Tab.get (fun _ => 0) (t.part 5).rqFrm 0 == 8) &&
      nexts (exec (.rqpeek 0 7) s) (s.wrote 0 7 (s.goodPtr 0 0x11 0x100020)) && nexts (exec (.rqpeek 0 7) e) (e.wrote 0 7 Word.nil) &&
      nexts (exec (.rqtake 0 7) e) ((e.begun 0).modCore 0 fun k => { k with wait := .rqtake 7 }) &&
      nexts (exec (.rqpeek 0 7) p) ((p.begun 0).trapHere 0 0x0B 0 2) && nextHas (exec (.rqtake 0 7) p) (fun t => (t.part 5).dlv 0 == []) &&
      nextHas (exec (.requestDeliveredWake 0) w) (fun t => nexts (exec (.rqtake 0 7) w) t)) = true :=
  ⟨⟨runs_of (by decide +kernel), runs_of (by decide +kernel), runs_of (by decide +kernel)⟩, by decide +kernel, by decide +kernel⟩

theorem test_witness_software_interrupts_and_tlb :
    let st := fun (v : B64) => base 2 [(1, Word.fix v)]
    let s := st 0x8100000000000000
    let d := partSt 2 [(1, fixW 5)] id
    let r := (dirtyWriteOp 0 5).run.run (d.begun 0)
    (s.runs 0 ∧ d.runs 0) ∧ ((s.core 0).level = 2 ∧ (s.reg 0 1).isFix = true ∧ (s.reg 0 1).sec = false ∧ (s.core 0).pbit 4 = false ∧
      fld (0x4000000000000200 : B64) 63 62 = 1 ∧ fld (0x8000000000000000 : B64) 63 62 = 2 ∧ fld (0xC000000000000000 : B64) 63 62 = 3 ∧
      fld (0x4000000000000200 : B64) 61 54 = 0 ∧ ((s.cell 0).shoot = []) ∧ ((s.begun 0).recordOf 0 = none) ∧ (d.begun 0).recordOf 0 = some 0x10000) ∧
    r = (.ok ⟨⟩, r.2) ∧
    (nextHas (exec (.iset 0 1) s) (fun t => (t.core 0).swInt == 0x81) && nextHas (exec (.iclr 0 1) s) (fun t => (t.core 0).swInt == 0) &&
      nextHas (exec (.tlbInvalidatePage 0 1) (st 0x4000000000000200)) (fun t => (t.cell 0).shoot == [.page 0 1]) &&
      nextHas (exec (.tlbInvalidateAsid 0 1) (st 0x8000000000000000)) (fun t => (t.cell 0).shoot == [.asid 0]) &&
      nextHas (exec (.tlbInvalidateAll 0 1) (st 0xC000000000000000)) (fun t => (t.cell 0).shoot == [.all]) &&
      nextHas (exec (.dirtyWrite 0 1) (st 5)) (fun t => fld ((t.core 0).spv 3) 3 0 == 5) && nexts (exec (.dirtyWrite 0 1) d) (r.2.retire 0 (d.core 0) .seq)) = true :=
  ⟨⟨runs_of (by decide +kernel), runs_of (by decide +kernel)⟩, by decide +kernel, ok_of (by decide +kernel), by decide +kernel⟩

theorem test_witness_collection_requests :
    let st := fun (v : Int) (ph : Nat) => partSt 2 [(1, fixW v)] fun q => { q with rk0 := { phase := ph, reg := [(0x30F, 7)] } }
    let pin := (paged (st 0x300 0)).setMemWord 0x300 (hdrW 2 1)
    let off := (paged (partSt 2 [(1, Word.fix 0x8000000000000300)] id)).setMemWord 0x300 (hdrW 2 1)
    let a := (pin.begun 0).agentAddr 5 0 .store 0x300
    let h := a.2.agentRead 0x300
    ((st 1 0).runs 0 ∧ (st 3 2).runs 0 ∧ pin.runs 0) ∧ (((st 1 0).core 0).level = 2 ∧ ((st 1 0).core 0).part = some 5 ∧ ((st 1 0).rk 5 0).phase = 0 ∧
      ((st 3 2).rk 5 0).phase = 2 ∧ ((st 1 3).rk 5 0).phase ≠ 0 ∧ fld (3 : B64) 3 0 = 3 ∧ (0x30F : BitVec 12).toNat = 0x30F ∧ (0x317 : BitVec 12).toNat = 0x317 ∧
      a.1 = some 0x300 ∧ h.1.isHdr = true) ∧
    (nextHas (exec (.markFull 0 1) (st 1 0)) (fun t => (t.rk 5 0).req == 1) && nextHas (exec (.markYoung 0 1) (st 2 0)) (fun t => (t.rk 5 0).req == 2) &&
      nextHas (exec (.markFull 0 1) (st 1 3)) (fun t => (t.rk 5 0).err == 1 && (t.rk 5 0).req == 0) &&
      nextHas (exec (.relocate 0 1) (st 3 2)) (fun t => (t.rk 5 0).req == 3 && (t.rk 5 0).plan) && nextHas (exec (.relocate 0 1) (st 3 1)) (fun t => (t.rk 5 0).err == 1) &&
      nextHas (exec (.rkpin 0 1) (st 0 1)) (fun t => (t.rk 5 0).err == 1) && nextHas (exec (.rakeCounterClear 0 1 0x30F) (st 0 0)) (fun t => (t.rk 5 0).spv 0x30F == 0) &&
      nextHas (exec (.rakeCounterClear 0 1 0x30F) (st 1 0)) (fun t => (t.rk 5 0).spv 0x30F == 7) &&
      nexts (exec (.rkpin 0 1) pin) ((h.2.agentWrite 0x300 ⟨h.1.tag, putBit h.1.pay 2 true⟩).retire 0 (pin.core 0) .seq) &&
      nextHas (exec (.rkpin 0 1) off) (fun t => !hdrMark (t.agentRead 0x300).1.pay)) = true :=
  ⟨⟨runs_of (by decide +kernel), runs_of (by decide +kernel), runs_of (by decide +kernel)⟩, by decide +kernel, by decide +kernel⟩

/-! ### Witnesses: Graft, keys and jobs -/

/-- Core 0 serves partition 5 at level `l`, group X in the core and the coprocessor in service; slot 3 holds a live AES key. -/
def graftSt (l : Nat) (rs : List (Reg × Word)) (cx : List (Nat × Word)) (f : Part → Part := id) : State :=
  let s := (((partSt l rs f).wr .cpxCtl 0 0 3).wr .kstPbase 0 5 2).wr .kstPcnt 0 5 2
  let s := (s.setSlot 3 { mat := 99, pol := mkPolicy 5 0 1 0xFC 7 }).modPart 5 fun q => { q with drbg0 := { live := true } }
  s.modCore 0 fun k => cx.foldl (fun k e => k.setSp (0x100 + e.1) e.2) k
def handleW (h : B64) : Word := mkWord 6 false 0 h
def isWord (s : State) (l : List Nat) : Bool := l.all fun i => ((s.core 0).sp (0x100 + i)).isWordOp

theorem test_witness_inline_graft :
    let raws := (List.range 24).map fun i => (8 + i, Word.raw (BitVec.ofNat 64 i))
    let s := graftSt 0 [(1, fixW 5)] ((0, handleW (mkHandle 0xFC 5 0 3)) :: raws)
    let r := (loadX 0).run.run (s.begun 0)
    let x := r.2.modCore 0 fun k => (k.dirty 8).finishInline
    let off := s.wr .cpxCtl 0 0 0
    let fin := s.modCore 0 fun k => { k with inlineOp := some ⟨[(8, fixW 1)]⟩ }
    (s.runs 0 ∧ off.runs 0) ∧ r = (.ok ⟨⟩, r.2) ∧ (((s.begun 0).rd .cpxCtl 0).getLsbD 0 = true ∧ ((off.begun 0).rd .cpxCtl 0).getLsbD 0 = false ∧
      isWord x [8, 9, 10, 11, 16, 17, 18, 19, 24, 25, 26, 27, 28, 29, 30, 31] = true ∧ ((x.core 0).sp 0x100).ty = 6 ∧ ((x.core 0).sp 0x100).sec = false ∧
      (handleCheck x (x.core 0).part ((x.core 0).sp 0x100).pay aesType 4).1 = 0 ∧ (handleCheck x (x.core 0).part ((x.core 0).sp 0x100).pay aesType 8).1 = 0 ∧
      (r.2.core 0).inlineOp = none ∧ (x.rkOn 0).isSome = true ∧ (x.drawBytes 5 0 1 64).isSome = true) ∧
    (nextHas (exec (.xput 0 31 1) s) (fun t => (t.core 0).sp 0x11F == fixW 5) && nextHas (exec (.xget 0 2 31) s) (fun t => (t.core 0).get 2 == Word.raw 23) &&
      nextHas (exec (.aesenc 0) s) (fun t => (t.core 0).inlineOp.isSome) && nextHas (exec (.aesdec 0) s) (fun t => (t.core 0).inlineOp.isSome) &&
      nextHas (exec (.sha256c 0) s) (fun t => (t.core 0).inlineOp.isSome) && nextHas (exec (.gmul 0) s) (fun t => (t.core 0).inlineOp.isSome) &&
      nextHas (exec (.rng 0) s) (fun t => (t.core 0).inlineOp.isSome) && nextHas (exec (.xclr 0) s) (fun t => (t.core 0).inlineOp.isSome) &&
      nexts (exec (.xclr 0) off) ((off.begun 0).trapHere 0 0x28 0 2) && nexts (exec (.kopen 0 2 1) off) ((off.begun 0).trapHere 0 0x28 0 2) &&
      nexts (exec (.krd 0 1 .uncorrectable) off) ((off.begun 0).trapHere 0 0x28 0 2) && nexts (exec (.xwait 0 2 1) off) ((off.begun 0).trapHere 0 0x28 0 2) &&
      nextHas (exec (.inlineOperationComplete 0) fin) (fun t => (t.core 0).sp 0x108 == fixW 1 && (t.core 0).inlineOp.isNone)) = true :=
  ⟨⟨runs_of (by decide +kernel), runs_of (by decide +kernel)⟩, ok_of (by decide +kernel), by decide +kernel, by decide +kernel⟩

theorem test_witness_key_operations :
    let s := graftSt 0 [(1, fixW 3), (2, handleW (mkHandle 0xFC 5 0 3)), (3, fixW 0x10), (4, fixW 0x000000000000FF01), (6, handleW (mkHandle 0xFC 4 0 3))] []
    let r := (loadX 0).run.run (s.begun 0)
    let x := r.2.modCore 0 fun k => k.dirty 8
    let p := graftSt 0 [(4, fixW 0xFF01)] [] fun q => { q with paired := true, cell1 := 1 }
    let chk := fun (h : B64) (n : Nat) => handleCheck x (some 5) h (fun _ => true) n
    let chkE := fun (e : SlotEcc) => handleCheck x (some 5) (mkHandle 0xFC 5 0 3) (fun _ => true) 64 e
    let ue := chkE .uncorrectable
    (s.runs 0 ∧ p.runs 0) ∧ r = (.ok ⟨⟩, r.2) ∧ (((s.begun 0).rd .cpxCtl 0).getLsbD 0 = true ∧ (s.reg 0 1).pay.toNat < 2 ^ 34 ∧
      (chk (x.nameHandle 5 3) 0).1 = 0 ∧ (chk (mkHandle 0xFC 5 0 3) 0).1 = 0 ∧ (chk (mkHandle 0xFC 5 0 3) 64).1 = 0 ∧ (chk (mkHandle 0xFC 4 0 3) 0).1 ≠ 0 ∧
      (chk (mkHandle 0xFC 4 0 3) 0).2 = x ∧ (x.part 5).paired = false ∧ (x.part 5).keyWait = none ∧ fld (mkHandle 0xFC 5 0 3) 47 40 = fld (x.slot 3).pol 31 24 ∧
      typeRights (fld (0xFF01 : B64) 7 0) = some 0xFC ∧ fld (0xFF01 : B64) 63 40 = 0 ∧ freeSlot x (x.keyBase 5) (x.keyCount 5) = some 2 ∧
      (x.drawKey 5 0 1).isSome = true ∧ (x.part 5).live.filter (· != 0) = [] ∧ (p.part 5).paired = true ∧ (p.part 5).lost = 0 ∧ (p.part 5).keyWait = none ∧
      p.twinJob 5 1 = none) ∧ (ue.1 = 3 ∧ (ue.2.slot 3).mat = 0 ∧ polLive (ue.2.slot 3).pol = false ∧ (mkHandle 0xFC 5 0 3).toNat / 2 ^ 48 = 0 ∧
      (chkE .corrected).1 = 0 ∧ ((chkE .corrected).2).rd .kstCecnt = 1) ∧
    (nextHas (exec (.kopen 0 7 1) s) (fun t => (t.core 0).get 7 == handleW (mkHandle 0xFC 5 0 3)) &&
      nextHas (exec (.katt 0 7 2 3) s) (fun t => (t.core 0).get 7 == handleW (mkHandle 0x10 5 0 3)) &&
      nextHas (exec (.kinfo 0 7 2) s) (fun t => (t.core 0).get 7 == Word.nat 0x1FC000007) && nexts (exec (.kinfo 0 7 6) s)
        (x.trapHere 0 0x2A (BitVec.ofNat 64 (2 * 2 ^ 60 + 3)) 2) &&
      nextHas (exec (.krd 0 2 .good) s) (fun t => (t.core 0).sp 0x108 == Word.raw 99 true) &&
      nextHas (exec (.krd 0 2 .corrected) s) (fun t => (t.core 0).sp 0x108 == Word.raw 99 true) &&
      nexts (exec (.krd 0 2 .uncorrectable) s) (ue.2.trapHere 0 0x2A (BitVec.ofNat 64 (3 * 2 ^ 60 + 3)) 2) &&
      nextHas (exec (.kdel 0 2) s) (fun t => !polLive (t.slot 3).pol && polGen (t.slot 3).pol == 1) &&
      nextHas (exec (.kgen 0 7 4) s) (fun t => polLive (t.slot 2).pol && polUse (t.slot 2).pol == 0xFC && (t.core 0).get 7 == handleW (mkHandle 0xFC 5 0 2)) &&
      nextHas (exec (.kgen 0 7 4) p) (fun t => (t.core 0).wait == .twinKey 7 && (t.part 5).keyWait.isSome)) = true :=
  ⟨⟨runs_of (by decide +kernel), runs_of (by decide +kernel)⟩, ok_of (by decide +kernel), by decide +kernel, by decide +kernel⟩

theorem test_witness_twin_key_wait_apply :
    let kw : KeyWait := { side := 0, core := 0, fn := 4, operands := [handleW (mkHandle 0xFC 5 0 3)], rd := 7 }
    let s := graftSt 0 [] [] fun q => { q with paired := true, cell1 := 1, lost := 2, degraded := true, keyWait := some kw, keyApply := true }
    let w := s.modCore 0 fun k => { k with wait := .twinKey 7 }
    let n := graftSt 0 [] []
    ((s.part 5).paired = true ∧ (s.part 5).degraded = true ∧ (s.part 5).keyWait = some kw ∧ (s.part 5).keyApply = true ∧ kw.res = none ∧ kw.fn = 4 ∧
      s.jobs = [] ∧ (s.core kw.core).wait = .none ∧ (w.core 0).wait = .twinKey 7 ∧ (w.core 0).part = some 5 ∧ w.sideOfCore 0 5 = 0 ∧ (w.core 0).pbit 4 = false ∧
      (w.core 0).loopHere = false ∧ (n.part 5).keyWait = none ∧ (n.part 5).degraded = false) ∧
    (nextHas (exec (.twinKeyWaitApply 5) s) (fun t => !polLive (t.slot 3).pol && (t.slot 3).mat == 0 && !(t.part 5).keyApply &&
        (t.part 5).keyWait == some { kw with res := some (none, 0) }) &&
      nextHas (exec (.twinKeyWaitApply 5) w) (fun t => !polLive (t.slot 3).pol && (t.part 5).keyWait.isNone && (t.core 0).wait == .none && (t.core 0).pc == pcPlus 0 1) &&
      nexts (exec (.twinKeyWaitApply 5) n) n) = true :=
  ⟨by decide +kernel, by decide +kernel⟩

def bytesP (a : Nat) : Word := mkWord 0x12 false 0 (BitVec.ofNat 64 a)
def rawvP (a : Nat) : Word := mkWord 0x17 false 0 (BitVec.ofNat 64 a)

/-- XJOB of SHA-256 from a byte string of 8 words to a sealed RAW vector of 4, each step of R301 in turn. -/
theorem test_witness_xjob :
    let s := holding [(0x300, hdrW 8 0x10), (0x380, hdrW 4 6 true)] (graftSt 2 [] [(1, bytesP 0x300), (3, rawvP 0x380), (5, fixW 0)])
    let r0 := (graft 0 true).run.run (s.begun 0)
    let u1 := r0.2.modCore 0 Core.finishInline
    let f : JobForm := { ins := [1], outs := [3] }
    let l : JobObjs := [(1, 0x300, mkHdr 8 0 0x10 false 0 false), (3, 0x380, mkHdr 4 0 6 true 0 false)]
    let r2 := (jobKeys 0 f .good).run.run u1
    let r3 := (jobObjs 0 [1, 3]).run.run r2.2
    let r4 := (jobScratch 0 1 [3] l).run.run r3.2
    let r6 := (jobPages 0 [3] l).run.run r3.2
    let r7 := (jobDraw 0 1 0 0).run.run r6.2
    s.runs 0 ∧ (jobForm 0 0 Word.empty = none ∧ jobForm 0x31 0 Word.empty = none ∧ (jobForm 1 0 Word.empty).isSome = true) ∧
    (r0 = (.ok ⟨⟩, r0.2) ∧ r4 = (.ok ⟨⟩, r4.2) ∧ r4.2 = r3.2) ∧ (((jobTypes 0 1 0 f).run.run u1).2 = u1 ∧ okB ((jobTypes 0 1 0 f).run.run u1) = true ∧ okB r2 = true ∧
      (match r3.1 with | .ok x => x == l | _ => false) = true ∧ cx5Ok 1 0 = true ∧ insOk 1 0 false l = true ∧ jobOuts 1 0 0 0 false l = [(3, 32, true)] ∧
      32 = 8 * hdrLen (objHdr l 3) ∧ hdrSealed (objHdr l 3) = true ∧ okB r6 = true ∧ r6.2.freeTicketOf (r6.2.strandOn 0) = some 0 ∧
      (r6.2.clu 0).jobq.length < 32 ∧ okB r7 = true) ∧
    (nextHas (exec (.xjob 0 7 1 .good) s) (fun t => (t.clu 0).jobq == [0] && (t.core 0).get 7 == fixW 0 && (t.job 0).map Job.st == some .queued) &&
      nexts (exec (.xjob 0 7 0x31 .good) s) ((s.begun 0).trapHere 0 1 0 2)) = true :=
  ⟨runs_of (by decide +kernel), by decide +kernel, ⟨ok_of (by decide +kernel), ok_of (by decide +kernel), by decide +kernel⟩, by decide +kernel, by decide +kernel⟩

/-- Running job 0 of a function: operands as sealed RAW vectors at 0x1000 times their CX number, outputs of 8 words. -/
def jobSt (fn : Nat) (p5 : B64) (keys : List (Nat × B64)) (ins : List (Nat × List Word)) (st : JobSt := .running) (rnd : List (BitVec 8) := []) : State :=
  let outs : List Nat := [3, 4].filter fun i => !(ins.map Prod.fst).contains i
  let q : Job := { part := 5, side := 0, strand := 0, ticket := 0, clu := 0, fn := fn, st := st, rnd := rnd, keys := keys,
                   params := [if ins.any (fun e => e.1 == 0) then rawvP 0 else Word.empty, Word.empty, Word.empty, Word.empty, Word.empty,
                     Word.fix p5, Word.empty, Word.empty],
                   ops := (ins.map fun e => (e.1, 0x1000 * e.1, mkHdr e.2.length 0 6 true 0 false)) ++ (outs.map fun i => (i, 0x1000 * i, mkHdr 8 0 6 true 0 false)),
                   pages := (ins.map fun e => (e.1, (List.range e.2.length).map fun k => 0x1000 * e.1 + 1 + k)) ++
                     (outs.map fun i => (i, (List.range 8).map fun k => 0x1000 * i + 1 + k)) }
  let s := ins.foldl (fun s e => storeWords s (0x1000 * e.1 + 1) e.2) (fullSt [])
  s.setJob 0 (some q)
def rawsOf (b : List (BitVec 8)) : List Word := (chunk 8 b).map fun b => Word.raw (BitVec.ofNat 64 (natLE b))
def aesK : Nat × B64 := (0, mkPolicy 5 0 1 0xFC 7)
def computed (o : Out) (p : Job → Bool) : Bool := nextHas o fun t => match t.job 0 with | some q => q.st == .computed && p q | none => false

theorem test_witness_hash_cipher_jobs :
    let m := [(1, rawsOf (bytesBE 16 7))]
    let poison := jobSt 1 0 [] [(1, [Word.raw 0, Word.poison 0 5])]
    let pin := jobInputs 0 ((poison.job 0).getD { part := 0, side := 0, strand := 0, ticket := 0, clu := 0, fn := 0, st := .queued, params := [], keys := [], ops := [], pages := [] }) [1] poison
    ((∀ e ∈ [0x01, 0x02, 0x03, 0x04, 0x0A, 0x0B, 0x0C, 0x0D, 0x0E, 0x28, 0x30], ((jobSt e 0 [aesK] m).job 0).map (fun q => (q.fn, q.st, q.clu)) = some (e, .running, 0)) ∧
      ((poison.job 0).map fun q => (jobRefused q pin.1).map Prod.fst) = some (some 0x1002)) ∧
    (computed (exec (.sha2Job 0 0) (jobSt 1 0 [] [(1, [⟨0x78, 0⟩])])) (fun q => q.badWord == some ⟨0x78, 0⟩) &&
      computed (exec (.sha2Job 0 0) poison) (fun q => q.poison == some 0x1002) && computed (exec (.sha2Job 0 0) (jobSt 1 0 [] m)) (fun q => q.poison.isNone) &&
      computed (exec (.sha3Job 0 0) (jobSt 2 0 [] m)) (fun q => q.poison.isNone) && computed (exec (.hmacJob 0 0) (jobSt 3 0 [aesK] m)) (fun q => q.poison.isNone) &&
      computed (exec (.blake2bJob 0 0) (jobSt 4 0 [] m)) (fun q => q.poison.isNone) &&
      computed (exec (.aesGcmSeal 0 0) (jobSt 8 0 [aesK] (m ++ [(2, []), (6, m.flatMap Prod.snd)]))) (fun q => q.fail == 0) &&
      computed (exec (.aesGcmOpen 0 0) (jobSt 9 0 [aesK] [(1, []), (2, []), (4, rawsOf (bytesBE 16 118150650284846871594443245464813258074)),
        (6, rawsOf (bytesBE 16 0))])) (fun q => q.out == []) &&
      computed (exec (.aesXts 0 0) (jobSt 0x0A 0 [aesK, aesK] (m ++ [(6, m.flatMap Prod.snd)]))) (fun q => q.poison.isNone) &&
      computed (exec (.keyWrapOut 0 0) (jobSt 0x0B 0 [aesK, aesK] [])) (fun q => q.poison.isNone) &&
      computed (exec (.keyUnwrapIn 0 0) (jobSt 0x0C 0 [aesK] [(1, [])])) (fun q => q.fail == 9) &&
      computed (exec (.objectWrap 0 0) (jobSt 0x0D 0 [aesK] m)) (fun q => q.poison.isNone) && computed (exec (.objectUnwrap 0 0) (jobSt 0x0E 0 [aesK] [(1, [])])) (fun q => q.fail == 9) &&
      computed (exec (.modularExponentiation 0 0) (jobSt 0x20 0 [] [(0, rawsOf (bytesBE 8 3)), (1, rawsOf (bytesBE 8 5)), (2, rawsOf (bytesBE 8 7))]))
        (fun q => q.out.head? == some (0x3001, Word.raw 0x0600000000000000)) &&
      computed (exec (.argon2id 0 0) (jobSt 0x28 0 [] (m ++ [(2, [])]))) (fun q => q.poison.isNone) && computed (exec (.drbgFill 0 0) (jobSt 0x30 0 [] [] .running [1, 2]))
        (fun q => q.out.head? == some (0x3001, Word.raw 0x0201 true))) = true :=
  ⟨by decide +kernel, by decide +kernel⟩

theorem test_witness_signature_exchange_jobs :
    let one : Nat × B64 := (1, mkPolicy 5 0 4 0xC3 7)
    let g := rawsOf (p256.encode p256.base)
    (∀ e ∈ [0x10, 0x11, 0x12, 0x13, 0x14, 0x15, 0x18, 0x19, 0x1A, 0x1C, 0x1D, 0x1E],
      ((jobSt e 2 [one] []).job 0).map (fun q => (q.fn, q.st, q.clu)) = some (e, .running, 0)) ∧
    ((ecdsaSignWith p256 1 1 [1]).isSome = true ∧ (ecdh p256 1 (p256.encode p256.base)).isSome = true) ∧
    (computed (exec (.ecdsaSign 0 0) (jobSt 0x10 0 [one] [(1, g)] .running [1])) (fun q => q.poison.isNone) &&
      computed (exec (.ecdsaVerify 0 0) (jobSt 0x11 0 [] [(1, g), (2, g), (4, g)])) (fun q => q.poison.isNone) &&
      computed (exec (.ed25519Sign 0 0) (jobSt 0x12 0 [one] [(1, g)])) (fun q => q.poison.isNone) && computed (exec (.ed25519Verify 0 0) (jobSt 0x13 0 [] [(1, g), (2, g), (4, g)])) (fun q => q.poison.isNone) &&
      computed (exec (.ecdh 0 0) (jobSt 0x14 2 [one] [(2, g)])) (fun q => q.poison.isNone) && computed (exec (.publicKeyDerivation 0 0) (jobSt 0x15 3 [one] [])) (fun q => q.poison.isNone) &&
      computed (exec (.publicKeyDerivation 0 0) (jobSt 0x15 1 [one] [])) (fun q => q.poison.isNone) &&
      computed (exec (.mlDsaVerify 0 0) (jobSt 0x19 0 [] [(1, g), (2, g), (4, g)])) (fun q => q.poison.isNone) &&
      computed (exec (.mlDsaKeyGeneration 0 0) (jobSt 0x1A 0 [] [])) (fun q => q.poison.isNone) && computed (exec (.mlKemEncapsulation 0 0) (jobSt 0x1C 0 [] [(2, g)])) (fun q => q.poison.isNone) &&
      computed (exec (.mlKemDecapsulation 0 0) (jobSt 0x1D 0 [] [(0, g), (1, g)])) (fun q => q.poison.isNone) &&
      computed (exec (.mlKemKeyGeneration 0 0) (jobSt 0x1E 0 [] [])) (fun q => q.poison.isNone)) = true :=
  ⟨by decide +kernel, by decide +kernel, by decide +kernel⟩

/-- Jobs of cluster 0 with the coprocessor in service. -/
def queueSt (st : JobSt) (fn : Nat) (f : Job → Job := id) : State :=
  let s := ((jobSt fn 0 [] [] st).wr .cpxCtl 0 0 3).modPart 5 fun q => { q with st := 3, ctx0 := 0x10000 }
  let s := s.modClu 0 fun k => if st == .queued then { k with jobq := [7, 0] } else { k with jobrun := [0] }
  (s.setJob 0 ((s.job 0).map f)).modCore 0 fun k => { k.put 1 (fixW 0) with part := some 5, entry := 5, xLoaded := true }

theorem test_witness_jobs_start_and_finish :
    let s := queueSt .queued 1
    let fin := fun (st : JobSt) (f : Job → Job) => (queueSt st 1 f).modStrand ((queueSt st 1 f).strandOn 0) fun x => { x with tickets := Tab.set (fun _ => 0) x.tickets 0 1 }
    let g := fun (s : State) => (graft 0 true).run.run (s.begun 0)
    let kw := queueSt .computed 0x0C fun q => { q with newKey := some (mkPolicy 0 0 1 0xFF 0, 5) }
    let ko := (kw.wr .kstPbase 0 5 2).wr .kstPcnt 0 5 1
    let none_ := (s.modClu 0 fun k => { k with jobq := [] })
    (fin .running id).runs 0 ∧ (g (fin .running id) = (.ok ⟨⟩, (g (fin .running id)).2)) ∧
    ((s.clu 0).jobq = [7] ++ 0 :: [] ∧ (s.rd .cpxCtl 0).getLsbD 0 = true ∧ s.unitsBusy 0 = [] ∧ jobUnits 1 3 = [5] ∧ s.job 7 = none ∧
      ((kw.part 5).paired = false ∧ (kw.createKey 5 1 0xFF 0 5).isNone = true ∧ (ko.createKey 5 1 0xFF 0 5).isSome = true) ∧
      ((fin .running id).reg 0 1).isFix = true ∧ ((queueSt .running 1).clu 0).jobrun = [0] ∧ ((queueSt .running 1).clu 0).jobq = [] ∧
      (none_.clu 0).jobrun = [] ∧ (none_.clu 0).jobq = []) ∧
    (nextHas (exec (.jobStart 0 5) s) (fun t => (t.clu 0).jobq == [7] && (t.clu 0).jobrun == [0] && (t.job 0).map Job.st == some .running) &&
      nextHas (exec (.jobCompletion 0 0 0) (queueSt .computed 0x18 fun q => { q with attempts := 25 })) (fun t => (t.job 0).map Job.st == some .finished && t.rd .cpxJobs 0 == 1 && t.rd .cpxExt 0 == 1) &&
      nextHas (exec (.jobCompletion 0 0 0) kw) (fun t => (t.job 0).map Job.fail == some 3) &&
      nextHas (exec (.jobCompletion 0 0 0) ko) (fun t => (t.job 0).map Job.result == some (fixW 2 true) && polLive (t.slot 2).pol) &&
      nexts (exec (.xwait 0 2 1) (queueSt .running 1)) ((g (queueSt .running 1)).2.trapHere 0 0x29 (BitVec.ofNat 64 (8 * 2 ^ 60)) 2) &&
      nextHas (exec (.xwait 0 2 1) (fin .running id)) (fun t => (t.core 0).wait == .job) &&
      nextHas (exec (.xwait 0 2 1) (fin .finished fun q => { q with result := fixW 32 })) (fun t => (t.core 0).get 2 == fixW 32 && (t.job 0).isNone) &&
      nextHas (exec (.xwait 0 2 1) (fin .finished fun q => { q with poison := some 9 })) (fun t => (t.core 0).sp 0x02A == Word.nat 0x1A && (t.core 0).sp 0x02B == fixW 9) &&
      nextHas (exec (.xwait 0 2 1) (fin .finished fun q => { q with fail := 7 })) (fun t => (t.core 0).sp 0x02A == Word.nat 0x29) &&
      nextHas (exec (.coprocessorInternalError 0 1) none_) (fun t => !(t.rd .cpxCtl 0).getLsbD 0) &&
      nextHas (exec (.coprocessorInternalError 0 1) (queueSt .running 1)) (fun t => (t.job 0).map Job.fail == some 7 && !(t.rd .cpxCtl 0).getLsbD 0) &&
      nexts (exec (.mhfSlot 0 0 true 5) s) s) = true :=
  ⟨runs_of (by decide +kernel), ok_of (by decide +kernel), by decide +kernel, by decide +kernel⟩

/-- The twins of partition 5 each have a key unwrap: job 0 of side 0 and job 1 of side 1. -/
theorem test_witness_pair_jobs :
    let key := fun (q : Job) => { q with newKey := some (mkPolicy 0 0 1 0xFF 0, 5) }
    let pair := fun (s : State) => (s.modPart 5 fun q => { q with paired := true, cell1 := 1 })
    let one := fun (st : JobSt) => pair (((queueSt st 0x0C key).wr .kstPbase 0 5 2).wr .kstPcnt 0 5 1)
    let two := fun (st : JobSt) (g : Job → Job) => (one .computed).setJob 1 (((one st).job 0).map fun q => g { q with side := 1 })
    let other := fun (q : Job) => { q with blob := [1] }
    let lost := pair (queueSt .finished 1 fun q => { q with fail := 7 })
    let lostT := lost.modStrand (lost.strandOn 0) fun x => { x with tickets := Tab.set (fun _ => 0) x.tickets 0 1 }
    let bad := queueSt .finished 1 fun q => { q with badWord := some ⟨0x78, 0⟩ }
    let badT := bad.modStrand (bad.strandOn 0) fun x => { x with tickets := Tab.set (fun _ => 0) x.tickets 0 1 }
    ((((one .computed).twinJob 5 0).map Prod.fst = some 0 ∧ (one .computed).twinJob 5 1 = none ∧ ((one .computed).part 5).keyWait = none) ∧
      (((two .running id).twinJob 5 1).map Prod.fst = some 1) ∧ (((two .computed id).twinJob 5 1).map Prod.fst = some 1) ∧
      ((two .computed id).part 5).lost = 0) ∧
    (lostT.runs 0 ∧ badT.runs 0) ∧
    (nexts (exec (.jobCompletion 0 0 0) (one .computed)) (one .computed) && nexts (exec (.jobCompletion 0 0 0) (two .running id)) (two .running id) &&
      nextHas (exec (.jobCompletion 0 0 0) (two .computed id)) (fun t => (t.job 0).map Job.result == some (fixW 2 true) && (t.job 1).map Job.result == some (fixW 2 true)) &&
      nextHas (exec (.jobCompletion 0 0 0) (two .computed other)) (fun t => (t.job 0).map Job.fail == some 10 && (t.job 1).map Job.fail == some 10)) = true ∧
    (nextHas (exec (.xwait 0 2 1) lostT) (fun t => (t.core 0).wait == .job) && nextHas (exec (.xwait 0 2 1) badT) (fun t => (t.core 0).sp 0x02A == Word.nat 3)) = true ∧
    nextHas (exec (.coprocessorInternalError 0 1) (pair (queueSt .running 1))) (fun t => (t.part 5).lost == 1) = true :=
  ⟨by decide +kernel, ⟨runs_of (by decide +kernel), runs_of (by decide +kernel)⟩, by decide +kernel, by decide +kernel, by decide +kernel⟩

/-- Region 3 of cell 0 held by job 0: its last line, and the first beyond. -/
theorem test_witness_region_slots :
    let s := (queueSt .running 0x28 fun q => { q with bir := some 3 }).modCell 0 fun k => { k with birOn := [(3, 0x85000000)] }
    let n := (s.birRange 0 (s.birOn 0 3)).2
    let p := s.setMemWord (8 * (n - 1)) (Word.poison 0 5)
    (s.birBusy 0 3 = true ∧ s.birBusy 0 2 = false ∧ 0 < n ∧ (s.birRange 0 (s.birOn 0 3)).1 = 0 ∧ s.cwErr (n - 1) 0 = [] ∧ s.cwErr (n - 1) 1 = [] ∧
      ((s.memLine (n - 1)).all fun w => !w.isPoison) = true ∧ ((p.memLine (n - 1)).any Word.isPoison) = true) ∧
    (nexts (exec (.mhfSlot 0 2 true 0) s) s && nexts (exec (.mhfSlot 0 3 true n) s) s && nexts (exec (.mhfSlot 0 3 true (n - 1)) s) s &&
      nexts (exec (.mhfSlot 0 3 false (n - 1)) p) p && nextHas (exec (.mhfSlot 0 3 true (n - 1)) p) (fun t => match t.job 0 with | some q => q.poison.isSome | none => false)) = true :=
  ⟨by decide +kernel, by decide +kernel⟩

/-- R267, R268: with its check bytes a codeword has no syndrome, and a changed byte is found where it stands. -/
theorem test_line_code_vanishes :
    let d := bytesLE 36 0x1234567890ABCDEF00FF00FF0102030405060708090A
    let c := lineCheck d 0x87654321 ++ d ++ bytesLE 5 0x87654321
    let e := (List.range 45).map fun p => (p, c.getD p 0)
    c.length = 45 ∧ cwOutcome e = .clean ∧ cwOutcome ((7, 0x30) :: e) = .corrected 7 0x30 ∧ cwOutcome ((44, 1) :: e) = .address ∧
      dataCw (cwData d) = d := by decide +kernel

/-! ### Witnesses: frames, preemption, walks, control store, register writes -/

/-- The register write at `r` by `w` is admitted. -/
def tgt (s : State) (w : Who) (r : RegAt) : Bool := match s.target w r.key with | .reg _ => true | _ => false
theorem tgt_of {s : State} {w : Who} {r : RegAt} (h : tgt s w r = true) : ∃ x, s.target w r.key = .reg x := by
  unfold tgt at h
  split at h
  · exact ⟨_, by assumption⟩
  · exact absurd h (by simp)
/-- Cell 0 RUNNING, ticks running. -/
def runCell (s : State) : State := { s.modCell 0 fun k => { k with st := 2 } with ticking := true }

theorem test_witness_ticks :
    let s := runCell (base 2)
    let d := s.modCell 0 fun k => { k with acked := false }
    let d := { d with pwr := { d.pwr with stage := 2, lock := 0xFF } }
    (State.reset.ticking = false ∧ s.ticking = true ∧ (s.cell 0).st = 2 ∧ (s.cell 0).restarting = false ∧ (s.cell 0).startPend = false ∧ (s.cell 0).stopPend = false ∧
      s.homeLost = false ∧ ((List.range 48).all fun c => (s.core c).locked || (!(s.core c).preempt && (s.core c).switched)) = true ∧
      (d.cell 0).acked = false ∧ (s.cell 0).acked = true ∧
      ¬ (((s.modCore 0 fun k => { k with entry := 5 }).core 0).entry = 0xFF)) ∧
    (nexts (exec .inputCutoff s) { s with cutoff := true } && nexts (exec .tick State.reset) State.reset &&
      nextHas (exec .tick s) (fun t => t.frame == 1 && t.fc == 0) && nextHas (exec .tick { s with frame := 2 ^ 48 - 1 }) (fun t => t.frame == 0) &&
      nextHas (exec (.tickAck 0) d) (fun t => (t.cell 0).acked) && nextHas (exec (.tickAckDeadline 0) d) (fun t => (t.cell 0).st == 4 && t.rd .cellDownwhy 0 == 0x81000000) &&
      nexts (exec (.tickAckDeadline 0) s) s) = true :=
  ⟨by decide +kernel, by decide +kernel⟩

theorem test_witness_calibration_slack_rotation :
    let s := runCell (base 2)
    let b := s.modCell 0 fun k => { k with cal := 2 }
    let v := s.modCore 0 fun k => { k with preempt := true }
    let idle := (State.reset).wr .frmRotAddr 0 0 0x0B00
    let rot := RegAt.mk .frmRotData 0 0
    (tgt s .host ⟨.frmSlackClr, 0, 0⟩ = true ∧ tgt s .host rot = true) ∧
    (s.calFrame 0 = true ∧ (s.rowAttr 0 0).getLsbD 16 = true ∧ (s.cell 0).cal = 0 ∧ (b.cell 0).cal ≠ 0 ∧ s.calFrame 1 = false ∧ (s.cell 0).calDue.getLsbD 1 = false ∧
      (v.core 0).preempt = true ∧ (v.core 0).slackCounted = false ∧ (v.core 0).locked = false ∧ idle.rotCell = some 2 ∧ idle.cellIdle 2 = true ∧ s.cellIdle 0 = false ∧
      idle.rotWord = 11 ∧ idle.rdf .frmRotAddr 0 0 16 16 = 0) ∧
    (nextHas (exec (.calibrationSlot 0) s) (fun t => (t.cell 0).cal == 1 && t.rdf .memStat 0 0 15 0 == 1) &&
      nextHas (exec (.calibrationSlot 0) b) (fun t => (t.cell 0).cal == 2 && (t.cell 0).calDue == 1) && nexts (exec (.calibrationSlot 1) s) s &&
      nextHas (exec (.calibrationSlotEnd 1) b) (fun t => (t.cell 0).cal == 0) && nextHas (exec (.slackViolation 0) v) (fun t => t.rdf .frmSlack 0 0 31 16 == 1) &&
      nexts (exec (.slackClear .host 1) (s.wr .frmSlack 0 0 7)) s && nexts (exec (.slackClear .host 2) (s.wr .frmSlack 0 0 7)) (s.wr .frmSlack 0 0 7) &&
      nexts (exec (.rotDataAccess .host (some 5)) s) (s.reject .host 0 rot.key) &&
      nextHas (exec (.rotDataAccess .host (some 0x01020304)) idle) (fun t => t.rotEntry 0 44 == 4 && t.rotEntry 0 47 == 1)) = true :=
  ⟨by decide +kernel, by decide +kernel, by decide +kernel⟩

theorem test_witness_preemption_and_switch :
    let s := runCell (base 2)
    let p := s.modCore 0 fun k => { k with preempt := true, switched := false, next := some (0xF1, none, 0) }
    let st := s.modCore 0 fun k => { k with preempt := true, switched := false, next := some (0xFF, none, 0) }
    let fx := p.modCore 0 fun k => (k.put 1 (fixW 1)).put 2 (fixW 3)
    let m := (holding [(8, hdrW 2 5), (9, Word.raw 5), (10, Word.raw 5)] p).modCore 0 fun k => (k.put 1 (mkWord 0x13 false 0 8)).put 2 (fixW 3)
    let w := s.modCore 0 fun k => { k with switched := false, next := some (0xF1, none, 0) }
    let h := (runCell (partSt 0 [] id)).modCore 0 fun k => { k with switched := false, next := some (0xFF, none, 0) }
    let hf := h.setFilled 0 0 true
    let lf := (leaveStrand 0 0x10000).run.run hf
    let lw := (leaveStrand 0 0x10000).run.run (h.modCell 0 fun k => { k with filling := some 1 })
    let q := ((runCell (base 2)).modPart 5 fun q => { q with st := 3, ctx0 := 0x10000 }).setFilled 0 0 true
    let q := { q with cutoff := true, rot := [(0, 5)] }
    let l := (s.setFilled 0 0 true).modCore 0 fun k => { k with relock := [4] }
    (s.canIssue 0 = true ∧ p.canIssue 0 = true ∧ (p.core 0).preempt = true ∧ (p.core 0).level ≠ 3 ∧ (p.core 0).pbit 6 = false ∧ (p.core 0).flip = false ∧ (p.core 0).locked = false ∧
      (st.core 0).stays = true ∧ (p.core 0).stays = false ∧ (s.core 0).next = none ∧ (w.core 0).preempt = false ∧ (w.core 0).switched = false ∧ w.recordOf 0 = none ∧
      (w.core 0).next = some (0xF1, none, 0) ∧ hf.recordOf 0 = some 0x10000 ∧ s.cutoff = false ∧ s.fc + 64 < s.period ∧ { s with fc := 1984 }.period ≤ 1984 + 64 ∧
      (l.core 0).relock.contains 4 = true ∧ (l.acquireS 0 4).2 = true ∧ (s.core 0).relock.contains 4 = false ∧
      q.rowRuns 0 ((q.frame + 1) % q.rowsOf 0) 0 = ((5 : BitVec 8), some 5, 0) ∧ q.recordFor 0 5 (some 5) 0 = some 0x10000 ∧ (q.core 0).part = none ∧ (q.cell 0).st = 2 ∧
      (q.coreRead 0 0x100C0).isSome = true) ∧
    (okB lf = true ∧ (match lw.1 with | .error (.wait _) => true | _ => false) = true) ∧
    (nexts (exec (.preemptionPoint 0 5) s) s && nexts (exec (.preemptionLockup 0) s) s && nexts (exec (.microcodePreempt 0 0 9 1 2 0) s) s && nexts (exec (.microcodePreempt 0 0 9 1 2 0) fx) fx &&
      nextHas (exec (.preemptionPoint 0 300) p) (fun t => t.rdf .frmSlack 0 0 15 0 == 300 && !(t.core 0).preempt && !(t.core 0).switched) &&
      nextHas (exec (.preemptionPoint 0 70000) st) (fun t => t.rdf .frmSlack 0 0 15 0 == 65535 && (t.core 0).switched) &&
      nextHas (exec (.microcodePreempt 0 9 9 1 2 0) m) (fun t => (t.core 0).pbit 3 && (t.core 0).ucResume == 9) &&
      nextHas (exec (.preemptionLockup 0) p) (fun t => (t.core 0).locked && fld (t.rd .cluCoreStat 0 0) 27 24 == 6) && nexts (exec (.contextSwitch 0) s) s &&
      nextHas (exec (.contextSwitch 0) w) (fun t => (t.core 0).entry == 0xF1 && (t.core 0).switched) &&
      nexts (exec (.contextSwitch 0) hf) (((lf.2.dropShadow 0).modCore 0 Core.vacate).enterStrand 0) && nexts (exec (.contextPrefetch 0) s) s &&
      nexts (exec (.contextPrefetch 0) { s with cutoff := true }) { s with cutoff := true } && nextHas (exec (.contextPrefetch 0) q) (fun t => (t.core 0).locks.contains 0x2018) &&
      nextHas (exec (.lockedLineReread 0 4) l) (fun t => (t.core 0).locks == [4] && (t.core 0).relock == []) && nexts (exec (.lockedLineReread 0 4) s) s) = true :=
  ⟨by decide +kernel, by decide +kernel, by decide +kernel⟩

/-- Core 0 of partition 5 at level S under the root of `paged`. -/
def pagedSt (w : Option WalkSt) : State := (paged (partSt 1 [] id)).modCore 0 fun k => { k.setSpv 0x040 0x20000008000 with walk := w }

theorem test_witness_walks_devices_fills :
    let s := pagedSt none
    let w : WalkSt := ⟨0x300, .load, 0, 1, 0x8000, false⟩
    let k := pagedSt (some w)
    let a := k.walkStep 0 false 1 ((k.core 0).spv 0x047) .load 0 0x300 1 0x8000
    let f := pagedSt (some ⟨0x40300, .load, 0, 1, 0x8000, false⟩)
    let p2 := (s.setMemWord 0x8000 (mkWord 0x0B false 0 (BitVec.ofNat 64 (1 + 0x41 * 4096)))).setMemWord 0x8200 (mkWord 0x0B false 0 0x1E7)
    let g := p2.modCore 0 fun k => { k with walk := some w }
    let b := (base 2).setFilled 0 0 true
    let sp := holding [(0x1000, fixW 5)] b
    let st : Stream := { last := 8, stride := 1, hits := 2, ahead := 8 }
    let sm := b.modCore 0 fun k => { k with streams := [st] }
    let far := (base 2).modCore 0 fun k => { k with streams := [{ st with last := 2 ^ 36, ahead := 2 ^ 36 }] }
    let mb := (partSt 0 [] fun q => { q with rk0 := { reg := [(0x307, 1)] } }).modCore 0 fun k => { k with mark := (List.range 8).map (BitVec.ofNat 64) }
    let mf := mb.modCore 0 fun k => { k with mark := (List.range 9).map (BitVec.ofNat 64) }
    let br := loadSt.modCore 0 fun k => { k with wait := .barrier (.car 0 7 2) }
    (s.canIssue 0 = true ∧ (s.core 0).walk = none ∧ (s.core 0).bare 1 = false ∧ preWalk 1 (rootMode ((s.core 0).root 1)) .load 0x300 = none ∧
      (s.core 0).tlbFind (rootAsid ((s.core 0).root 1)) 0x300 = none ∧ (k.core 0).walk = some w ∧ (k.core 0).level = 1) ∧
    ((match a.1 with | .leaf _ => true | _ => false) = true ∧
      (match (f.walkStep 0 false 1 ((f.core 0).spv 0x047) .load 0 0x40300 1 0x8000).1 with | .fault _ _ _ _ => true | _ => false) = true ∧
      (match (g.walkStep 0 false 1 ((g.core 0).spv 0x047) .load 0 0x300 1 0x8000).1 with | .next j b => j == 0 && b == 0x8200 | _ => false) = true) ∧
    ((b.cell 0).l2off = false ∧ b.scratchAt 0 0x1000 = none ∧ b.dataReach 0 0x1000 = true ∧ (b.acquireS 0 0x200).2 = true ∧ (b.core 0).streams = [] ∧
      st.nextLine = some 9 ∧ sm.prefetchPa 0 9 = some 72 ∧ (sm.acquireS 0 9).2 = true ∧ ((base 2).acquireS 0 9).2 = true ∧ (far.core 0).streams ≠ [] ∧
      far.prefetchPa 0 (2 ^ 36 + 1) = none ∧ (b.core 0).sb = [] ∧ sp.cachesRun 0 = true ∧ (sp.l2Write 0 0x1000 (fixW 5)).2 = true ∧
      (mb.rk 5 0).mq.length + (mb.core 0).mark.length = (mb.rk 5 0).spv 0x307 * 8 ∧ (mf.rk 5 0).spv 0x307 * 8 + 1 = (mf.rk 5 0).mq.length + (mf.core 0).mark.length ∧
      (br.core 0).wait = .barrier (.car 0 7 2) ∧ (b.core 0).wait = .none) ∧
    (nextHas (exec (.walk 0 0x300 .load) s) (fun t => (t.core 0).walk == some w) && nextHas (exec (.walkReadReturn 0) k) (fun t =>
        (t.core 0).walk.isNone && ((t.core 0).tlbFind 0 0x300).isSome) &&
      nextHas (exec (.walkReadReturn 0) f) (fun t => (t.core 0).sp 0x02A == Word.nat 0x10) && nextHas (exec (.walkReadReturn 0) g) (fun t =>
        (t.core 0).walk == some { w with level := 0, table := 0x8200 }) &&
      nextHas (exec (.l1dFill 0 0x1000 .load false) b) (fun t => (t.core 0).l1d != []) && nexts (exec (.prefetch 0) b) b &&
      nextHas (exec (.prefetch 0) sm) (fun t => (t.core 0).streams == [{ st with ahead := 9 }]) && nextHas (exec (.prefetch 0) far) (fun t => (t.core 0).streams == []) &&
      nexts (exec (.storePerform 0) b) b && nextHas (exec (.storePerform 0) sp) (fun t => (t.core 0).sb == [] && (t.l2Line 0 0x200).word 0 == fixW 5) &&
      nextHas (exec (.markBufferFlush 0) mb) (fun t => (t.rk 5 0).mq.length == 8 && (t.core 0).mark == []) && nexts (exec (.markBufferFlush 0) mf) mf &&
      nextHas (exec (.barrierRetry 0) br) (fun t => nexts (exec (.car 0 7 2) br) t) && nexts (exec (.barrierRetry 0) b) b) = true :=
  ⟨by decide +kernel, by decide +kernel, by decide +kernel, by decide +kernel⟩

/-- A device page of the PF registers in the table of partition 5: virtual page 1 of a level-T core. -/
def deviceSt : State :=
  ((((base 2).setFilled 0 0 true).setMemWord 0x8000 (mkWord 0x0B false 0 (BitVec.ofNat 64 (1 + 0x41 * 4096)))).setMemWord 0x8201
    (mkWord 0x0B false 0 (BitVec.ofNat 64 (0x1C7 + 0x10 * 4096)))).modCore 0 fun k => k.setSpv 0x041 0x20000008000

theorem test_witness_device_access :
    let r := deviceSt.translate 0 2 .load 0x200
    let w := deviceSt.translate 0 2 .store 0x200
    ((match r.1 with | .ok e _ => e.dev | _ => false) = true ∧ (match w.1 with | .ok e _ => e.dev | _ => false) = true ∧ deviceSt.canIssue 0 = true) ∧
    (match r.1 with | .ok _ pa => okB ((deviceLoad 0 pa).run.run r.2) | _ => false) = true ∧
    (match w.1 with | .ok _ pa => okB ((deviceStore 0 pa (fixW 1)).run.run w.2) | _ => false) = true ∧
    (nextHas (exec (.deviceAccess 0 0x200 none) deviceSt) (fun _ => true) && nextHas (exec (.deviceAccess 0 0x200 (some (fixW 1))) deviceSt) (fun _ => true)) = true :=
  ⟨by decide +kernel, by decide +kernel, by decide +kernel, by decide +kernel⟩

theorem test_witness_control_store :
    let s := ((State.reset.wr .cluCsdata 0 0 5).wr .cluCsaddr 0 0 8191).modClu 0 fun k => { k with csOk := true }
    let l := State.reset.wr .cluCsctl 0 0 0x80000000
    let m := State.reset.wr .cluCsctl 0 0 0x80000002
    let e := State.reset.wr .cluCserr 0 0 0x80000007
    (tgt s .shed ⟨.cluCsdata, 0, 2⟩ && tgt s .shed ⟨.cluCsctl, 0, 0⟩ && tgt s .shed ⟨.cluCsfix, 0, 0⟩) = true ∧
    (s.csLocked 0 = false ∧ l.csLocked 0 = true ∧ l.csUe 0 = false ∧ e.csUe 0 = true ∧ (m.rd .cluCsctl 0).getLsbD 1 = true ∧ (l.rd .cluCsctl 0).getLsbD 1 = false ∧
      s.canIssue 3 = true ∧ 3 / 4 = 0) ∧
    (nexts (exec (.csdata2Write .shed 0 1) l) (l.reject .shed 0 (RegAt.key ⟨.cluCsdata, 0, 2⟩)) &&
      nextHas (exec (.csLock .shed 0 0x80000000) s) (fun t => t.rd .cluCsctl 0 == 0x80000002) && nexts (exec (.csLock .shed 0 0x80000000) l) l &&
      nexts (exec (.csppClear .shed 0 0x100) (s.wr .cluCspp 0 0 9)) s &&
      nexts (exec (.csMeasurementComplete 0) l) l && nexts (exec (.csfix .shed 0 1) s) (s.reject .shed 0 (RegAt.key ⟨.cluCsfix, 0, 0⟩)) &&
      nextHas (exec (.microcodePpViolation 3 193) s) (fun t => t.rd .cluCspp 0 == 0x000100C1) &&
      nextHas (exec (.microcodePpViolation 3 192) s) (fun t => t.rd .cluCspp 0 == 0x000000C0) &&
      nextHas (exec (.controlStoreUe 3 8191 false) s) (fun t => (t.core 3).locked && (t.clu 0).csBad.contains 8191)) = true :=
  ⟨by decide +kernel, by decide +kernel, by decide +kernel⟩

theorem test_witness_register_writes :
    let s := State.reset
    let u := s.reject .host 2 0x1234
    let v := { s with pwr := { s.pwr with numVf := 4 } }
    let lo := RegAt.key ⟨.frmPeriod, 0, 0⟩ / 8 * 8
    let hole := (List.range 4096).find? fun i => findBlk s.build (i * 4096) Blk.all == none
    (findBlk s.build 0xFFFFFC Blk.all = none ∧ (findBlk s.build (RegAt.key ⟨.glbLockerr, 0, 0⟩) Blk.all).isSome = true ∧
      (match findBlk s.build (RegAt.key ⟨.almCtl, 0, 0⟩) Blk.all with | some x => admitsBlk .host x.1 | none => true) = false ∧
      (match findBlk s.build (RegAt.key ⟨.glbLockerr, 0, 0⟩ + 0xF00) Blk.all with | some x => admitsBlk .host x.1 | none => false) = true ∧
      locate s.build (RegAt.key ⟨.glbLockerr, 0, 0⟩ + 0xF00) = none ∧ (s.rd .glbLockerr).getLsbD 31 = false ∧ (u.rd .glbLockerr).getLsbD 31 = true ∧
      RegName.glbLockerr.row.blk = .glb ∧ RegName.cpxCtl.row.blk = .cpx ∧ v.funcOk 1 = true ∧ vfReg 0xFFC = none ∧ hole.isSome = true) ∧
    (nexts (exec (.registerWrite .host 0 2 7 0 4) s) s && nexts (exec (.registerWrite .host 0 0x1000000 7 0 4) s) s &&
      nexts (exec (.registerWrite .host 0 0xFFFFFC 7 0 4) s) (s.reject .host 2 0xFFFFFC) &&
      nexts (exec (.registerWrite .host 0 (RegAt.key ⟨.almCtl, 0, 0⟩) 1 0 4) s) (s.reject .host 1 (RegAt.key ⟨.almCtl, 0, 0⟩)) &&
      nexts (exec (.registerWrite .host 0 (RegAt.key ⟨.glbLockerr, 0, 0⟩ + 0xF00) 1 0 4) s) (s.reject .host 2 (RegAt.key ⟨.glbLockerr, 0, 0⟩ + 0xF00)) &&
      nexts (exec (.registerWrite .host 0 (RegAt.key ⟨.frmPeriod, 0, 0⟩) 1 0 4) s) (s.wr .frmPeriod 0 0 1) &&
      nexts (exec (.registerWrite .host 1 0xFFC 1 0 4) v) v && nexts (exec (.registerWrite .host 1 0xFFFFFC 1 0 4) v) v &&
      nexts (exec (.registerWrite .host 0 lo 7 0 8) s) (match exec (.registerWrite .host 0 lo 7 0 4) s with
        | .next t => match exec (.registerWrite .host 0 (lo + 4) 0 0 4) t with | .next x => x | _ => v
        | _ => v) && nexts (exec (.registerWrite .host 0 lo 7 0 2) s) s && nexts (exec (.registerWrite .host 0 4 7 0 8) s) s) = true :=
  ⟨by decide +kernel, by decide +kernel⟩

/-! ### Witnesses: collection, requests at their home, snoops and answers -/

/-- Partition 5 RUNNING in cell 0 with collection state `r`, an identity root, ticks running. -/
def rakeSt (r : Rk) (w : List (Nat × Nat × Nat × RakeWork) := []) : State :=
  { ((((runCell (paged (partSt 1 [] id))).modRk 5 0 fun _ => r).setMemWord 0x1F000 (Word.fix 0x3000000000000000)).modClu 0 fun k => { k with work := w }) with rotAttr := [(0, 8)] }

theorem test_witness_rake :
    let z := { runCell (base 2) with rotAttr := [(0, 8)] }
    let full := z.modClu 0 fun k => { k with lines := 16383 }
    let s := rakeSt {} [(5, 0, 3, .vec), (5, 0, 4, .vec)]
    let m := rakeSt { phase := 1 }
    let r := rakeSt { phase := 3 }
    let c := rakeSt { clearing := true }
    let d := rakeSt { phase := 2, defer := true, flipPend := true, reg := [(0x300, 0x40000), (0x301, 1), (0x303, 0x1F000)] }
    let j : Job := { part := 5, side := 0, strand := 0, ticket := 0, clu := 0, fn := 1, st := .running, params := [], keys := [], ops := [(1, 0x40001, 0)], pages := [] }
    let q := d.setJob 0 (some j)
    let ass := ((s.modClu 0 fun k => { k with lines := 16383 }).modCore 1 fun k => { k with entry := 0xF0 })
    let on := s.modClu 0 fun k => { k with prog := 1 }
    let cd := rakeSt { phase := 1, reg := [(0x300, 0x40000), (0x301, 1), (0x305, 0x1F000)] } [(5, 0, 2, .cards)]
    let cu := (rkUnit ⟨0, 5, 0⟩ .cards).run.run (cd.modClu 0 fun k => { k with prog := 1 })
    let two := fun (ph : Nat) => ((partSt 1 [] fun q => { q with paired := true, cell1 := 1 }).modRk 5 0 fun _ => { phase := ph }).modRk 5 1 fun _ => { phase := ph }
    ((base 2).ticking = false ∧ z.ticking = true ∧ z.alm.zbusy = false ∧ (z.cell 0).st = 2 ∧ fld (full.rowAttr (full.cell 0).row 0) 13 0 ≤ (full.clu 0).lines ∧
      (coresOfClu 0).all (fun c => (full.core c).entry != 0xF0) = true ∧ ¬ fld (z.rowAttr (z.cell 0).row 0) 13 0 ≤ (z.clu 0).lines ∧
      (z.clu 0).work = [] ∧ (z.clu 0).prio = [] ∧ z.rakeParts 0 = [] ∧ (s.clu 0).work = (5, 0, 3, .vec) :: [(5, 0, 4, .vec)] ∧ s.rakes 5 = true ∧
      ¬ fld (s.rowAttr (s.cell 0).row 0) 13 0 ≤ (s.clu 0).lines ∧ (ass.core 1).locked = false ∧ (ass.clu 0).ucEntry 0x00A8 = none ∧ (ass.core 1).entry = 0xF0 ∧
      fld (ass.rowAttr (ass.cell 0).row 0) 13 0 ≤ (ass.clu 0).lines ∧ (ass.rakeNext 0 true).2 = true ∧ (on.clu 0).prog ≠ 0 ∧ on.rakes 5 = true ∧
      (s.rakeNext 0 false).2 = true ∧ okB cu = true ∧
      (match cu.1 with | .ok x => decide (x.2 = 2) | _ => false) = true) ∧
    ((m.part 5).st ≠ 0 ∧ (m.part 5).paired = false ∧ (m.part 5).lost = 0 ∧ m.markDone 5 0 = true ∧ r.markDone 5 0 = false ∧ r.relocDone 5 0 = true ∧
      m.relocDone 5 0 = false ∧ okB ((rkMarkComplete ⟨0, 5, 0⟩).run.run m) = true ∧ okB ((rkRelocComplete ⟨0, 5, 0⟩).run.run r) = true ∧
      ((two 1).part 5).paired = true ∧ ((two 1).part 5).lost = 0 ∧ (two 1).markDone 5 0 = true ∧ (two 1).markDone 5 1 = true ∧ (two 3).relocDone 5 0 = true ∧
      (two 3).relocDone 5 1 = true ∧ ((two 1).part 5).st ≠ 0 ∧
      (c.rk 5 0).clear = [] ∧ c.rakeBusy 5 0 = false ∧ s.rakeBusy 5 0 = true ∧ (m.rk 5 0).defer = false ∧
      (d.rk 5 0).defer = true ∧ (d.part 5).st = 3 ∧ (d.rk 5 0).phase = 2 ∧ (d.rk 5 0).flipPend = true ∧ d.deferring 5 0 = false ∧ q.deferring 5 0 = true ∧
      (q.rk 5 0).defer = true) ∧
    (nexts (exec (.rakeLine 0) (base 2)) (base 2) && nexts (exec (.rakeLine 0) full) full && nextHas (exec (.rakeLine 0) z) (fun t => (t.clu 0).prog == 0) &&
      nextHas (exec (.rakeLine 0) s) (fun t => (t.clu 0).work == [(5, 0, 4, .vec)] && (t.clu 0).lines == 1 && t.rdf .cluRkstat 0 0 11 8 == 3) &&
      nextHas (exec (.rakeLine 0) cd) (fun t => (t.clu 0).work == [(5, 0, 2, .cards)] && (t.clu 0).prog == 1 && (t.clu 0).lines == 1) &&
      nextHas (exec (.rakeLine 0) (cd.modClu 0 fun k => { k with prog := 1 })) (fun t => (t.clu 0).work == [(5, 0, 2, .card 60 0 false)] && (t.clu 0).prog == 0) &&
      nextHas (exec (.rakeLine 0) ass) (fun t => (t.clu 0).work == [(5, 0, 4, .vec)] && (t.clu 0).lines == 16383) &&
      nextHas (exec (.markCompletion 5 1) (two 1)) (fun t => (t.rk 5 0).nextPhase == some 2 && (t.rk 5 1).nextPhase == some 2) &&
      nextHas (exec (.relocationCompletion 5 0) (two 3)) (fun t => (t.rk 5 0).nextPhase == some 0 && (t.rk 5 1).nextPhase == some 0) &&
      nextHas (exec (.markCompletion 5 0) m) (fun t => (t.rk 5 0).nextPhase == some 2) &&
      nextHas (exec (.relocationCompletion 5 0) r) (fun t => (t.rk 5 0).nextPhase == some 0) &&
      nextHas (exec (.regionClearingComplete 5 0) c) (fun t => (t.rk 5 0).clean && !(t.rk 5 0).clearing) &&
      nextHas (exec (.deferredRelocateFlip 5 0) d) (fun t => (t.rk 5 0).phase == 3) &&
      nextHas (exec (.deferredRelocateFlip 5 0) q) (fun t => (t.rk 5 0).defer && (t.rk 5 0).phase == 2)) = true :=
  ⟨by decide +kernel, by decide +kernel, by decide +kernel⟩

/-- Line 5 of cell 0 with directory entry `e` and, in cluster 0, state `st`; region 0 filled. -/
def lineSt (e : DirEnt) (st : L2St) (ws : List Word := []) : State :=
  ((fullSt []).setDir 5 e).setL2 0 5 { st := st, ws := (List.range ws.length).zip ws }
def eight : List Word := (List.range 8).map fun i => fixW (Int.ofNat (i + 1))

theorem test_witness_requests :
    let u := base 2
    let f := fullSt []
    let sh := lineSt { st := 1, shr := 1 } .S
    let x := (fullSt []).setDir 5 { st := 2, shr := 8 }
    let w := lineSt { st := 2, shr := 1 } .M eight
    let v := (w.modClu 0 fun k => { k with evb := [⟨5, true, eight⟩] }).setL2 0 5 {}
    let c := v.modClu 0 fun k => { k with evb := [⟨5, false, eight⟩] }
    let busy := f.setMshr 0 5 (some ⟨.rds, 0, false⟩)
    let l := w.modCore 0 fun k => { k with locks := [5] }
    (cellOfLine 5 = u.build.cellOfClu 0 ∧ u.canRequest 0 5 = true ∧ f.canRequest 0 5 = true ∧ (f.dirEnt 5) = {} ∧ u.evEntry 0 5 = none ∧ (u.dirInSet 5).length < 16 ∧
      (u.l2Line 0 5).st = .I ∧ u.lineFilled 5 = false ∧ f.lineFilled 5 = true ∧ sh.canRequest 0 5 = true ∧ (sh.l2Line 0 5).st = .S ∧ (sh.dirEnt 5).shr = cbit (sh.cluIdx 0) ∧
      x.canRequest 0 5 = true ∧ (x.l2Line 0 5).st = .I ∧ (x.dirEnt 5).shr = cbit 3 ∧ 3 ≠ x.cluIdx 0 ∧ busy.canRequest 0 5 = false ∧
      w.l2Locked 0 5 = false ∧ w.mshrOf 0 5 = none ∧ (w.l2Line 0 5).st = .M ∧ (w.clu 0).evb.length < 16 ∧ l.l2Locked 0 5 = true ∧
      v.evEntry 0 5 = some ⟨5, true, eight⟩ ∧ c.evEntry 0 5 = some ⟨5, false, eight⟩ ∧ (v.dirEnt 5).trans = 0 ∧ v.dir.all (fun z => z.2.queue == []) = true ∧ v.net = [] ∧
      ((v.dirEnt 5).half ||| (v.dirEnt 5).hdr) &&& cbit (v.cluIdx 0) = 0 ∧ v.flipArmed 5 = false ∧ u.dirRes = [] ∧
      f.lineFilled 5 = true ∧ 3 < x.build.cluPerCell ∧ (x.dirEnt 5).queue = [] ∧ (x.dirEnt 5).trans = 0) ∧
    (nextHas (exec (.rds 0 5) u) (fun t => t.net == [⟨.grantS, 0, 5, some emptyLine⟩] && (t.dirEnt 5).st == 1) && nextHas (exec (.rds 0 5) f) (fun t => (t.dirEnt 5).trans == 1) &&
      nextHas (exec (.zown 0 5) f) (fun t => t.net == [⟨.grantM, 0, 5, some emptyLine⟩] && (t.dirEnt 5).st == 2) && nextHas (exec (.rdx 0 5) u) (fun t => (t.dirEnt 5).fillWait) &&
      nextHas (exec (.upg 0 5) sh) (fun t => t.net == [⟨.grantM, 0, 5, none⟩]) && nextHas (exec (.rdx 0 5) x) (fun t => t.net == [⟨.snpi, 3, 5, none⟩]) &&
      nextHas (exec (.rds 0 5) x) (fun t => t.net == [⟨.snps, 3, 5, none⟩]) && nexts (exec (.upg 0 5) busy) busy && nexts (exec (.l2Eviction 0 5) l) l &&
      nextHas (exec (.l2Eviction 0 5) w) (fun t => ((t.clu 0).evb.map fun e => (e.line, e.dirty)) == [(5, true)] && (t.l2Line 0 5).st == .I) &&
      nextHas (exec (.wbd 0 5 true) v) (fun t => t.memWord 47 == fixW 8 && t.net == [⟨.wback, 0, 5, none⟩] && (t.dirEnt 5).st == 0 && (t.dirEnt 5).trans == 5) &&
      nextHas (exec (.wbd 0 5 false) v) (fun t => (t.dirEnt 5).wbHeld 0 && (t.dirEnt 5).trans == 5) &&
      nextHas (exec (.evc 0 5) c) (fun t => t.memWord 47 == Word.empty && (t.dirEnt 5).st == 0) && nexts (exec (.wbd 0 5 true) f) f) = true :=
  ⟨by decide +kernel, by decide +kernel⟩

/-- A message `k` about line 5 under way to or from cluster 0. -/
def withMsg (s : State) (k : MsgKind) (d : Option (List Word) := none) : State := { s with net := [⟨k, 0, 5, d⟩] }
def takesMsg (s : State) (home : Bool) (k : MsgKind) : Bool := match s.takeMsg home 0 5 with | some (x, _) => x.kind == k && x.clu == 0 && x.line == 5 | none => false

theorem test_witness_snoops :
    let w := lineSt { st := 2, shr := 1 } .M eight
    let sh := lineSt { st := 1, shr := 1 } .S eight
    let i := (fullSt []).modClu 0 fun k => { k with evb := [⟨5, false, eight⟩] }
    let g := (fullSt []).setMshr 0 5 (some ⟨.rds, 0, false⟩)
    let b := (fullSt []).setMshr 0 5 (some ⟨.rds, 1, true⟩)
    let r : HReq := { kind := .rdx, agent := 1 }
    let h := (fullSt []).setDir 5 { st := 2, shr := 1, trans := 2, need := 1, req := some r }
    let h2 := (fullSt []).setDir 5 { st := 1, shr := 3, trans := 2, need := 3, req := some r }
    let lo := (fullSt []).setDir 5 { st := 2, shr := 1, trans := 2, need := 3, req := some r }
    let wb := i.setDir 5 { trans := 5, req := some { kind := .wbd, agent := 0 } }
    (takesMsg (withMsg w .snps) true .snps && takesMsg (withMsg w .grantM) true .grantM && takesMsg (withMsg w .wback) true .wback && takesMsg (withMsg g .retry) true .retry &&
      takesMsg (withMsg h .ackd (some eight)) false .ackd && takesMsg (withMsg h .eif) false .eif && takesMsg (withMsg lo .lost) false .lost) = true ∧
    ((w.l2Line 0 5).st ≠ .I ∧ (i.l2Line 0 5).st = .I ∧ (i.evEntry 0 5).isSome = true ∧ ((withMsg g .grantE (some eight)).install 0 5 .E (some eight)).isSome = true ∧
      ((withMsg g .grantS (some eight)).install 0 5 .S (some eight)).isSome = true ∧ (({ g with net := [] } : State).install 0 5 .M (some eight)).isSome = true ∧
      w.dir.all (fun z => z.2.queue == []) = true ∧ (g.mshrOf 0 5).isSome = true ∧ ((b.mshrOf 0 5).map Mshr.backoff) = some true ∧
      (h2.dirEnt 5).trans ≠ 0 ∧ (h2.dirEnt 5).need &&& ~~~ (cbit (h2.cluIdx 0)) ≠ 0 ∧ (h.dirEnt 5).need = cbit (h.cluIdx 0) ∧ (h.dirEnt 5).req = some r ∧
      (h.dirEnt 5).half &&& cbit (h.cluIdx 0) = 0 ∧ (lo.dirEnt 5).st = 2 ∧ (lo.dirEnt 5).need &&& ~~~ (cbit (lo.cluIdx 0)) ≠ 0 ∧ lo.flipArmed 5 = false ∧
      w.takeMsg false 0 5 = none ∧ (h.dirEnt 5).owes ≠ none ∧ (w.dirEnt 5).owes = none ∧ r.noData = false ∧ (h.dirEnt 5).eif = 0 ∧ (h.dirEnt 5).fillWait = false ∧
      (h.dirEnt 5).data = none ∧ h.dir.all (fun z => z.2.queue == []) = true ∧ (lo.dirEnt 5).data = none ∧ (wb.dirEnt 5).trans = 5 ∧ (wb.dirEnt 5).req = some ⟨.wbd, 0, 0, [], Word.empty, false, 0⟩ ∧
      wb.cluIdx 0 = 0 ∧ wb.dir.all (fun z => z.2.queue == []) = true) ∧
    (nextHas (exec (.snps 0 5) (withMsg w .snps)) (fun t => (t.l2Line 0 5).st == .S && t.net.map Msg.kind == [.ackd]) &&
      nextHas (exec (.snpi 0 5) (withMsg sh .snpi)) (fun t => (t.l2Line 0 5).st == .I && t.net.map Msg.kind == [.ack]) &&
      nextHas (exec (.snpd 0 5) (withMsg w .snpd)) (fun t => (t.l2Line 0 5).st == .M && t.net.map Msg.kind == [.ackd]) &&
      nextHas (exec (.snpd 0 5) (withMsg i .snpd)) (fun t => t.net.map Msg.kind == [.eif]) &&
      nextHas (exec (.grant (.clu 0) 5) (withMsg g .grantE (some eight))) (fun t => (t.l2Line 0 5).st == .E && (t.mshrOf 0 5).isNone) &&
      nextHas (exec (.wback 0 5) (withMsg i .wback)) (fun t => (t.clu 0).evb == []) && nextHas (exec (.wback 0 5) (withMsg wb .wback)) (fun t => (t.dirEnt 5).trans == 0) &&
      nextHas (exec (.retry (.clu 0) 5) (withMsg g .retry)) (fun t => (t.mshrOf 0 5) == some ⟨.rds, 1, true⟩) &&
      nextHas (exec (.retryBackoffExpiry (.clu 0) 5) b) (fun t => (t.dirEnt 5).trans == 1) && nexts (exec (.retryBackoffExpiry (.clu 0) 5) g) g &&
      nextHas (exec (.ack 0 5) (withMsg h2 .ack)) (fun t => (t.dirEnt 5).need == 2) &&
      nextHas (exec (.ackd 0 5) (withMsg h .ackd (some eight))) (fun t => t.net == [⟨.grantM, 1, 5, some eight⟩] && (t.dirEnt 5).shr == 2) &&
      nextHas (exec (.ack 0 5) (withMsg h .ack)) (fun t => (t.dirEnt 5).trans == 1) && nextHas (exec (.eif 0 5) (withMsg h .eif)) (fun t => (t.dirEnt 5).eif == 1) &&
      nextHas (exec (.lost 0 5) (withMsg lo .lost)) (fun t => t.memWord 47 == Word.poison 2 47 && (t.dirEnt 5).need == 2) && nexts (exec (.eif 0 5) w) w &&
      nextHas (exec (.homeResponseTimeout 5) h) (fun t => (t.cell 0).st == 4) && nexts (exec (.homeResponseTimeout 5) w) w) = true :=
  ⟨by decide +kernel, by decide +kernel, by decide +kernel⟩

/-! ### Witnesses: agents, DRAM reads, cache errors, fills, maintenance -/

theorem test_witness_agents_and_dram :
    let u := base 2
    let f := fullSt []
    let e2 : List (Nat × BitVec 8) := [(0, 1), (7, 3)]
    let cas := f.modCore 0 fun k => { k with atomics := [.cas 47 Word.empty (fixW 3), .aor 0 1] }
    let aor := f.modCore 0 fun k => { k with atomics := [.aor 47 9] }
    let rd := f.setDir 5 { trans := 1, req := some { kind := .rds, agent := 1 } }
    let re := f.setDir 5 { trans := 1, req := some { kind := .rds, agent := 1 }, reread := some e2 }
    let nc : NcMsg := { retry := false, req := { kind := .ncrd, agent := 4 }, line := 5, data := emptyLine }
    let cw : NcMsg := { retry := false, req := { kind := .cas, agent := 2 }, line := 5, wrote := true }
    let got := { f with ncNet := [nc, cw, { nc with retry := true }] }
    let ask : State := { f with ncAsk := [⟨nc.req, 5⟩] }
    let hd := f.setDir 5 { trans := 4, req := some { kind := .ncwr, agent := 4, noData := true } }
    (cellOfLine 5 < u.build.cells ∧ f.linePopulated 5 = true ∧ f.dirEnt 5 = {} ∧ (f.dirInSet 5).length < 16 ∧ f.lineFilled 5 = true ∧ u.lineFilled 5 = false ∧
      f.flipArmed 5 = false ∧ eight.length = 8 ∧ State.reset.linePopulated (2 ^ 34 - 1) = false ∧ (cas.core 0).atomics = .cas 47 Word.empty (fixW 3) :: [.aor 0 1] ∧
      (aor.core 0).atomics = [.aor 47 9] ∧ 47 / 8 = 5 ∧ (rd.dirEnt 5).wantsDram = true ∧ rd.chanHeld (rd.chanOfLine 5) = false ∧ rd.needsReread 5 e2 = true ∧
      rd.cwErr 5 0 = [] ∧ rd.cwErr 5 1 = [] ∧ rd.dir.all (fun z => z.2.queue == []) = true ∧ (re.dirEnt 5).reread = some e2 ∧ (re.dirEnt 5).wantsDram = true ∧
      cwOutcome (normErr (f.cwErr 5 0 ++ errOf 0 e2)) = .uncorrectable ∧ rd.chanOutstanding (rd.chanOfLine 5) = some 5 ∧ f.chanOutstanding 0 = none ∧ (rd.cell 0).st ≠ 4 ∧
      f.dirRes = [] ∧ (cas.core 0).sb = [] ∧ (rd.phyLost (rd.chanOfLine 5) = false) ∧ (rd.dirEnt 5).reread = none ∧ got.ncNet.find? (fun y => y.isFor (.agent 4) 5 false) = some nc ∧
      got.ncNet.find? (fun y => y.isFor (.core 2) 5 false) = some cw ∧ (got.ncNet.find? fun y => y.isFor (.agent 4) 5 true) = some { nc with retry := true } ∧
      ({ retry := true, req := nc.req, line := 5 } : NcMsg).isFor (.agent 4) 5 true = true ∧ hd.ncReaches 4 5 = true ∧ ((hd.dirEnt 5).req.map fun r => r.awaits .ncwr 4) = some true ∧
      (hd.dirEnt 5).need = 0 ∧ (hd.dirEnt 5).eif = 0 ∧ (hd.dirEnt 5).fillWait = false ∧ hd.flipArmed 5 = false ∧ hd.dir.all (fun z => z.2.queue == []) = true) ∧
    (nextHas (exec (.ncrd 4 5) f) (fun t => (t.dirEnt 5).trans == 1) && nextHas (exec (.ncrd 13 5) f) (fun t => (t.dirEnt 5).trans == 1) && nextHas (exec (.ncrd 4 5) u) (fun t => t.ncNet == [nc] && t.mem == []) &&
      nextHas (exec (.ncwr 4 5 (some eight)) f) (fun t => t.memWord 40 == fixW 1 && t.memWord 47 == fixW 8) && nextHas (exec (.ncwr 4 5 (some eight)) u) (fun t => (t.dirEnt 5).fillWait) &&
      nextHas (exec (.ncwrp 13 5 0x81 (some eight)) f) (fun t => (t.dirEnt 5).trans == 4) && nexts (exec (.ncwr 4 (2 ^ 34 - 1) (some eight)) State.reset) State.reset &&
      nextHas (exec (.cas 0) cas) (fun t => (t.dirEnt 5).trans == 4 && (t.core 0).atomics == [.aor 0 1]) && nexts (exec (.aor 0) cas) cas &&
      nextHas (exec (.aor 0) aor) (fun t => (t.dirEnt 5).trans == 4 && (t.core 0).atomics == []) && nextHas (exec (.dramReadReturn 5 e2) rd) (fun t => (t.dirEnt 5).reread == some e2) &&
      nextHas (exec (.dramReadReturn 5 []) rd) (fun t => t.net == [⟨.grantE, 1, 5, some (rd.memLine 5)⟩]) &&
      nextHas (exec (.dramReread 5 e2) re) (fun t => t.memWord 40 == Word.poison 0 40 && t.memWord 44 == Word.empty) && nexts (exec (.dramReread 5 []) rd) rd &&
      nextHas (exec (.channelTimeout (rd.chanOfLine 5)) rd) (fun t => (t.cell 0).st == 4 && t.rdf .cellDownwhy 0 0 27 24 == 3) && nexts (exec (.channelTimeout 0) f) f &&
      nextHas (exec (.grant (.agent 4) 5) got) (fun t => Tab.get (fun _ => []) t.ncGot 4 == emptyLine && t.ncNet == [cw, { nc with retry := true }]) &&
      nextHas (exec (.grant (.core 2) 5) got) (fun t => (t.core 2).casWrote == some true) && nextHas (exec (.retry (.agent 4) 5) got) (fun t => t.ncAsk == [⟨nc.req, 5⟩]) &&
      nextHas (exec (.retryBackoffExpiry (.agent 4) 5) ask) (fun t => (t.dirEnt 5).trans == 1 && t.ncAsk == []) &&
      nextHas (exec (.ncwr 4 5 none) f) (fun t => (t.dirEnt 5).owes == some 4) && nextHas (exec (.ncwr 4 5 (some eight)) hd) (fun t => t.memWord 47 == fixW 8) &&
      nexts (exec (.refresh 0 3) f) f) = true :=
  ⟨by decide +kernel, by decide +kernel⟩

theorem test_witness_cache_errors :
    let s := lineSt { st := 2, shr := 1 } .M eight
    let f := s.wr .cluL2stat 0 0 1
    let sc := s.modCell 0 fun k => { k with l2cfg := 1 }
    let sp := 3 * 2 ^ 37
    (s.scratchAt 0 46 = none ∧ (s.l2Line 0 5).st ≠ .I ∧ (s.l2Line 0 6).st = .I ∧ 15 < 16 - s.scratchWays 0 ∧ (s.failWays 0).getLsbD 15 = false ∧ (s.failWays 0).getLsbD 0 = false ∧
      (f.failWays 0).getLsbD 0 = true ∧ Tab.wf (fun _ => {}) s.l2 = true ∧ s.l2Holds 0 47 = true ∧ s.l2Holds 0 48 = false ∧ sc.scratchAt 0 sp = some (0, 0)) ∧
    (nextHas (exec (.l2DataUe 0 47 2) s) (fun t => (t.l2Line 0 5).word 7 == Word.poison 2 47 && (t.l2Line 0 5).word 5 == fixW 6) && nexts (exec (.l2DataUe 0 48 2) s) s && nexts (exec (.l2DataUe 0 47 1) s) (s.wr .cluL2ce 0 0 1) &&
      nexts (exec (.l2DataUe 0 48 1) s) s && nexts (exec (.l2DataUe 0 47 0) s) s && nextHas (exec (.l2DataUe 0 (sp + 1) 2) sc) (fun t => t.scratchWord 0 0 == Word.poison 2 sp) &&
      nextHas (exec (.l2TagParity 0 0 0) s) (fun t => (t.l2Line 0 5).st == .I && (t.failWays 0) == 1) && nextHas (exec (.l2TagParity 0 15 0) s) (fun t => (t.l2Line 0 5).st == .M) &&
      nexts (exec (.l2TagParity 0 16 0) s) s && nexts (exec (.l2TagParity 0 0 0) f) f) = true :=
  ⟨by decide +kernel, by decide +kernel⟩

theorem test_witness_fills_flips_hoe :
    let u := base 2
    let q := u.modCell 0 fun k => { k with fillq := [3, 4] }
    let r := u.modCell 0 fun k => { k with filling := some 3 }
    let h := (fullSt []).wr .homeHoectl 0 0 1
    let hl := h.modCell 0 fun k => { k with hoeLine := 16383 }
    let sk := h.modCell 0 fun k => { k with filling := some 0 }
    let fl := ((((fullSt []).wr .memFlipctl 0 0 0x80010009).wr .memFlipline 0 0 0).wr .memFlipmask 0 0 0x01000080)
    let z := u.wr .homeHoectl 0 0 0
    let lp := h.modCell 0 fun k => { k with hoePos := 2 ^ 20 }
    (tgt u .host ⟨.homeFillreq, 0, 0⟩ = true ∧ (q.cell 0).filling = none ∧ (q.cell 0).fillq = [3, 4] ∧ (r.cell 0).filling = some 3 ∧ r.regionUsable 0 3 = true ∧
      r.isFilled 0 3 = false ∧ r.dir = [] ∧ u.birOf 0 (3 * 16384) = none ∧ (u.cell 0).fillKnown 3 = false ∧ (u.cell 0).fillq.length < 16 ∧ (r.cell 0).fillKnown 3 = true ∧
      fl.flipArmed 0 = true ∧ fl.linePopulated 0 = true ∧ fl.lineFilled 0 = true ∧ u.flipArmed 0 = false ∧ (z.rd .homeHoectl 0).getLsbD 0 = false ∧
      (h.rd .homeHoectl 0).getLsbD 0 = true ∧ (h.cell 0).st ≠ 4 ∧ h.hoeNext 0 (h.cell 0).hoePos = some 0 ∧ h.chanHeld (h.chanOfLine 0) = false ∧ h.hoeSkips 0 0 = false ∧
      sk.hoeSkips 0 0 = true ∧ h.cwErr 0 0 = [] ∧ h.cwErr 0 1 = [] ∧ lp.hoeNext 0 (lp.cell 0).hoePos = none) ∧
    (nextHas (exec (.regionFillStart 0) q) (fun t => (t.cell 0).filling == some 3 && (t.cell 0).fillq == [4]) && nexts (exec (.regionFillStart 0) r) r &&
      nextHas (exec (.regionFillComplete 0) r) (fun t => t.isFilled 0 3 && (t.cell 0).filling.isNone) &&
      nextHas (exec (.fillRequest .host 0 0x80000003) u) (fun t => (t.cell 0).fillq == [3]) && nexts (exec (.fillRequest .host 0 3) u) u && nexts (exec (.fillRequest .host 0 0x80000003) r) r &&
      nextHas (exec (.flipMaskWrite 0) fl) (fun t => t.cwErr 0 1 == flipErr 0x01000080 9 && t.cwErr 0 0 == [] && t.rd .memFlipctl 0 == 0x40010009) && nexts (exec (.flipMaskWrite 0) u) u &&
      nexts (exec (.hoeRead 0 [] []) z) z && nextHas (exec (.hoeRead 0 [] []) h) (fun t => (t.cell 0).hoeLine == 1) && nextHas (exec (.hoeRead 0 [] []) hl) (fun t => (t.cell 0).hoePos == 1 && (t.cell 0).hoeLine == 0) &&
      nextHas (exec (.hoeRead 0 [] []) sk) (fun t => (t.cell 0).hoePos == 1 && (t.cell 0).hoeSkip == 1) && nextHas (exec (.hoeLapComplete 0) lp) (fun t => (t.cell 0).hoeLaps == 1) &&
      nexts (exec (.hoeLapComplete 0) h) h) = true :=
  ⟨by decide +kernel, by decide +kernel⟩

theorem test_witness_maintenance :
    let op := fun (n : Nat) => (fullSt []).modCell 0 fun k => { k with mcur := some n }
    let d := (fullSt []).modCell 0 fun k => { k with mcur := some 4, mdone := true, mpend := 0x28 }
    let e := (fullSt []).modCell 0 fun k => { k with mcur := some 1, mdone := true }
    let p := { (e.modCell 0 fun k => { k with st := 3 }) with admWait := .cellStop 0 }
    let r := (fullSt []).modCell 0 fun k => { k with restarting := true, st := 4 }
    (((op 0).cell 0).mcur = some 0 ∧ ((op 5).cell 0).mcur = some 5 ∧ ((op 3).cell 0).mdone = false ∧ (d.cell 0).mdone = true ∧ ((d.cell 0).mpend.getLsbD 3 = true) ∧
      (d.cell 0).st ≠ 3 ∧ (p.cell 0).st = 3 ∧ (p.cell 0).mpend = 0 ∧ (p.cell 0).stopPend = false ∧ (op 1).scratchSealed 0 = false ∧ ((op 1).cell 0).st ≠ 3 ∧
      (r.cell 0).restarting = true ∧ (e.cell 0).selftest = false) ∧
    (nexts (exec (.maintL2Clean 0) (op 1)) (op 1) && nexts (exec (.maintScratchClear 0) (op 0)) (op 0) && nexts (exec (.maintSelftest 0 []) d) d &&
      nextHas (exec (.maintL2Clean 0) (op 0)) (fun t => (t.cell 0).mdone) && nextHas (exec (.maintScratchClear 0) (op 1)) (fun t => (t.cell 0).mdone) &&
      nextHas (exec (.maintDirectoryInit 0) (op 2)) (fun t => (t.cell 0).mdone && t.failWays 0 == 0) && nextHas (exec (.maintBankExclusion 0) (op 3)) (fun t => (t.cell 0).mdone) &&
      nextHas (exec (.maintDdrRetraining 0) (op 4)) (fun t => (t.cell 0).mdone) && nextHas (exec (.maintSelftest 0 []) (op 5)) (fun t => !t.isFilled 0 0 && (t.cell 0).mdone) &&
      nextHas (exec (.maintOpComplete 0) d) (fun t => (t.cell 0).mcur == some 3 && (t.cell 0).mpend == 0x20 && (t.cell 0).mlast == 4) &&
      nextHas (exec (.maintOpComplete 0) e) (fun t => (t.cell 0).mcur.isNone) && nextHas (exec (.maintOpComplete 0) p) (fun t => (t.cell 0).st == 0) &&
      nexts (exec (.maintOpComplete 0) (op 1)) (op 1) && nextHas (exec (.cellRestartTimeout 0) r) (fun t => t.rd .cellDownwhy 0 == 0x84000000) && nexts (exec (.cellRestartTimeout 0) e) e) = true :=
  ⟨by decide +kernel, by decide +kernel⟩

/-! ### Witnesses: queues and host commands -/

/-- `base` with the link up and every function present. -/
def vfBase : State := { base 0 with pwr := { (base 0).pwr with link := true, numVf := 64 } }
/-- Queue 15 of VF 6 enabled with 8 entries each way, tail `tl`; partition 5 in state `st`. -/
def queueOf (st tl : Nat) (s : State := vfBase) : State :=
  ((((s.modPart 5 fun q => { q with st := st, arenaVa := 0x14000, arenaLen := 4096 }).setQreg .qpSize 6 15 0x00070007).setQreg .qpCtl 6 15 0x80000002).setQreg
    .qpSqtail 6 15 (BitVec.ofNat 32 tl))
/-- A command of opcode `op` with CID 0xFFFF, parameter P0 and `out` bytes of output. -/
def cmdOf (op : Nat) (p0 : Nat := 0) (out : Nat := 0) : HostCmd :=
  { dw := [BitVec.ofNat 32 (0xFFFF0000 + op), 0, 0, 0, 0, 0, 0, BitVec.ofNat 32 out, BitVec.ofNat 32 p0] ++ List.replicate 7 0 }

theorem test_witness_queues :
    let s := vfBase
    let n := s.setQreg .qpSize 6 15 0x0FFF0FFF
    let z := s.setQreg .qpSize 6 15 0x00060007
    let e := queueOf 3 1
    let p := queueOf 0 1
    let al := { e with alm := { e.alm with inforce := true } }
    let c := e.setQst 6 15 { e.qst 6 15 with used := 7 }
    let w := e.setQst 6 15 { e.qst 6 15 with held := some (cmdOf 0x40, [], .ok) }
    let nf := w.modPart 5 fun q => { q with arenaLen := 4 }
    let sf := e.modPart 5 fun q => { q with arenaLen := 4 }
    let fu := { e with reqs := (List.range 16).map fun i => (i, some { reqOf with op := 0x58, recOff := none }) }
    let a := { (((vfBase.setQreg .qpSize 0 0 0x00070007).setQreg .qpCtl 0 0 0x80000002).setQreg .qpSqtail 0 0 1) with shd := { run := true } }
    let up := s
    let nb := fun (w : Who) (f q : Nat) => [RegName.qpCtl, .qpSqtail, .qpCqhead].all fun n => f != 0 || tgt s w ⟨n, 0, q⟩
    (s.qEn 6 15 = false ∧ n.sqsz 6 15 ≠ 0 ∧ n.sqsz 6 15 ≤ n.cqsz 6 15 ∧ z.cqsz 6 15 < z.sqsz 6 15 ∧ s.sqsz 6 15 = 0 ∧ e.canFetch 6 15 = true ∧ p.canFetch 6 15 = true ∧ al.canFetch 6 15 = true ∧
      s.canFetch 6 15 = false ∧ e.stagedOn 6 < 16 ∧ ioFetchFault (cmdOf 0x58) [] .ok = none ∧ ioFetchFault (cmdOf 0x40) [] .ok = none ∧
      ioFetchFault (cmdOf 0x41) [] .ok = some (0x0100, 0, 0) ∧ ioFetchFault (cmdOf 0x58) [] .inError = some (0x0101, 0x20, 0) ∧ (p.part 5).st = 0 ∧ (e.part 5).st = 3 ∧
      (c.qst 6 15).used = 7 ∧ (c.cqsz 6 15 = 7) ∧ e.reqList = [] ∧ (w.qst 6 15).held = some (cmdOf 0x40, [], .ok) ∧ (w.qst 6 15).err = false ∧ w.qEn 6 15 = true ∧ w.alm.zbusy = false ∧
      w.refuseAt 5 0x40 = none) ∧ (e.refuseAt 5 0x58 = none ∧ p.refuseAt 5 0x58 = some 0x0102 ∧ al.refuseAt 5 0x58 = some 0x0400 ∧ (w.part 5).arenaFit (spanWords (inputObjs (cmdInput (cmdOf 0x40) [])) (cmdOutLen (cmdOf 0x40))) ≠ none ∧
      (nf.part 5).arenaFit (spanWords (inputObjs (cmdInput (cmdOf 0x40) [])) (cmdOutLen (cmdOf 0x40))) = none ∧ (nf.qst 6 15).held ≠ none ∧ (sf.qst 6 15).held = none ∧ 16 ≤ fu.stagedOn 6 ∧ fu.canFetch 6 15 = true ∧
      s.funcOk 6 = true ∧ s.funcOk 0 = true ∧ nb .host 0 15 = true ∧ (e.qst 6 15).held = none ∧ n.qEn 6 15 = false ∧ e.qEn 6 15 = true ∧
      a.canFetch 0 0 = true ∧ a.shedUp = true ∧ admFetchFault a.build (cmdOf 0x01 0 4096) .ok = none ∧ admFetchFault a.build (cmdOf 0x01) .ok = some (0x0101, 0x02) ∧
      up.pwr.link = true ∧ State.reset.pwr.link = false ∧ s.pwr.pmicOn = true ∧ Tab.wf (fun _ => (0 : BitVec 32)) e.vfbar = true) ∧
    (nexts (exec (.qpEnable .shed 6 15 0x80000000) s) s && nextHas (exec (.qpEnable .host 6 15 0x80000002) n) (fun t => t.qEn 6 15 && t.qIen 6 15) &&
      nextHas (exec (.qpEnable .host 6 15 0x80000002) z) (fun t => !t.qEn 6 15 && (t.qst 6 15).errc == 5) && nextHas (exec (.qpDisable .host 6 15 0) e) (fun t => !t.qEn 6 15) &&
      nextHas (exec (.sqTailDoorbell 6 15 7) e) (fun t => t.sqTail 6 15 == 7) && nextHas (exec (.sqTailDoorbell 6 15 8) e) (fun t => (t.qst 6 15).errc == 1 && t.sqTail 6 15 == 1) &&
      nextHas (exec (.cqHeadDoorbell 6 15 7) c) (fun t => (t.qst 6 15).used == 0) && nextHas (exec (.cqHeadDoorbell 6 15 8) c) (fun t => (t.qst 6 15).errc == 2) &&
      nextHas (exec (.cqHeadDoorbell 6 15 1) e) (fun t => (t.qst 6 15).errc == 2) && nextHas (exec (.flr 6) c) (fun t => !t.qEn 6 15 && t.qst 6 15 == {})) = true ∧
    (nexts (exec (.commandFetch 6 15 (cmdOf 0x58) [] .ok) s) s && nextHas (exec (.commandFetch 6 15 (cmdOf 0x58) [] .sqError) e) (fun t => (t.qst 6 15).errc == 3) &&
      nextHas (exec (.commandFetch 6 15 (cmdOf 0x41) [] .ok) e) (fun t => (t.req 0).any fun x => x.done == some 1 && x.status == 0x0100 && x.cid == 0xFFFF) &&
      nextHas (exec (.commandFetch 6 15 (cmdOf 0x58) [] .ok) al) (fun t => (t.req 0).any fun x => x.status == 0x0400) &&
      nextHas (exec (.commandFetch 6 15 (cmdOf 0x58) [] .ok) p) (fun t => (t.req 0).any fun x => x.status == 0x0102) &&
      nextHas (exec (.commandFetch 6 15 (cmdOf 0x58) [] .ok) e) (fun t => (t.qst 6 15).sqHead == 1 && (t.req 0).any fun x => x.done.isNone && x.op == 0x58) &&
      nextHas (exec (.commandFetch 6 15 (cmdOf 0x40) [] .ok) e) (fun t => (t.req 0).isSome) &&
      nexts (exec (.arenaWaitFetch 6 15) e) e && nextHas (exec (.arenaWaitFetch 6 15) w) (fun t => (t.qst 6 15).held.isNone && (t.req 0).any fun x => x.op == 0x40) && nexts (exec (.arenaWaitFetch 6 15) nf) nf &&
      nextHas (exec (.commandFetch 6 15 (cmdOf 0x40) [] .ok) sf) (fun t => (t.qst 6 15).held.isSome && (t.qst 6 15).sqHead == 0 && t.reqs == []) &&
      nexts (exec (.commandFetch 6 15 (cmdOf 0x58) [] .ok) fu) (fu.turnTaken 6 15) && nextHas (exec (.qpEnable .host 6 15 0x80000000) e) (fun t => t.qEn 6 15 && !t.qIen 6 15) &&
      nextHas (exec (.commandFetch 0 0 (cmdOf 0x01 0 4096) [] .ok) a) (fun t => t.adm.map Adm.op == [1]) &&
      nextHas (exec (.commandFetch 0 0 (cmdOf 0x01) [] .ok) a) (fun t => t.admDone.map (fun d => (d.status, d.detail)) == [(0x0101, 0x02)]) &&
      nextHas (exec .linkDown up) (fun t => !t.pwr.link) && nexts (exec .linkDown State.reset) State.reset && nextHas (exec (.linkUp 9 [3]) (base 0)) (fun t => t.pwr.link && t.pwr.numVf == (if t.pwr.ready then 9 else 0)) &&
      nextHas (exec .perstN s) (fun t => t.pwr.perst) && nextHas (exec .perstNRelease s) (fun t => !t.pwr.perst)) = true :=
  ⟨by decide +kernel, by decide +kernel, by decide +kernel, by decide +kernel⟩

/-- One command of VF 6 and queue 15 with opcode `op` and parameters `ps`, due in frame 7, over the partition and key of `graftSt`. -/
def dueSt (op : Nat) (ps : List (BitVec 32) := []) (f : Req → Req := id) (g : State → State := id) : State :=
  let s := { graftSt 0 [] [] with pwr := vfBase.pwr }
  g ({ s.setSlot 4 { mat := 77, pol := mkPolicy 5 0 2 0xFC 7 } with frame := 7, fc := 3, clock := 100 }.setReq 9
    (some (f { reqOf with q := 15, op := op, arr := 7, ps := ps, recOff := if op == 0x40 then some 0 else none, outLen := 64 })))

theorem test_witness_host_commands :
    let d := fun (s : State) (op : Nat) => (s.reqList.find? (fun e => e.2.vf == 6 && e.2.q == 15 && e.2.op == op && e.2.dueServe s.frame)).map Prod.fst
    let inv := dueSt 0x40
    let png := dueSt 0x58
    let fr := { png with frozen := true }
    let rnd := dueSt 0x50 [1]
    let spent := dueSt 0x50 [1] id fun s => s.modPart 5 fun q => { q with drbg0 := { live := true, count := 2 ^ 32 } }
    let can := dueSt 0x42 [0x000F0009]
    let hit := (dueSt 0x42 [0x000F0009]).setReq 3 (some { reqOf with q := 15, cid := 9 })
    let imp := dueSt 0x48 [4, 0]
    let noKey := dueSt 0x48 [5, 0]
    let exp := dueSt 0x49 [4, 0, 3, 0]
    let noExp := dueSt 0x49 [3, 0, 3, 0]
    let des := dueSt 0x4A [3, 0]
    let noDes := dueSt 0x4A [6, 0]
    (d png 0x58 = some 9 ∧ d rnd 0x50 = some 9 ∧ d can 0x42 = some 9 ∧ d imp 0x48 = some 9 ∧ d exp 0x49 = some 9 ∧ d des 0x4A = some 9 ∧ fr.frozen = true ∧
      inv.frozen = false ∧ inv.alm.zbusy = false ∧ (inv.reqList.find? (fun e => e.2.vf == 6 && e.2.q == 15 && e.2.dueInvoke inv.frame)).map Prod.fst = some 9 ∧
      (inv.part 5).paired = false ∧ (inv.part 5).lost = 0 ∧ ((rnd.part 5).drbg0.spent = false) ∧ (spent.part 5).drbg0.spent = true ∧ (can.part 5).st = 3 ∧
      can.cancelTarget { reqOf with ps := [0x000F0009] } = none ∧ hit.cancelTarget { reqOf with ps := [0x000F0009] } = some 3 ∧
      (imp.nameOk 5 4 (· == 2) 0x20).1 = true ∧ (noKey.nameOk 5 5 (· == 2) 0x20).1 = false ∧ (imp.createKey 5 1 0x0C 1 5).isSome = true ∧ (exp.nameOk 5 4 (· == 2) 0x10).1 = true ∧
      ((exp.nameOk 5 4 (· == 2) 0x10).2.nameOk 5 3 (fun _ => true) 0x80).1 = true ∧ (noExp.nameOk 5 3 (· == 2) 0x10).1 = false ∧
      (des.nameOk 5 3 (fun _ => true) 0).1 = true ∧ (noDes.nameOk 5 6 (fun _ => true) 0).1 = false) ∧
    (nexts (exec (.ping 6 15) fr) fr && nexts (exec (.random 6 15) fr) fr && nextHas (exec (.invoke 6 15) inv) (fun t => (t.part 5).dlv 0 == [9] && (t.req 9).any fun r => r.delivered) &&
      nextHas (exec (.ping 6 15) png) (fun t => (t.req 9).any fun r => r.done == some 7 && r.result == 7) &&
      nextHas (exec (.random 6 15) spent) (fun t => (t.req 9).any fun r => r.status == 0x0300 && r.detail == 8) &&
      nextHas (exec (.cancel 6 15) can) (fun t => (t.req 9).any fun r => r.status == 0 && r.result == 0) && nextHas (exec (.cancel 6 15) hit) (fun t => ((t.req 9).any fun r => r.result == 1) && (t.req 3).any Req.cancel) &&
      nextHas (exec (.keyImportWrapped 6 15) noKey) (fun t => (t.req 9).any fun r => r.status == 0x0101 && r.detail == 4) &&
      nextHas (exec (.keyExportWrapped 6 15 .good) noExp) (fun t => (t.req 9).any fun r => r.detail == 4) && nextHas (exec (.keyDestroy 6 15) noDes) (fun t => (t.req 9).any fun r => r.detail == 4) &&
      nextHas (exec (.keyDestroy 6 15) des) (fun t => ((t.req 9).any fun r => r.status == 0) && !polLive (t.slot 3).pol)) = true :=
  ⟨by decide +kernel, by decide +kernel⟩

theorem test_witness_rqdone_pairs_and_drbg :
    let r : Req := { reqOf with q := 15, recOff := some 0, delivered := true, outOff := 32, outLen := 8 }
    let none_ := base 0
    let no := (paged (partSt 0 [] fun q => { q with arenaVa := 0x14000 }))
    let ok := (((no.setReq 9 (some r)).setMemWord 0x14007 (fixW 0)).setMemWord 0x14008 Word.nil)
    let r' := { r with accepted := 1 }
    let y := (ok.setReq 9 (some r')).reply r' 0 0
    let z := y.2.stageOut { r' with out := [] } 0
    let pr := (({ base 0 with frame := 1000 } : State).modPart 5 fun q => { q with st := 3, paired := true }).setReq 9 (some { reqOf with dig0 := some 1, firstD := 7 })
    let tick := { base 0 with ticking := true }
    let odd := { tick with frame := 1 }
    let ok2 := { tick with trngOk := true }
    (tgt none_ (.core 0) ⟨.cluRqdone, 0, 0⟩ = true ∧ (none_.core 0).part = none ∧ (ok.core 0).part = some 5 ∧ no.reqList = [] ∧
      ok.reqList.find? (fun e => e.2.acceptable 5 (ok.sideOfCore 0 5) r.ticket) = some (9, r) ∧ (ok.part 5).runs = true ∧ (ok.part 5).lostSide 0 = false ∧
      y.1 = some {} ∧ z.1 = true ∧ pr.reqList = [(9, { reqOf with dig0 := some 1, firstD := 7 })] ∧ (pr.part 5).degraded = false ∧
      reqOf.loneExpired 1 1000 = false ∧ ({ reqOf with dig0 := some 1, firstD := 7 } : Req).loneExpired pr.waitMax pr.frame = true ∧ tick.frame % tick.reseedEvery = 0 ∧ tick.reseeded ≠ tick.frame + 1 ∧
      tick.trngOk = false ∧ none_.ticking = false) ∧
    (nexts (exec (.rqdone (.core 0) 0 7) none_) (none_.rqErr 0 2 0 7) && nexts (exec (.rqdone (.core 0) 0 7) no) (no.rqErr 0 1 5 7) &&
      nextHas (exec (.rqdone (.core 0) 0 0) ok) (fun t => (t.req 9).any fun q => q.done == some 0 && q.status == 0) && nexts (exec (.pairWaitmaxExpiry 5) none_) none_ &&
      nextHas (exec (.pairWaitmaxExpiry 5) pr) (fun t => t.alm.level.getLsbD 11) && nexts (exec .drbgReseed none_) none_ && nextHas (exec .drbgReseed tick) (fun t => t.rdf .kstTrng 0 0 7 0 == 1) &&
      nextHas (exec .drbgReseed ok2) (fun t => t.reseeded == 1) && nexts (exec .drbgReseed { odd with reseeded := 2 }) { odd with reseeded := 2 } &&
      nextHas (exec .trngHealthFailure ok2) (fun t => !t.trngOk && t.rdf .kstTrng 0 0 15 8 == 1) && nextHas (exec .trngStartupPass none_) (fun t => t.trngOk)) = true :=
  ⟨by decide +kernel, by decide +kernel⟩

/-! ### Witnesses: admin commands -/

/-- The oldest admin command `op` on `target` with parameters `ps` and input `inp`; the Shed is up. -/
def admSt (op : Nat) (target : Nat := 0) (ps : List (BitVec 32) := []) (inp : List (BitVec 8) := []) (f : State → State := id) : State :=
  let s := f (base 0)
  { s with shd := { s.shd with run := true }, adm := [{ q := 0, cid := 7, op := op, target := target, ps := ps, inp := inp, outAddr := 0, outLen := 0 }] }
/-- How the command ends: status and DETAIL. -/
def ends (o : Out) (st : BitVec 16) (det : BitVec 8 := 0) : Bool := nextHas o fun t => t.admDone.map (fun d => (d.status, d.detail)) == [(st, det)] && t.adm == []
def ready (s : State) : Bool := s.adm.length == 1 && s.shedUp && s.admWait == .none && !s.alm.zbusy && !s.alm.inforce
def part5 (st : Nat) (f : Part → Part := id) (s : State) : State := s.modPart 5 fun q => f { q with st := st }
def alarmed (s : State) : State := { s with alm := { s.alm with inforce := true } }
def le (n v : Nat) : List (BitVec 8) := bytesLE n v

theorem test_witness_admin_at_once :
    let feat := fun (i v : Nat) (f : State → State) => admSt 3 0 [BitVec.ofNat 32 i, BitVec.ofNat 32 v] [] f
    let busyCell := fun (s : State) => s.modCell 2 fun k => { k with st := 2 }
    let pair := part5 3 fun q => { q with paired := true }
    let stage := admSt 8 0 [0x1000, 0x2000] (List.replicate 4096 1) fun s => { s with shd := { s.shd with stageLen := some 0x2000, pages := [0] } }
    let stageBad := admSt 8 0 [0x1000, 0x2000] [1]
    let commit := admSt 9 0 [1] [] fun s => { s with shd := { s.shd with stageLen := some 0x2000, pages := [1, 0] } }
    let pol := fun (k : Nat) (b : List (BitVec 8)) (f : State → State) => admSt 0x30 0 [] (le 4 k ++ b) f
    let frz := fun (s : State) => { s with frozen := true }
    let d : AdmDone := { cmd := { q := 0, cid := 1, op := 1, target := 0, ps := [], inp := [], outAddr := 0, outLen := 0 }, status := 0, fin := 0 }
    let post := { admSt 1 with frame := 1, admDone := [d], pwr := { State.reset.pwr with link := true } }
    let post := (post.setQreg .qpSize 0 0 0x00070007).setQreg .qpCtl 0 0 0x80000000
    (ready (admSt 1) && ready stage && ready (pol 1 [] id) = true) ∧
    (stageBad.shd.stageBad 0x1000 0x2000 1 = true ∧ stage.shd.stageBad 0x1000 0x2000 4096 = false ∧ (admSt 9).shd.stageLen = none ∧
      (List.range ((0x2000 + 4095) / 4096)).all (fun i => commit.shd.pages.contains i) = true ∧ (admSt 0x14 5).cellIds.all (admSt 0x14 5).cellIdle = true ∧
      ((admSt 0x18 2 [] [] busyCell).cellIdle 2 = false) ∧ (pair (base 0)).pairRuns = true ∧ policyBad 0x01000000 = true ∧ policyBad 0x00AAAAAA = false ∧
      (admSt 1).clearRefused = true ∧ (admSt 1 0 [] [] alarmed).clearRefused = false) ∧
    (post.qEn 0 0 = true ∧ (post.qst 0 0).err = false ∧ (post.qst 0 0).used < post.cqsz 0 0 + 1 ∧ post.canDma 0 = true ∧ d.fin < post.frame) ∧
    (nexts (exec .identify (admSt 2)) (admSt 2) && ends (exec .setFeature (feat 1 1 alarmed)) 0x0400 && ends (exec .getFeature (admSt 4 0 [1])) 0 && ends (exec .identify (admSt 1)) 0 &&
      ends (exec .getLog (admSt 2 0 [1, 0, 1])) 0 && ends (exec .setFeature (feat 1 3 id)) 0 && ends (exec .setFeature (feat 1 3 busyCell)) 0x0103 && ends (exec .setFeature (feat 2 255 id)) 0 &&
      ends (exec .setFeature (feat 2 255 pair)) 0x0103 && ends (exec (.fwStage true) stageBad) 0x0101 3 && ends (exec (.fwStage false) stage) 0x0101 0x20 &&
      ends (exec .fwCommit (admSt 9)) 0x0101 3 && ends (exec .partConfig (admSt 0x14 5)) 0x0101 && ends (exec .partConfig (admSt 0x14 5 [32] [] (part5 3))) 0x0103 &&
      ends (exec .partConfig (admSt 0x14 5 [32] (List.replicate 128 9) (part5 1))) 0 && ends (exec .planWrite (admSt 0x18 2 [0, 0, 256] [] busyCell)) 0x0103 &&
      ends (exec .planWrite (admSt 0x18 2 [0, 0, 256])) 0) = true ∧
    (nextHas (exec .monClear (admSt 0x21 0 [0x80000000, 0x8000])) (fun t => t.monClr.contains 31 && t.monClr.contains 47) && ends (exec .monRead (admSt 0x20 0 [47, 1])) 0 &&
      ends (exec .setPolicy (pol 1 (le 4 0x01000000 ++ le 4 0) id)) 0x0101 3 && ends (exec .setPolicy (pol 1 (le 4 0x00AAAAAA ++ le 4 0) id)) 0 && ends (exec .liftFreeze (pol 2 [] id)) 0x0101 3 &&
      ends (exec .liftFreeze (pol 2 [] frz)) 0 && ends (exec .alarmClear (pol 3 [] id)) 0x0101 3 && ends (exec .alarmClear (pol 3 [] alarmed)) 0 && nexts (exec .adminCompletionPost (admSt 1)) (admSt 1) &&
      nextHas (exec .adminCompletionPost post) (fun t => t.admDone == [] && (t.qst 0 0).used == 1)) = true :=
  ⟨by decide +kernel, by decide +kernel, by decide +kernel, by decide +kernel, by decide +kernel⟩

/-- The block of a partition homed in cell 0 alone, its contexts at 0x200 and its arena at 0x200. -/
def block0 : List (BitVec 8) := le 16 0 ++ le 8 0x200 ++ le 8 0 ++ le 8 0x200 ++ le 4 4096 ++ le 4 0 ++ List.replicate 16 0 ++ List.replicate 64 0
/-- A Seedbank with two locks, the re-provisioning bits `n`, debug level 1 and key set 0, and two seals. -/
def otpOf (n q1 q2 : BitVec 32) : Tab (BitVec 32) := [(77, 3), (78, n), (79, q1), (128, 0xF1), (143, q2)]
theorem otpOf_winner (n q1 q2 : BitVec 32) (h1 : q1 = sealOf 1 0 (List.replicate 13 0)) (h2 : q2 = sealOf 2 0 (0xF1 :: List.replicate 14 0)) :
    winner (otpOf n q1 q2) 1 = some 0 ∧ winner (otpOf n q1 q2) 2 = some 0 := by
  have b : ∀ g ∈ [1, 2], ∀ k ∈ [3, 2, 1], genValid (otpOf n q1 q2) g k = false := by
    intro g hg k hk
    have h : genBlank (otpOf n q1 q2) g k = true := by
      simp only [List.mem_cons, List.not_mem_nil, or_false] at hg hk
      rcases hg with rfl | rfl <;> rcases hk with rfl | rfl | rfl <;> rfl
    simp [genValid, h]
  have e1 : otpGen (otpOf n q1 q2) 1 0 = List.replicate 13 0 ++ [3, n, q1] := rfl
  have e2 : otpGen (otpOf n q1 q2) 2 0 = 0xF1 :: List.replicate 14 0 ++ [q2] := rfl
  have c1 : ∀ l, sealOf 1 0 (List.replicate 13 0 ++ l) = sealOf 1 0 (List.replicate 13 0) := fun l => by
    rw [sealOf, sealOf, if_pos (by decide)]; simp
  have c2 : ∀ l, sealOf 2 0 (0xF1 :: List.replicate 14 0 ++ l) = sealOf 2 0 (0xF1 :: List.replicate 14 0) := fun l => by
    rw [sealOf, sealOf, if_neg (by decide)]; simp
  have g1 : genValid (otpOf n q1 q2) 1 0 = true := by
    rw [genValid, e1, c1, ← h1, show otpAt (otpOf n q1 q2) 1 0 15 = q1 from rfl, genBlank, e1]; simp
  have g2 : genValid (otpOf n q1 q2) 2 0 = true := by
    rw [genValid, e2, c2, ← h2, show otpAt (otpOf n q1 q2) 2 0 15 = q2 from rfl, genBlank, e2]; simp
  simp [winner, List.find?, b, g1, g2]
theorem test_witness_seedbank_values (q1 q2 : BitVec 32) (h1 : q1 = sealOf 1 0 (List.replicate 13 0))
    (h2 : q2 = sealOf 2 0 (0xF1 :: List.replicate 14 0)) : otpLocks (otpOf 1 q1 q2) = 2 ∧ otpProv (otpOf 1 q1 q2) = 1 ∧
    otpDlevel (otpOf 1 q1 q2) = 1 ∧ (groupDw (otpOf 1 q1 q2) 2 0).getLsbD 4 = true ∧ otpLocked (otpOf 3 q1 q2) = false ∧
    otpLocked (otpOf 1 q1 q2) = true := by
  have h := fun n => otpOf_winner n q1 q2 h1 h2
  have d1 : ∀ n, otpAt (otpOf n q1 q2) 1 0 13 = 3 := fun _ => rfl
  have d2 : ∀ n, otpAt (otpOf n q1 q2) 1 0 14 = n := fun _ => rfl
  have d3 : ∀ n, otpAt (otpOf n q1 q2) 2 0 0 = 0xF1 := fun _ => rfl
  refine ⟨?_, ?_, ?_, ?_, ?_, ?_⟩ <;>
    simp only [otpLocked, otpLocks, otpProv, otpDlevel, groupDw, (h _).1, (h _).2, d1, d2, d3] <;> decide +kernel

theorem test_witness_admin_that_wait :
    let pop := fun (s : State) => ((s.wr .memCfg 1 0 0x1000).wr .memCfg 2 0 0x1000).wr .memCfg 3 0 0x1000
    let trng := fun (s : State) => { pop s with trngOk := true, drbgD := { live := true } }
    let cre := admSt 0x10 5 [] block0
    let a := fun (s : State) => s.adm.headD { q := 0, cid := 0, op := 0, target := 0, ps := [], inp := [], outAddr := 0, outLen := 0 }
    let q' : Part := { st := 1, paired := false, cell0 := 0, cell1 := 0 }
    let down := fun (s : State) => s.modCell 0 fun k => { k with st := 4 }
    let run := fun (s : State) => s.modCell 0 fun k => { k with st := 2 }
    let rep := admSt 0x16 5 [1] [] fun s => (part5 2 (fun q => { q with paired := true, cell1 := 1, lost := 2 }) s).modCell 1 fun k => { k with st := 2 }
    let homed := fun (s : State) => part5 3 id (run s)
    (ready cre && ready rep = true) ∧
    (blockOk cre.build (a cre) = true ∧ blockOk cre.build (a (admSt 0x10 5 [] (List.replicate 128 1))) = false ∧ (List.range 6).all (groupOk (a cre) q' true) = true ∧
      (admSt 0x13).locked = true ∧ (admSt 0x13 5).startBad 5 = true ∧
      (admSt 0x13 5 [] [] fun s => part5 2 id (run s)).startBad 5 = false ∧ rep.pairRotation 5 0 1 = true ∧ (rep.cell 1).st = 2 ∧ ((admSt 0x19 0 [] [] homed).part 5).homedIn 0 = true ∧
      (admSt 0x1A 0 [] [] pop).cellStartRefused 0 = some 0x09 ∧ (admSt 0x1A 0 [] [] trng).cellStartRefused 0 = none) ∧
    (ends (exec .partCreate (admSt 0x10 5 [] block0 (part5 1))) 0x0101 && ends (exec .partCreate (admSt 0x10 5 [] (List.replicate 128 1))) 0x0101 3 && ends (exec .partCreate cre) 0x0101 9 &&
      ends (exec .partDestroy (admSt 0x11 5)) 0x0101 && ends (exec .partDestroy (admSt 0x11 5 [] [] (part5 4))) 0x0103 &&
      nextHas (exec .partDestroy (admSt 0x11 5 [] [] fun s => part5 2 id (down s))) (fun t => (t.part 5).st == 0 && t.adm == []) && ends (exec .partStop (admSt 0x12 5)) 0x0101 &&
      nextHas (exec .partStop (admSt 0x12 5 [] [] (part5 3))) (fun t => (t.part 5).st == 4 && t.admWait == .partStop) && ends (exec .partStop (admSt 0x12 5 [] [] (part5 5))) 0 &&
      nextHas (exec .partStop (admSt 0x12 5 [] [] (part5 4))) (fun t => t.admWait == .partStop) && ends (exec .partStart (admSt 0x13 5 [] [] (part5 2))) 0x0400 && ends (exec .imageLoad (admSt 0x15 5)) 0x0101 &&
      ends (exec .imageLoad (admSt 0x15 5 [] [] (part5 3))) 0x0103 && ends (exec .imageLoad (admSt 0x15 5 [] [] (part5 1))) 0x0101 3 && ends (exec .partRepair (admSt 0x16 5 [1] [] (part5 3))) 0x0103 &&
      nextHas (exec .partRepair rep) (fun t => (t.part 5).repair == some 1 && t.admWait == .repair)) = true ∧
    (ends (exec .cellStop (admSt 0x19)) 0 && nextHas (exec .cellStop (admSt 0x19 0 [] [] run)) (fun t => (t.cell 0).st == 3 && t.admWait == .cellStop 0) && ends (exec .cellStop (admSt 0x19 0 [] [] homed)) 0x0103 &&
      nextHas (exec .cellStop (admSt 0x19 0 [] [] down)) (fun t => (t.cell 0).restarting) && nextHas (exec .cellStop (admSt 0x19 0 [] [] fun s => s.modCell 0 fun k => { k with st := 3 })) (fun t => t.admWait == .cellStop 0) &&
      ends (exec .cellStart (admSt 0x1A 0 [] [] run)) 0x0103 && ends (exec .cellStart (admSt 0x1A 0 [] [] pop)) 0x0101 9) = true :=
  ⟨by decide +kernel, by decide +kernel, by decide +kernel, by decide +kernel⟩

theorem test_witness_tokens_and_zeroization :
    let tok := fun (kind arg : Nat) (f : State → State) => admSt 0x30 0 [] (le 4 4 ++ le 4 0x4E4B4F54 ++ le 4 kind ++ List.replicate 16 0 ++ le 4 arg ++ le 4 0 ++ List.replicate 4723 0) f
    let otp := fun (s : State) => { s with sbk := { s.sbk with otp := otpOf 1 0 0 } }
    let rp := tok 1 2 otp
    let bad := admSt 0x30 0 [] (le 4 4 ++ le 4 0 ++ le 4 1 ++ List.replicate 4747 0)
    let dbg := tok 2 0 otp
    let a := fun (s : State) => s.adm.headD { q := 0, cid := 0, op := 0, target := 0, ps := [], inp := [], outAddr := 0, outLen := 0 }
    let grp := admSt 0x30 0 [] (le 4 5 ++ le 4 5 ++ List.replicate 60 1)
    let grpOn := { grp with alm := { grp.alm with dbg := true } }
    let dbgOn := { dbg with alm := { dbg.alm with dbg := true } }
    let stp := part5 4 id (base 0)
    let rep := part5 2 (fun q => { q with repair := some 1 }) (base 0)
    ((a rp).kind = 4 ∧ (a rp).tokenKind = 1 ∧ (a rp).inp.length = 4759 ∧ (a rp).tokenArg = 2 ∧ rp.sbk.busy = false ∧ bad.tokenOk (a bad) = false ∧
      (a dbg).tokenKind = 2 ∧ (a dbg).tokenArg = dbg.alm.nonce.toNat ∧ (a dbg).tokenSet = 0 ∧ dbg.alm.dbg = false ∧
      dbgOn.alm.dbg = true ∧ (a grp).kind = 5 ∧ (a grp).inp.length = 68 ∧ (a grp).fieldLE 4 4 = 5 ∧ programRefused grp.sbk.otp 5 = 0 ∧ grp.alm.dbg = false ∧ grpOn.alm.dbg = true ∧
      stp.stopDone 5 = true ∧ (base 0).stopDone 5 = false ∧ (rep.part 5).repair = some 1) ∧
    (ends (exec .programGroup grp) 0x0101 3 &&
      nextHas (exec .programGroup grpOn) (fun t => t.sbk.busy && t.sbk.group == 5) && nextHas (exec .sleep (admSt 0x3E)) (fun t => t.alm.zwhy == 2 && t.admWait == .zero) &&
      nextHas (exec .zeroize (admSt 0x3F 0 [] [] alarmed)) (fun t => t.alm.zwhy == 1 && t.alm.zbusy) && nextHas (exec (.partStopComplete 5) stp) (fun t => (t.part 5).st == 2) &&
      nexts (exec (.partStopComplete 5) (base 0)) (base 0) && nexts (exec (.repairCopyComplete 5) stp) stp) = true :=
  ⟨by decide +kernel, by decide +kernel⟩

/-! ### Witnesses: timers, mailboxes, monitors -/

def ch (n : Nat) (k : Tch) (s : State := base 0) : State := s.setChan n k
def smp (n : Nat) (l : List Bool) (sp : Nat := 0) (lv : Bool := false) : State := (base 0).setTimerPin n { smp := l, split := sp, lvl := lv }

theorem test_witness_timers :
    let run := ch 23 { run := true, cnt := 41, cmpa := 42, pre := 1 }
    let slow := run.wr .tmuCtl 0 23 1
    let wrap := (ch 23 { run := true, cnt := 41, cmpa := 7, pre := 1 }).wr .tmuToplo 0 23 41
    let fl := (run.wr .tmuPin 0 7 0x20170000)
    let ph := ((base 0).wr .tmuToplo 0 23 5).wr .tmuPhaselo 0 23 6
    let p0 := (base 0).wr .tmuPhaselo 0 23 6
    let on := (ch 23 { run := true, cnt := 9, led := true, edge := some true }).wr .tmuCtl 0 23 0x01000000
    let off := (ch 23 { run := true, cnt := 9, led := true, edge := some false }).wr .tmuCtl 0 23 0x01000000
    let pin := ((ch 23 { run := true }).setTimerPin 7 { smp := [true, true, false, false] }).wr .tmuCtl 0 23 0x01700000
    let wait := (base 0).setTimerPin 7 { due := 3 }
    let lk := (ch 23 { run := true, cnt := 9, lock := true, edge := some true }).wr .tmuCtl 0 23 0x01000000
    let pd := (ch 23 { run := true, cnt := 9, lock := true, pend := [(true, 4)], edge := some true }).wr .tmuCtl 0 23 0x01000000
    let sh := (base 0).setShadow 0 { valid := true, pair := 46, hi := 77 }
    let own := (base 0).wr .tmuCtl 0 23 0x80000000
    (tgt (base 0) .host ⟨.tmuStart, 0, 0⟩ && tgt (base 0) .host ⟨.tmuCmplo, 0, 23⟩ && tgt (base 0) .shed ⟨.tmuCmphi, 0, 23⟩ = true) ∧
    ((run.chan 23).run = true ∧ run.tmuTop 23 = 0 ∧ wrap.tmuTop 23 ≠ 0 ∧ (wrap.chan 23).cnt = wrap.tmuTop 23 ∧ (run.chan 23).cnt + 1 = (run.chan 23).cmpa ∧ (fl.rd .tmuPin 0 7).getLsbD 29 = true ∧
      fld (fl.rd .tmuPin 0 7) 20 16 = 23 ∧ ph.tmuTop 23 < ph.tmuPhase 23 ∧ p0.tmuTop 23 = 0 ∧ (on.tmuCtl 23).getLsbD 24 = true ∧ fld (on.tmuCtl 23) 23 20 < 8 ∧ on.tmuRuns 23 = true ∧
      (on.chan 23).lock = false ∧ (lk.chan 23).lock = true ∧ (sh.shadowOf (shadowIdx .host)).valid = true ∧ (sh.shadowOf (shadowIdx .host)).pair = 23 * 2 + b2n false ∧
      own.ownOk .host 23 = false ∧ own.ownOk .shed 23 = true ∧ (base 0).ownOk (.core 47) 23 = true) ∧
    (nexts (exec (.tmuIncrement 0) run) run && nexts (exec (.tmuIncrement 23) (base 0)) (base 0) && nextHas (exec (.tmuIncrement 23) run) (fun t => (t.chan 23).cnt == 42 && t.rd .tmuStat 0 23 == 0x80000000) &&
      nextHas (exec (.tmuIncrement 23) wrap) (fun t => (t.chan 23).cnt == 0 && (t.chan 23).cmpa == 0 && t.rd .tmuStat 0 23 == 0x40000000) &&
      nextHas (exec (.tmuIncrement 23) fl) (fun t => (t.timerPin 7).drive) && nextHas (exec (.tmuStart .host 0x00800000) ph) (fun t => t.rd .tmuStat 0 23 == 0x01000000 && !(t.chan 23).run) &&
      nextHas (exec (.tmuStart .host 0x00800000) p0) (fun t => (t.chan 23).run && (t.chan 23).cnt == 6) && nextHas (exec (.tmuStart .host 0x00400000) run) (fun t => (t.chan 23).cnt == 41) &&
      nextHas (exec (.tmuPinSample 7 true) (smp 7 [true, true, false, false])) (fun t => (t.timerPin 7).lvl && (t.timerPin 7).split == 0) &&
      nextHas (exec (.tmuPinSample 7 false) (smp 7 [true, true, false, false] 15 true)) (fun t => (t.timerPin 7).lvl && t.rd .tmuPin 0 7 == 0x40000000) &&
      nextHas (exec (.tmuPinSample 0 false) (smp 0 [false, true, true, true] 0 true)) (fun t => (t.timerPin 0).lvl && (t.timerPin 0).split == 1)) = true ∧
    (nexts (exec (.tmuIncrement 23) slow) slow && nextHas (exec (.tmuPinSample 7 true) wait) (fun t => (t.timerPin 7).ext && (t.timerPin 7).due == 3) &&
      nextHas (exec (.tmuPinSample 7 true) pin) (fun t => (t.chan 23).edge == some true && (t.timerPin 7).due == 1) && nexts (exec (.captureEdge 23 false) on) on &&
      nexts (exec (.captureEdge 23 true) run) run && nextHas (exec (.captureEdge 23 true) on) (fun t => (t.chan 23).capr == on.captureCount 23 && (t.chan 23).caprv) &&
      nextHas (exec (.captureEdge 23 false) off) (fun t => (t.chan 23).capfv && !(t.chan 23).led) && nextHas (exec (.captureEdge 23 true) lk) (fun t => (t.chan 23).pend == [(true, lk.captureCount 23)]) &&
      nextHas (exec (.captureEdge 23 true) pd) (fun t => t.rd .tmuStat 0 23 == 0x08000000) && nextHas (exec (.captureUnlockRead .host 23) pd) (fun t => (t.chan 23).capr == 4 && !(t.chan 23).lock) &&
      nextHas (exec (.captureLockRead .host 23) on) (fun t => (t.chan 23).lock) && nextHas (exec (.cntHiRead .host 23 false) sh) (fun t => t.rdata == 77 && (t.shadowOf 0).good) &&
      nextHas (exec (.cntHiRead .host 23 true) sh) (fun t => t.rdata == 0 && !(t.shadowOf 0).good) && nextHas (exec (.cntLoRead .host 23 false) run) (fun t => t.rdata == 41 && (t.shadowOf 0).pair == 46) &&
      nexts (exec (.cmploWrite .host 23 5) own) (own.reject .host 1 (RegAt.key ⟨.tmuCmplo, 0, 23⟩)) && nextHas (exec (.cmploWrite .shed 23 5) own) (fun t => (t.chan 23).stageLo == 5) &&
      nexts (exec (.cmphiWrite .host 23 5) own) (own.reject .host 1 (RegAt.key ⟨.tmuCmphi, 0, 23⟩)) && nextHas (exec (.cmphiWrite .shed 23 5) own) (fun t => t.rd .tmuCmphi 0 23 == 5)) = true :=
  ⟨by decide +kernel, by decide +kernel, by decide +kernel, by decide +kernel⟩

/-- The Shed up, the message `l` inbound in mailbox `k`. -/
def inSt (k : Nat) (l : List (BitVec 32)) (f : State → State := id) : State :=
  let s := f (base 0)
  (wrList { s with shd := { s.shd with run := true } } .shdIn k 0 l).wr .shdMstat k 0 0x80000000

theorem test_witness_mailboxes :
    let up := { base 0 with shd := { State.reset.shd with run := true } }
    let busy := inSt 3 [0x10]
    let msg : List (BitVec 32) := List.replicate 16 5
    let held := { up with shd := { up.shd with outq0 := [msg] }, pwr := vfBase.pwr }
    let out := { held with msixTab := [(16 * 16 + 12, 0)] }
    let adm : Adm := { q := 0, cid := 7, op := 0x10, target := 5, ps := [], inp := [], outAddr := 0, outLen := 0 }
    let wt := fun (cells : List Nat) (s : State) => { s with adm := [adm], admWait := .ack cells 9 }
    let late := { (wt [2] up).modCell 2 fun k => { k with askFrm := some 1 } with frame := 131073 }
    let soon := { late with frame := 131072 }
    let rcp := inSt 3 [0x10, 8, 1, 64] fun s => s.modCell 2 fun k => { k with held := some (msg, []) }
    let raised := { up with shd := { up.shd with raised := [(0x15, 1, 0)] } }
    let unit := up.wr .kstErr 0 0 0x80000001
    let dbg := { up with alm := { up.alm with dbg := true } }
    (tgt up .host ⟨.shdIndb, 0, 0⟩ && tgt up (.core 0) ⟨.shdIndb, 1, 0⟩ && tgt up .host ⟨.shdOutack, 0, 0⟩ = true) ∧
    ((base 0).shedUp = false ∧ up.shedUp = true ∧ busy.inBusy 3 = true ∧ up.inBusy 0 = false ∧ out.outValid 0 = false ∧ out.shd.outq 0 = [msg] ∧ msg.length = 16 ∧ up.shd.outq 0 = [] ∧
      up.inType 0 = none ∧ (inSt 0 [1]).inType 0 = some 1 ∧ (inSt 0 [2]).inType 0 = some 2 ∧ (inSt 3 [0x10]).inType 3 = some 0x10 ∧ ((inSt 3 [0x10]).cell 2).held = none ∧
      (inSt 3 [0x00000911] (wt [2])).inType 3 = some 0x11 ∧ fld ((inSt 3 [0x00000911] (wt [2])).inDw 3 0) 15 8 = 9 ∧ fld ((inSt 3 [0x01000911] (wt [2])).inDw 3 0) 31 24 ≠ 0 ∧
      fld ((inSt 3 [0x12, 0xAF]).inDw 3 1) 7 0 / 16 = 0xA ∧ raised.unitRecords = [] ∧ unitReg 0x15 1 = none ∧ unit.unitRecords = [(0x50, 0, .kstErr)] ∧ unit.shd.raised = [] ∧ out.msixMasked 0 16 = false ∧
      held.msixMasked 0 16 = true ∧ late.ackLate 2 = true ∧ soon.ackLate 2 = false ∧ late.shedUp = true ∧ rcp.inType 3 = some 0x10) ∧
    (nexts (exec (.mailboxSend .host 0 0) up) up && nextHas (exec (.mailboxSend .host 0 1) up) (fun t => t.inBusy 0) && nexts (exec (.mailboxSend (.core 32) 3 1) busy) (busy.reject (.core 32) 0 (RegAt.key ⟨.shdIndb, 3, 0⟩)) &&
      nextHas (exec (.mailboxAck .host 0 1) out) (fun t => !t.outValid 0) && nexts (exec (.mailboxOutPlace 0) up) up &&
      nextHas (exec (.mailboxOutPlace 0) out) (fun t => t.outValid 0 && t.shd.outq0 == [] && t.msix == [(0, 16)] && t.rd .shdOut 0 15 == 5) && nextHas (exec (.mailboxOutPlace 0) held) (fun t => t.msixPending 0 16 && t.msix == []) &&
      nextHas (exec (.hello 2) rcp) (fun t => (t.cell 2).held.isNone && t.shd.outq 3 == [msg]) && nexts (exec (.wardenTimeout 2) soon) soon &&
      nexts (exec .echo up) up && nexts (exec .noteLevel (inSt 0 [1])) (inSt 0 [1]) && nextHas (exec .echo (inSt 0 [1, 7])) (fun t => t.shd.outq0 == [[0x81, 7] ++ List.replicate 14 0] && !t.inBusy 0) &&
      nextHas (exec .noteLevel (inSt 0 [2, 0xF])) (fun t => t.shd.note == 15) && nextHas (exec (.hello 2) (inSt 3 [0x10, 8, 1, 64])) (fun t => (t.cell 2).hello && (t.cell 2).stagePa == 0x100000008 && (t.cell 2).stageLen == 64) &&
      nexts (exec (.hello 2) (inSt 3 [0x12])) (inSt 3 [0x12])) = true ∧
    (nextHas (exec (.wardenAck 2) (inSt 3 [0x01000911] (wt [2]))) (fun t => t.admDone.map AdmDone.status == [0x0300]) &&
      nextHas (exec (.wardenAck 2) (inSt 3 [0x00000911] (wt [2, 0]))) (fun t => t.admWait == .ack [0] 9) && nextHas (exec (.wardenAck 2) (inSt 3 [0x00000911] (wt [2]))) (fun t => t.admDone.map AdmDone.status == [0]) &&
      nextHas (exec (.wardenTimeout 2) late) (fun t => t.admDone.map AdmDone.status == [0x0300]) && nextHas (exec (.wardenLog 2) (inSt 3 [0x12, 0xAF])) (fun t => t.shd.logSeq == 1) &&
      nextHas (exec (.wardenLog 2) (inSt 3 [0x12, 0xBF])) (fun t => t.shd.logSeq == 0 && !t.inBusy 3) && nextHas (exec (.thrClear 2) ((inSt 3 [0x13, 1, 2]).wr .monThf0 0 0 3)) (fun t => t.rd .monThf0 == 2) &&
      nexts (exec .eventLogTake (base 0)) (base 0) && nextHas (exec .eventLogTake raised) (fun t => t.shd.raised == [] && t.shd.logSeq == 1) && nextHas (exec .eventLogTake unit) (fun t => t.rd .kstErr == 1 && t.shd.logSeq == 1) &&
      nextHas (exec .getSensors up) (fun t => t.shd.bmcOut.length == 176) && nextHas (exec .getStatus up) (fun t => t.shd.bmcOut.length == 28) && nextHas (exec (.bmcGetLog 0 33) up) (fun t => t.shd.bmcOut == [5]) &&
      nextHas (exec (.bmcGetLog 0 32) up) (fun t => t.shd.bmcOut != [5]) && nextHas (exec (.mctpControl 1 9) up) (fun t => t.shd.eid == 9) && nexts (exec (.uartInput 65) up) up && nextHas (exec (.uartInput 65) dbg) (fun t => t.shd.uartIn == [65]) &&
      nextHas (exec .shedLockup up) (fun t => !t.shedUp && t.pwr.lockupN)) = true :=
  ⟨by decide +kernel, by decide +kernel, by decide +kernel, by decide +kernel⟩

theorem test_witness_sensors_monitors_flash :
    let up := { base 0 with shd := { State.reset.shd with run := true } }
    let live := ((base 0).wr .monCfg 0 47 0x02000100)
    let own := (base 0).wr .monCfg 0 47 0x01000100
    let q := { up with shd := { up.shd with toFlash := [3], ent := 2047 } }
    let last := { up with shd := { up.shd with toFlash := [3], badBlk := 0xFFFFFFFFFFFFFF00 } }
    ((tgt up .host ⟨.monSnap, 0, 0⟩ && tgt up .shed ⟨.monClr0, 0, 0⟩ && tgt up .host ⟨.monClr1, 0, 0⟩ && tgt up .shed ⟨.monCfg, 0, 47⟩) = true ∧ hasTemp up.build 11 = true ∧ hasTemp up.build 23 = true ∧ hasVmon up.build 15 = true ∧
      voltWarn 0 600 = true ∧ live.monLive 47 = true ∧ ((base 0).wr .monCfg 0 47 0x0F000000).monLive 47 = false ∧ q.shd.noPers = false ∧ 8 ≤ q.shd.goodBlocks ∧ last.shd.failBlk.goodBlocks < 8 ∧
      snapBank .host = some 0 ∧ snapBank (.core 0) = none) ∧
    (nexts (exec (.sensorConversion [] [] []) (base 0)) (base 0) && nexts (exec (.logFlashProgram true) up) up && nexts (exec (.getMon 0) (base 0)) (base 0) &&
      nexts (exec (.monitorSample 47 3) own) own && nextHas (exec (.monitorSample 47 3) live) (fun t => (t.staging 47).min == 3 && (t.staging 47).max == 3 && Tab.get (fun _ => 0) (t.staging 47).bins 1 == 1) &&
      nextHas (exec (.monitorSample 47 1) live) (fun t => Tab.get (fun _ => 0) (t.staging 47).bins 0 == 1) && nextHas (exec (.monitorSample 47 0xFFFFFFFF) live) (fun t => Tab.get (fun _ => 0) (t.staging 47).bins 15 == 1) &&
      nextHas (exec (.monSnapshot .host 0x8000002F) live) (fun t => (t.snapOf 0).isSome && t.rd .monSnap == 0x2F) && nextHas (exec (.monSnapshot .host 0x80000030) live) (fun t => (t.snapOf 0).isNone) &&
      nextHas (exec (.monClr .host false 0x80000000) up) (fun t => t.monClr == [31]) && nextHas (exec (.monClr .host true 0x8000) up) (fun t => t.monClr == [47]) &&
      nexts (exec (.monCfgWrite .host 47 0x09000000) up) (up.reject .host 0 (RegAt.key ⟨.monCfg, 0, 47⟩)) && nextHas (exec (.monCfgWrite .host 47 0x08000000) up) (fun t => t.monClr == [47]) &&
      nextHas (exec (.getMon 47) up) (fun t => (t.snapOf 1).isSome) && nextHas (exec (.getMon 48) up) (fun t => t.shd.bmcOut == [5]) &&
      nextHas (exec (.logFlashProgram true) q) (fun t => t.shd.toFlash == [] && t.shd.ent == 2048) && nextHas (exec (.logFlashProgram false) last) (fun t => t.shd.noPers)) = true :=
  ⟨by decide +kernel, by decide +kernel⟩
/-- The limits of a temperature at which each grade has warned, and is back. -/
theorem test_witness_temperature_limits : tempWarn 800 = true ∧ tempBack 744 = true ∧ tempWarn 759 = false := by
  refine ⟨?_, ?_, ?_⟩ <;> simp only [tempWarn, tempBack] <;> split <;> decide

/-! ### Witnesses: alarm, Seedbank, power -/

/-- A Seedbank with a valid anti-rollback generation of count one, and a spoilt last generation of group 5. -/
def otpSvnOf (q : BitVec 32) : Tab (BitVec 32) := [(4 * 64 + 13, 1), (4 * 64 + 15, q)]
theorem otpSvnOf_winner (q : BitVec 32) (h : q = sealOf 4 0 (List.replicate 13 0)) : winner (otpSvnOf q) 4 = some 0 ∧ otpSvn (otpSvnOf q) = 1 := by
  have b : ∀ k ∈ [3, 2, 1], genValid (otpSvnOf q) 4 k = false := by
    intro k hk
    have h : genBlank (otpSvnOf q) 4 k = true := by
      simp only [List.mem_cons, List.not_mem_nil, or_false] at hk
      rcases hk with rfl | rfl | rfl <;> rfl
    simp [genValid, h]
  have e : otpGen (otpSvnOf q) 4 0 = List.replicate 13 0 ++ [1, 0, q] := rfl
  have c : ∀ l, sealOf 4 0 (List.replicate 13 0 ++ l) = sealOf 4 0 (List.replicate 13 0) := fun l => by
    rw [sealOf, sealOf, if_pos (by decide)]; simp
  have g : genValid (otpSvnOf q) 4 0 = true := by
    rw [genValid, e, c, ← h, show otpAt (otpSvnOf q) 4 0 15 = q from rfl, genBlank, e]; simp
  have w : winner (otpSvnOf q) 4 = some 0 := by simp [winner, List.find?, b, g]
  refine ⟨w, ?_⟩
  have d : otpAt (otpSvnOf q) 4 0 13 = 1 ∧ otpAt (otpSvnOf q) 4 0 14 = 0 := ⟨rfl, rfl⟩
  simp only [otpSvn, groupDw, w, d]
  decide
def frozenOf (q : BitVec 32) : Tab (BitVec 32) := [(4 * 64 + 48, 1), (4 * 64 + 63, q)]
/-- A last generation of group 4 that is not valid leaves no winner and no spare. -/
theorem test_witness_frozen_group (q : BitVec 32) (h : q ≠ sealOf 4 3 (1 :: List.replicate 12 0)) :
    winner (frozenOf q) 4 = none ∧ groupFrozen (frozenOf q) 4 = true := by
  have b : ∀ k ∈ [2, 1, 0], genValid (frozenOf q) 4 k = false := by
    intro k hk
    have h : genBlank (frozenOf q) 4 k = true := by
      simp only [List.mem_cons, List.not_mem_nil, or_false] at hk
      rcases hk with rfl | rfl | rfl <;> rfl
    simp [genValid, h]
  have e : otpGen (frozenOf q) 4 3 = 1 :: List.replicate 12 0 ++ [0, 0, q] := rfl
  have c : ∀ l, sealOf 4 3 (1 :: List.replicate 12 0 ++ l) = sealOf 4 3 (1 :: List.replicate 12 0) := fun l => by
    rw [sealOf, sealOf, if_pos (by decide)]; simp
  have g : genValid (frozenOf q) 4 3 = false := by
    rw [genValid, e, c, show otpAt (frozenOf q) 4 3 15 = q from rfl, beq_false_of_ne h, Bool.and_false]
  refine ⟨by simp [winner, List.find?, b, g], ?_⟩
  have n : genBlank (frozenOf q) 4 3 = false := by rw [genBlank, e]; simp
  simp [groupFrozen, spare, List.find?, n]

def alm (f : Alm → Alm) (s : State := base 0) : State := { s with alm := f s.alm }

theorem test_witness_alarm :
    let latched := alm fun a => { a with latch := 0x803, level := 0x800 }
    let tamper := (base 0).setFilled 0 0 true
    let a3 := (base 0).wr .almPolicy 0 0 0x006AAEAB
    let win := alm fun a => { a with window := true }
    let zb := alm fun a => { a with zbusy := true, zwhy := 2, dbgPend := true }
    let zcmd := { zb with adm := [{ q := 0, cid := 7, op := 0x3E, target := 0, ps := [], inp := [], outAddr := 0, outLen := 0 }], admWait := .zero }
    let due := alm fun a => { a with burnDue := true }
    let dueBusy := { due with sbk := { due.sbk with busy := true, op := 4 } }
    let burn := alm fun a => { a with burn := true }
    let inf := alm fun a => { a with inforce := true, cls := 2, out := true }
    let pin := { base 0 with tamper := [(3, { smp := [true, true, false, false], split := 15 })] }
    ((tgt (base 0) .shed ⟨.almLatch, 0, 0⟩ && tgt (base 0) .shed ⟨.almCtl, 0, 0⟩) = true ∧ (base 0).alm.latch.getLsbD 0 = false ∧ latched.alm.latch.getLsbD 0 = true ∧ latched.alm.latch.getLsbD 11 = true ∧
      (base 0).alm.level.getLsbD 11 = false ∧ (base 0).almClass 0 = 3 ∧ (base 0).almClass 2 = 2 ∧ (base 0).almClass 11 = 1 ∧ win.almClass 11 = 2 ∧ (base 0).almClass 10 = 2 ∧
      ((base 0).wr .almPolicy 0 0 0).almClass 5 = 0 ∧ a3.alm.cls < 2 ∧ (base 0).canBurn = false ∧ zb.alm.zbusy = true ∧ zcmd.admWait = .zero ∧ due.alm.burnDue = true ∧ due.sbk.busy = false ∧ dueBusy.sbk.busy = true ∧
      burn.alm.burn = true ∧ (base 0).clearRefused = true ∧ inf.clearRefused = false) ∧
    (nexts (exec (.alarmDecision 11 0) latched) latched && nexts (exec (.alarmDecision 11 0) (base 0)) (base 0) && nextHas (exec (.alarmDecision 0 0) a3) (fun t => t.alm.cls == 3 && t.alm.inforce && t.alm.lockedA3 && t.rdf .almRec 0 0 25 24 == 3) &&
      nextHas (exec (.alarmDecision 2 0) tamper) (fun t => t.alm.cls == 2 && t.filled == [] && t.alm.zbusy) && nextHas (exec (.alarmDecision 11 0) (alm fun a => { a with level := 0x800 })) (fun t => t.alm.freezePend && !t.alm.inforce) &&
      nextHas (exec (.alarmDecision 5 0) ((base 0).wr .almPolicy 0 0 0)) (fun t => t.alm.latch == 0x20 && !t.alm.freezePend && t.alm.cls == 0) &&
      nextHas (exec (.alarmDecision 10 0) (alm fun a => { a with level := 0x400 })) (fun t => t.alm.dbgPend) &&
      nextHas (exec (.alarmDecision 0 6) (base 0)) (fun t => t.alm.latch == 7 && (t.rd .almRec).getLsbD 30 && fld (t.rd .almRec) 3 0 == 0) &&
      nextHas (exec (.alarmSourceInactive 11) latched) (fun t => t.alm.level == 0) && nexts (exec (.alarmSourceInactive 9) latched) latched &&
      nextHas (exec (.tamperSample 3 false) pin) (fun t => t.alm.level.getLsbD 9 && t.alm.chat.getLsbD 9) && nextHas (exec (.tamperSample 0 true) (base 0)) (fun t => !t.alm.level.getLsbD 6)) = true ∧
    (nexts (exec .zeroizationComplete (base 0)) (base 0) && nexts (exec .locksBurn (base 0)) (base 0) && nextHas (exec .locksBurn due) (fun t => t.alm.burn && !t.alm.burnDue) &&
      nextHas (exec .locksBurn dueBusy) (fun t => t.alm.burn && !t.sbk.busy && t.rdf .sbkCtl 0 0 29 27 == 4) && nexts (exec (.locksBurnComplete 0) (base 0)) (base 0) &&
      nextHas (exec (.latchClear .shed 0xFFFF) latched) (fun t => t.alm.latch == 0x800) && nexts (exec (.almCtlClear .shed 0) inf) inf && nexts (exec (.dbgreq .shed 4) inf) inf && nexts (exec (.lift .shed 4) inf) inf &&
      nexts (exec (.almCtlClear .shed 4) (base 0)) ((base 0).reject .shed 0 (RegAt.key ⟨.almCtl, 0, 0⟩)) && nextHas (exec (.almCtlClear .shed 4) inf) (fun t => !t.alm.inforce && !t.alm.out && t.alm.liftPend) &&
      nextHas (exec (.lift .shed 2) (alm fun a => { a with cls := 1, freezePend := true })) (fun t => t.alm.liftPend && !t.alm.freezePend && t.alm.cls == 0) &&
      nextHas (exec (.dbgreq .shed 8) (base 0)) (fun t => t.alm.level.getLsbD 10) && nextHas (exec (.window .shed 1) (base 0)) (fun t => t.alm.window && t.alm.oldPol == 0x006AAEAB)) = true :=
  ⟨by decide +kernel, by decide +kernel, by decide +kernel⟩

theorem test_witness_seedbank_and_errors :
    let busy := fun (n : Nat) => { base 0 with sbk := { busy := true, op := n, group := 5 } }
    let cmd := { busy 1 with admWait := .sbk 5, adm := [{ q := 0, cid := 7, op := 0x30, target := 0, ps := [], inp := [], outAddr := 0, outLen := 0 }] }
    let single := part5 3 id (base 0)
    let pair := part5 3 (fun q => { q with paired := true, cell1 := 1 }) (base 0)
    let log := (base 0).wr .cellElogseq 0 0 1
    ((tgt (base 0) .shed ⟨.sbkCtl, 0, 0⟩ && tgt (base 0) (.core 0) ⟨.cluFstop, 0, 0⟩ && tgt (base 0) .shed ⟨.cellElogrd, 0, 0⟩) = true ∧ (base 0).sbk.busy = false ∧ (busy 1).sbk.busy = true ∧ (busy 1).shd.svnGoal = 0 ∧
      cmd.admWait = .sbk 5 ∧ programRefused (base 0).sbk.otp 5 = 0 ∧ programRefused (base 0).sbk.otp 4 = 3 ∧ winner (base 0).sbk.otp 1 = none ∧ groupFrozen (base 0).sbk.otp 4 = false ∧
      (single.part 5).homedIn 0 = true ∧ (single.part 5).paired = false ∧ (single.part 5).faultPend = none ∧ (pair.part 5).paired = true ∧ (pair.part 5).lost = 0 ∧ log.elogOpen 0 = 1) ∧
    (nexts (exec (.program .shed 2) (base 0)) (base 0) && nexts (exec (.reload .shed 4) (busy 1)) ((busy 1).reject .shed 0 (RegAt.key ⟨.sbkCtl, 0, 0⟩)) && nextHas (exec (.program .shed 0x501) (base 0)) (fun t => t.sbk.busy && t.sbk.op == 1 && t.sbk.group == 5) &&
      nextHas (exec (.program .shed 0x401) (base 0)) (fun t => !t.sbk.busy && t.rdf .sbkCtl 0 0 29 27 == 3) && nextHas (exec (.burnSvn .shed 2) (base 0)) (fun t => t.sbk.busy && t.sbk.group == 4) &&
      nextHas (exec (.burnProv .shed 3) (base 0)) (fun t => !t.sbk.busy && t.rdf .sbkCtl 0 0 29 27 == 3) && nextHas (exec (.reload .shed 0xF04) (base 0)) (fun t => t.sbk.op == 4 && t.sbk.group == 15) &&
      nexts (exec (.sbkOpComplete 0 true) (base 0)) (base 0) && nextHas (exec (.sbkOpComplete 0 true) (busy 4)) (fun t => !t.sbk.busy) && nexts (exec (.fstop (.core 0) 0 5) single) single &&
      nextHas (exec (.fstop (.core 0) 0 0x80000005) single) (fun t => (t.part 5).faultPend == some 0x0300) && nextHas (exec (.fstop (.core 0) 0 0x80000005) pair) (fun t => (t.part 5).lost == 1) &&
      nextHas (exec (.elogrdWrite .shed 0 1) log) (fun t => t.rd .cellElogrd 0 == 1) && nexts (exec (.elogrdWrite .shed 0 2) log) log && nexts (exec (.elogrdWrite .shed 0 0) log) log &&
      nextHas (exec (.voterDisagreement 2) (base 0)) (fun t => t.rd .glbVote == 0x00010002)) = true :=
  ⟨by decide +kernel, by decide +kernel⟩

def pwr (f : Pwr → Pwr) (s : State := base 0) : State := { s with pwr := f s.pwr }

theorem test_witness_power :
    let off := pwr fun w => { w with pmicOn := false, wake := false, up := false }
    let low := pwr fun w => { w with up := false, pwrgd := false, pgSeen := false, cause := 3 }
    let drop := pwr fun w => { w with pmicDropPend := true }
    let at_ := fun (n : Nat) => pwr fun w => { w with stage := n, lock := 0xFF, link := true }
    let hw := (base 0).modCell 0 fun k => { k with helloWait := true }
    let done := { at_ 7 with cells := [(0, { resolved := true }), (1, { resolved := true }), (2, { resolved := true })] }
    let run := { at_ 2 with shd := { State.reset.shd with run := true } }
    (tgt (base 0) .shed ⟨.pwrReset, 0, 0⟩ = true ∧ off.pwr.aon = true ∧ low.pwr.pmicOn = true ∧ drop.mayDrop = true ∧ (base 0).mayDrop = false ∧ (base 0).pwr.up = true ∧ (base 0).pwr.dead = false ∧
      (base 0).pwr.stage = 1 ∧ (at_ 2).shd.ctlWins = none ∧ (at_ 2).slotOk 0 = false ∧ (hw.cell 0).helloWait = true ∧ (List.range 3).all (fun n => (done.cell n).resolved) = true ∧ (at_ 8).pwr.stage = 8) ∧
    (nextHas (exec .vddAonRise (base 0)) (fun t => !t.pwr.up && t.pwr.cause == 1 && t.bar == []) && nextHas (exec (.wakeNFall 50) off) (fun t => t.pwr.pmicOn) && nexts (exec (.wakeNFall 49) off) off &&
      nextHas (exec (.pwrgdRise false false) low) (fun t => t.pwr.up && t.pwr.cause == 3 && t.bar == []) && nexts (exec (.pwrgdRise false false) off) off &&
      nextHas (exec (.pwrgdRise false true) low) (fun t => !t.pwr.up && t.pwr.pgSeen) && nextHas (exec (.pwrgdFall true) (base 0)) (fun t => !t.pwr.up && t.pwr.cause == 3) &&
      nexts (exec (.pwrgdFall true) low) low && nextHas (exec .pwrgdTimeout low) (fun t => !t.pwr.pmicOn) && nextHas (exec .pmicDrop drop) (fun t => !t.pwr.pmicOn) && nexts (exec .pmicDrop (base 0)) (base 0) &&
      nexts (exec .resetN low) low && nextHas (exec .resetN (base 0)) (fun t => t.pwr.cause == 2) && nexts (exec (.pwrReset .shed 5) (base 0)) (base 0) && nextHas (exec (.pwrReset .shed 0x434F4C44) (base 0)) (fun t => t.pwr.cause == 4) &&
      nextHas (exec .trstN (base 0)) (fun t => t.pwr.tapReset) && nexts (exec (.bootStageComplete {}) (at_ 8)) (at_ 8) && nexts (exec (.bootStageComplete {}) low) low) = true ∧
    (nextHas (exec (.bootStageComplete { nonce := 7 }) (base 0)) (fun t => t.pwr.stage == 2 && t.alm.nonce == 7 && t.alm.dbg && t.pwr.link) && nextHas (exec (.bootStageComplete {}) (at_ 2)) (fun t => t.pwr.dead) &&
      nextHas (exec (.bootStageComplete { trngOk := false, memCfg := [0x1113] }) (at_ 3)) (fun t => t.pwr.stage == 4 && t.rd .memCfg 0 == 0x1113) && nexts (exec (.ready 9) (base 0)) (base 0) &&
      nextHas (exec (.ready 9) done) (fun t => t.pwr.ready && t.pwr.stage == 8 && t.pwr.numVf == 9) && nextHas (exec (.helloWaitTimeout 0) hw) (fun t => (t.cell 0).st == 3 && (t.cell 0).resolved) && nexts (exec (.helloWaitTimeout 0) (base 0)) (base 0) &&
      nexts (exec (.pllLossOfLock 0) (base 0)) (base 0) && nextHas (exec (.pllLossOfLock 2) (at_ 2)) (fun t => !t.pwr.link && t.pwr.lock == 0xFB) &&
      nextHas (exec (.pllLossOfLock 9) (at_ 2)) (fun t => !t.pwr.link && t.pwr.lock == 0xFF) && nextHas (exec (.pllLossOfLock 7) run) (fun t => !t.shedUp && t.pwr.lockupN) &&
      nextHas (exec .mainPllLockTimeout (base 0)) (fun t => t.pwr.dead) && nexts (exec .mainPllLockTimeout (at_ 2)) (at_ 2)) = true :=
  ⟨by decide +kernel, by decide +kernel, by decide +kernel⟩

/-! ### The step, the queue, memory and frames -/

theorem test_witness_steps :
    let q := { fullSt [] with pending := [.tick, .ping 6 1] }
    let w := { holding [(0x1000, fixW 5)] (fullSt []) with pending := [.storePerform 0] }
    (q.memWf = true ∧ (List.all q.pending fun c => c.wf q.build) = true ∧ w.memWf = true ∧ (base 0).pending = [] ∧ ((base 0).core 0).pbit 4 = false ∧ Win.owner {} = 0) ∧
    (nextHas (step q) (fun t => t.pending == [.ping 6 1] && t.memWf) && nextHas (step w) (fun t => t.pending == [] && t.memWf && (t.core 0).sb == []) &&
      nextHas (step (base 0)) (fun t => t.clock == 1 && t.fc == 1)) = true :=
  ⟨by decide +kernel, by decide +kernel⟩

/-! ### Ill-formed commands: each check of WellFormed refuses -/

/-- The command names a unit that no 48-core part has; its execution changes nothing. -/
def illFormed (i : Instr) : Bool := !i.wf .t48 && nexts (exec i State.reset) State.reset
theorem test_ill_formed_core : illFormed (.wadd 48 1 2 3) = true := by decide +kernel
theorem test_ill_formed_cluster : illFormed (.rds 12 0) = true := by decide +kernel
theorem test_ill_formed_cell : illFormed (.tickAck 3) = true := by decide +kernel
theorem test_ill_formed_channel : illFormed (.calibrationSlot 12) = true := by decide +kernel
theorem test_ill_formed_rank : illFormed (.refresh 0 4) = true := by decide +kernel
theorem test_ill_formed_partition : illFormed (.markCompletion 64 0) = true := by decide +kernel
theorem test_ill_formed_function : illFormed (.registerWrite .host 65 0 0 0 4) = true := by decide +kernel
theorem test_ill_formed_queue : illFormed (.commandFetch 1 16 ⟨[], [], []⟩ [] .ok) = true := by decide +kernel
theorem test_ill_formed_vf_queue : illFormed (.ping 0 1) = true := by decide +kernel
theorem test_ill_formed_mailbox : illFormed (.mailboxOutPlace 4) = true := by decide +kernel
theorem test_ill_formed_timer_channel : illFormed (.tmuIncrement 24) = true := by decide +kernel
theorem test_ill_formed_timer_pin : illFormed (.tmuPinSample 8 true) = true := by decide +kernel
theorem test_ill_formed_tamper_pin : illFormed (.tamperSample 4 true) = true := by decide +kernel
theorem test_ill_formed_monitor : illFormed (.monitorSample 48 0) = true := by decide +kernel
theorem test_ill_formed_line : illFormed (.homeResponseTimeout (3 * 2 ^ 34)) = true := by decide +kernel
theorem test_ill_formed_agent : illFormed (.ncrd 3 0) = true ∧ illFormed (.ncrd 14 0) = true := by decide +kernel
theorem test_ill_formed_voter : illFormed (.voterDisagreement 3) = true := by decide +kernel
theorem test_ill_formed_pll : illFormed (.pllLossOfLock 10) = true := by decide +kernel

end Sys2Proof.Tests
end

namespace Sys2Proof.Machine

/-! ### SEL, MOV and EQ (R54, R77) -/

section SelMovEq

variable {s : State} {c : Nat} {rd rs1 rs2 : Reg}

/-- A body finds the registers as they were before the instruction began. -/
@[simp] theorem State.begun_reg (s : State) (c : Nat) (r : Reg) : (s.begun c).reg c r = s.reg c r := by
  simp [State.reg]

theorem Word.identical_iff (a b : Word) :
    a.identical b = true ↔ a.ty = b.ty ∧ a.pay = b.pay ∧ (a.isPtr = true ∨ a.sub = b.sub) := by
  simp [Word.identical, and_assoc]

theorem fixRes_pair (a b : Word) (v : B64) : fixRes [a, b] v = Word.fix v (a.sec || b.sec) := by
  simp [fixRes]

/-- R177: the SINFO of a tag trap on operand 0 is the operand's tag byte. -/
theorem tagInfo_zero (w : Word) : tagInfo 0 w = w.tag.toNat := by simp [tagInfo]
theorem tagInfo_one (w : Word) : tagInfo 1 w = 256 + w.tag.toNat := rfl

theorem movOp_run :
    (movOp c rd rs1).run.run s = (.ok .seq, s.modCore c fun k => k.put rd (s.reg c rs1)) :=
  (bind_ok (regOp_run rs1)).trans (bind_ok (putOp_run rd _))

theorem eqOp_run :
    (eqOp c rd rs1 rs2).run.run s = (.ok .seq, s.modCore c fun k =>
      k.put rd (fixRes [s.reg c rs1, s.reg c rs2] (boolPay ((s.reg c rs1).identical (s.reg c rs2))))) :=
  (bind_ok (regOp_run rs1)).trans <| (bind_ok (regOp_run rs2)).trans (bind_ok (putOp_run rd _))

/-- R77: the label of a choice is the OR of the labels of its three operands. -/
def State.selSec (s : State) (c : Nat) (rd rs1 rs2 : Reg) : Bool :=
  (s.reg c rs1).sec || (s.reg c rs2).sec || (s.reg c rd).sec

theorem selOp_condition_stop (hq : (s.reg c rs1).isFix = false) :
    (selOp c rd rs1 rs2).run.run s =
      (.error (.trap 0x03 (BitVec.ofNat 64 (tagInfo 0 (s.reg c rs1))) 2), s) :=
  bind_stop (fixOp_stop hq)

theorem selOp_candidates_stop (hq : (s.reg c rs1).isFix = true)
    (hne : ¬ ((s.reg c rs2).ty = (s.reg c rd).ty ∧ (s.reg c rs2).sub = (s.reg c rd).sub)) :
    (selOp c rd rs1 rs2).run.run s =
      (.error (.trap 0x03 (BitVec.ofNat 64 (tagInfo 1 (s.reg c rs2))) 2), s) :=
  (bind_ok (fixOp_ok hq)).trans <| (bind_ok (regOp_run rs2)).trans <| (bind_ok (regOp_run rd)).trans <|
    bind_stop (needTag_stop (by simpa [State.reg] using hne))

section EqualCandidates

variable (hq : (s.reg c rs1).isFix = true) (hty : (s.reg c rs2).ty = (s.reg c rd).ty)
  (hsub : (s.reg c rs2).sub = (s.reg c rd).sub)
include hq hty hsub

/-- With a `FIX` condition and candidates of equal TYPE and SUB, SEL checks the label and then writes. -/
theorem selOp_run_of_equal_tags :
    (selOp c rd rs1 rs2).run.run s =
      (do need (!s.selSec c rd rs1 rs2 || secAllowed (s.reg c rs2).ty) 0x05 (secInfo 0x09 2)
          putOp c rd (mkWord (s.reg c rs2).ty (s.selSec c rd rs1 rs2) (s.reg c rs2).sub
            (if (s.reg c rs1).pay != 0 then (s.reg c rs2).pay else (s.reg c rd).pay))
          return .seq : Op Flow).run.run s :=
  (bind_ok (fixOp_ok hq)).trans <| (bind_ok (regOp_run rs2)).trans <| (bind_ok (regOp_run rd)).trans <|
    bind_ok (needTag_ok (by simpa [State.reg] using And.intro hty hsub))

theorem selOp_label_stop (hs : s.selSec c rd rs1 rs2 = true) (ha : secAllowed (s.reg c rs2).ty = false) :
    (selOp c rd rs1 rs2).run.run s = (.error (.trap 0x05 (BitVec.ofNat 64 (secInfo 0x09 2)) 2), s) :=
  (selOp_run_of_equal_tags hq hty hsub).trans (bind_stop (need_stop (by simp [hs, ha])))

theorem selOp_ok (ha : s.selSec c rd rs1 rs2 = true → secAllowed (s.reg c rs2).ty = true) :
    (selOp c rd rs1 rs2).run.run s = (.ok .seq, s.modCore c fun k =>
      k.put rd (mkWord (s.reg c rs2).ty (s.selSec c rd rs1 rs2) (s.reg c rs2).sub
        (if (s.reg c rs1).pay != 0 then (s.reg c rs2).pay else (s.reg c rd).pay))) := by
  have hlabel : (!s.selSec c rd rs1 rs2 || secAllowed (s.reg c rs2).ty) = true := by
    cases h : s.selSec c rd rs1 rs2
    · rfl
    · simpa using ha h
  exact (selOp_run_of_equal_tags hq hty hsub).trans <| (bind_ok (need_ok hlabel)).trans (bind_ok (putOp_run rd _))

end EqualCandidates

/-! #### The instructions -/

theorem exec_mov (h : s.runs c) : exec (.mov c rd rs1) s = .next (s.wrote c rd (s.reg c rs1)) :=
  instr_wrote h (by rw [movOp_run, State.begun_reg])

theorem exec_eq (h : s.runs c) :
    exec (.eq c rd rs1 rs2) s = .next (s.wrote c rd (Word.fix (boolPay ((s.reg c rs1).identical (s.reg c rs2)))
      ((s.reg c rs1).sec || (s.reg c rs2).sec))) :=
  instr_wrote h (by rw [eqOp_run, State.begun_reg, State.begun_reg, fixRes_pair])

end SelMovEq

/-- Settles O2: MOV and EQ run through, and SEL passes or stops at its three checks in the order of R77. -/
theorem selMovAndEqCompleteAsStated : Obligations.SelMovAndEqCompleteAsStated := by
  intro s c rd rs1 rs2 h x y z sc same trap
  have hsc : (s.begun c).selSec c rd rs1 rs2 = sc := by simp [State.selSec, sc, x, y, z]
  refine ⟨exec_mov h, fun hs => ?eqSame, fun hs => ?eqOther, fun hq => ?selCondition, fun hq hne => ?selCandidates,
    fun hq hty hsub => ⟨fun hl ha => ?selLabel, fun ha => ?selWrites⟩⟩
  case eqSame => rw [exec_eq h, (Word.identical_iff x y).mpr hs]; rfl
  case eqOther => rw [exec_eq h, Bool.eq_false_iff.mpr (mt (Word.identical_iff x y).mp hs)]; rfl
  case selCondition =>
    refine instr_trap s _ c _ _ _ _ h ?_
    rw [selOp_condition_stop (by simpa using hq), tagInfo_zero, State.begun_reg]
  case selCandidates =>
    refine instr_trap s _ c _ _ _ _ h ?_
    rw [selOp_candidates_stop (by simpa using hq) (by simpa using hne), tagInfo_one, State.begun_reg]
  case selLabel =>
    exact instr_trap s _ c _ _ _ _ h
      (selOp_label_stop (by simpa using hq) (by simpa using hty) (by simpa using hsub) (hsc.trans hl) (by simpa using ha))
  case selWrites =>
    refine instr_wrote h ?_
    rw [selOp_ok (by simpa using hq) (by simpa using hty) (by simpa using hsub) (by simpa [hsc] using ha), hsc]
    simp [x, y, z]

end Sys2Proof.Machine
